-- ==== Sys2Proof/Word.lean ====
section
/-! DEFINITION. The words of the machine: bytes, the unsigned words of registers and descriptors, and the
byte strings that memory, frames and images are made of (R5). -/
namespace Sys2Proof

/-- One byte of memory, of a frame or of an image. -/
abbrev Byte := BitVec 8

/-- A string of bytes in order of rising address. -/
abbrev Bytes := List Byte

/-- A 64-bit register or global address. -/
abbrev Word := BitVec 64

end Sys2Proof
end

