-- ==== Sys2Proof/Syntax.lean ====
section
/-! DEFINITION. The commands: one constructor per row of the table, with the operands the row names; and what a
command brings from outside the device (descriptor fetches, other devices' bytes, host answers, physical faults). -/
namespace Sys2Proof

/-- A descriptor's fields (R346); `ops` is bytes 0x10 to 0x3B, byte 0x10 lowest. -/
structure Desc where
  hdr : BitVec 8 := 0
  opcode : BitVec 8
  cflags : BitVec 16 := 0
  userTag : BitVec 32 := 0
  next : BitVec 64 := 0
  ops : BitVec 352 := 0
deriving DecidableEq, Repr

/-- What lies outside the device while a command runs: the bytes that other devices and host memory return (an
address with no entry does not answer), the local ranges whose read meets an uncorrectable error (R419), the host
ranges whose write is refused by translation or answered in error (R403), and the faults that units meet in the command's work:
below 16, that table engine's completion detector sees an illegal code (R416); 16 and the number of a core, its lane reads a
partition-table entry that breaks its CRC (R154, R304). -/
structure Env where
  remote : List (Nat × Byte) := []
  host : List (Nat × Byte) := []
  ecc : List (Nat × Nat) := []
  deny : List (Nat × Nat) := []
  codes : List Nat := []
deriving DecidableEq, Repr

/-- One fetch of a dispatch turn: the 64 bytes the ring read returned, if any, and the surroundings of the dispatch. -/
structure Fetch where
  entry : Option Bytes
  env : Env := {}
deriving DecidableEq, Repr

/-- A physical fault met by a step of a core (R34 to R36, R416): nothing, the code a completion detector sees at the
step's read number `read`, an uncorrectable error in a memory (0 node, 1 leaf, 2 accumulator, 3 core memory, 4 context
table, 5 the chain buffers of cluster SRAM), or bits flipped in what the step reads. -/
inductive Upset where
  | clean
  | code (wires : BitVec 4) (read : Nat)
  | ecc (memory : Fin 6)
  | flip (read : Nat) (mask : BitVec 64)
deriving DecidableEq, Repr

/-- Readings of one power sample (R495): input voltage in mV, input current in mA. -/
structure PowerReading where
  milliVolts : Nat
  milliAmps : Nat
deriving DecidableEq, Repr

/-- Readings of one coolant sample (R499, R500, R502): junction temperatures of the dies in units of 1/16 °C, inlet and
outlet temperature in the same units, flow in mL/min, whether a reading lies outside its sensor's physical range, and the errors
that each HBM stack has corrected since the last sample (R506). -/
structure CoolReading where
  tjCluster : List Int
  tjCore : List Int
  tjHub : Int
  inlet : Int
  outlet : Int
  flow : Nat
  fault : Bool
  corrected : List Nat := []
deriving DecidableEq, Repr

/-- The commands of the block, in the order of the table. -/
inductive Instr where
  | nop (c : Fin 64) (d : Desc) (env : Env)
  | recordEvent (c : Fin 64) (d : Desc) (env : Env)
  | recordEventApply (job : Nat)
  | waitEvent (c : Fin 64) (d : Desc) (env : Env)
  | progressScan (c : Fin 64) (d : Desc) (env : Env)
  | loadLayout (c : Fin 64) (d : Desc) (env : Env)
  | loadGrove (c : Fin 64) (d : Desc) (env : Env)
  | evictGrove (c : Fin 64) (d : Desc) (env : Env)
  | graft (c : Fin 64) (d : Desc) (env : Env)
  | scoreBatch (c : Fin 64) (d : Desc) (env : Env)
  | residentScore (c : Fin 64) (d : Desc) (env : Env)
  | stopResident (c : Fin 64) (d : Desc) (env : Env)
  | histBuild (c : Fin 64) (d : Desc) (env : Env)
  | splitFind (c : Fin 64) (d : Desc) (env : Env)
  | partition (c : Fin 64) (d : Desc) (env : Env)
  | leafFit (c : Fin 64) (d : Desc) (env : Env)
  | snapshotStep (c : Fin 64) (d : Desc) (env : Env)
  | snapshotEpoch (c : Fin 64) (d : Desc) (env : Env)
  | snapshotFull (c : Fin 64) (d : Desc) (env : Env)
  | snapshotReadback (c : Fin 64) (d : Desc) (env : Env)
  | gather (c : Fin 64) (d : Desc) (env : Env)
  | update (c : Fin 64) (d : Desc) (env : Env)
  | tableSync (c : Fin 64) (d : Desc) (env : Env)
  | accPreload (c : Fin 64) (d : Desc) (env : Env)
  | tilePreloadWrite (job : Nat) (env : Env)
  | accPreloadStream (c : Fin 64) (d : Desc) (env : Env)
  | accPreloadDisarm (c : Fin 64) (d : Desc) (env : Env)
  | accReduce (c : Fin 64) (d : Desc) (env : Env)
  | accRelease (c : Fin 64) (d : Desc) (env : Env)
  | accFinish (c : Fin 64) (d : Desc) (env : Env)
  | accFinishStream (c : Fin 64) (d : Desc) (env : Env)
  | matmul (c : Fin 64) (d : Desc) (env : Env)
  | denseOut (c : Fin 64) (d : Desc) (env : Env)
  | copy (c : Fin 64) (d : Desc) (env : Env)
  | storeGraph (c : Fin 64) (d : Desc) (env : Env)
  | launchGraph (c : Fin 64) (d : Desc) (env : Env)
  | patchGraph (c : Fin 64) (d : Desc) (env : Env)
  | freeGraph (c : Fin 64) (d : Desc) (env : Env)
  | dbgRead (c : Fin 64) (d : Desc) (env : Env)
  | sqDoorbell (c : Fin 64) (v : BitVec 32)
  | dispatchTurn (fetches : List Fetch)
  | staleCommand (c : Fin 64) (entry : Option Bytes)
  | chainLinkStart (job : Nat) (env : Env)
  | channelWaitEnd (c : Fin 64)
  | descriptorComplete (job : Nat) (env : Env)
  | completionBlocked (c : Fin 64) (kind : Fin 4) (job : Nat)
  | hostAccessFault (c : Fin 64) (job : Option Nat)
  | cqDoorbell (c : Fin 64) (v : BitVec 32)
  | recordRingDoorbell (c : Fin 64) (v : BitVec 32) (entry : Option Bytes)
  | resultRingDoorbell (c : Fin 64) (v : BitVec 32)
  | recordRingRead (c : Fin 64) (entry : Option Bytes)
  | enable (c : Fin 64)
  | disable (c : Fin 64)
  | halt (c : Fin 64)
  | resume (c : Fin 64)
  | resumeCompletion (c : Fin 64) (env : Env)
  | registerWrite (bar2 : Bool) (offset : BitVec 24) (bytes : Nat) (v : BitVec 64)
  | ceFlush (e : Fin 20)
  | hostLinkDown (flr : Bool) (failed : List Nat)
  | reattach (v : BitVec 64) (bme : Bool) (env : Env)
  | discard (failed : List Nat)
  | deviceReset (failed : List Nat)
  | atsInvalidate (addr : BitVec 64) (bytes : Nat)
  | msixUnmask (v : Fin 128)
  | bar4Resize (sizeLog2 : Nat)
  | bar4Write (offset : Nat) (data : Bytes)
  | bar4Read (offset : Nat) (n : Nat)
  | debugEnable (on : Bool)
  | debugWindowRead (offset : Nat) (n : Nat)
  | errorRingConfigure (base : BitVec 64) (log2 : BitVec 5) (env : Env)
  | errorRecordWrite (env : Env)
  | vddRequest (v : BitVec 64)
  | powerLimitHost (v : BitVec 64)
  | portEnable (p : Fin 16)
  | portDisable (p : Fin 16)
  | portReset (p : Fin 16)
  | routeEntryWrite (dev : Fin 4096) (v : BitVec 64)
  | ingressFrame (plot : Fin 256) (env : Env)
  | headTakeRecord (core : Fin 256) (u : Upset)
  | entityLookup (core : Fin 256) (env : Env)
  | sieveBin (core : Fin 256) (u : Upset)
  | binVectorPacket (core : Fin 256)
  | contextAllocate (core : Fin 256) (env : Env)
  | sumPacketTake (core : Fin 256) (u : Upset)
  | recordAdmit (core : Fin 256)
  | roundIssue (core : Fin 256) (u : Upset)
  | roundDrain (core : Fin 256) (u : Upset)
  | sumPacketSend (core : Fin 256)
  | contextFree (core : Fin 256)
  | leafKeyBlock (core : Fin 256)
  | keyGatherBag (core : Fin 256) (env : Env)
  | finisherPass (core : Fin 256) (env : Env)
  | egressWrite (core : Fin 256) (u : Upset) (env : Env)
  | resultDatagramSend (p : Fin 16)
  | datagramTxDone (p : Fin 16)
  | recordDatagramRx (p : Fin 16) (frame : Bytes) (fcsOk : Bool)
  | pfcRelease (p : Fin 16)
  | pauseRx (p : Fin 16) (quanta : BitVec 16)
  | pauseTimer (p : Fin 16)
  | graftMarkerPlace (plot : Fin 256)
  | markerAtHead (core : Fin 256)
  | markerAtFirstCore (core : Fin 256)
  | coreSwitch (core : Fin 256) (u : Upset)
  | heldMarkerRelease (core : Fin 256)
  | graftComplete (plot : Fin 256)
  | drainAndSwap (plot : Fin 256)
  | fence (core : Fin 256) (u : Upset)
  | rePlacement (plot : Fin 256) (env : Env)
  | plotRestart (plot : Fin 256)
  | plotReplay (plot : Fin 256) (bad : List Nat) (ecc : List Nat)
  | rakeScan (blocked : List (Nat × Nat))
  | fecLockstep
  | hubFatal (crossing : Bool)
  | hello (p : Fin 16) (frame : Bytes)
  | lcpData (p : Fin 16) (frame : Bytes) (fcsOk : Bool)
  | lcpNak (p : Fin 16) (frame : Bytes)
  | lcpControl (p : Fin 16) (frame : Bytes)
  | lcpRetransmitTimer (p : Fin 16)
  | linkLost (p : Fin 16)
  | readUnit (p : Fin 16) (env : Env)
  | writeUnit (p : Fin 16)
  | eventUnit (p : Fin 16)
  | readResponse (p : Fin 16)
  | writeAcknowledgement (p : Fin 16)
  | mirrorRecord (p : Fin 16)
  | mirrorClose (p : Fin 16) (hash : BitVec 32)
  | mirrorDrain
  | restartRequest (plot : Fin 256)
  | restartUnit (p : Fin 16)
  | restartDone (p : Fin 16)
  | accept (p : Fin 16)
  | pcieCompletionTimeout (c : Fin 64) (job : Option Nat)
  | flashPoll
  | inputApplied (milliVolts : Nat)
  | inputLockout (milliVolts : Nat)
  | powerOn (testEn : Bool) (failed : List Nat)
  | powerOff
  | thermalTrip (celsius : Int)
  | flowTrip (flow : Nat)
  | flowLow (flow : Nat)
  | peakClamp (milliAmps : Nat)
  | powerSample (r : PowerReading)
  | coolantSample (r : CoolReading)
  | valveStep
  | canaryMeasure (counts : List (List Nat))
  | pldmRackLimit (watts : BitVec 16)
  | pldmCoolModel (which : Fin 5) (v : BitVec 16)
  | pldmFirmwareUpdate (image : Bytes)
  | ownerKeyInstall (slot : Fin 4) (key : Bytes)
  | ownerKeyClear (slot : Fin 4)
  | requireSigned (on : Bool)
  | permit (on : Bool)
  | tapReset
  | extest (taps : BitVec 5)
  | idcode (taps : BitVec 5)
  | samplePreload (taps : BitVec 5)
  | clamp (taps : BitVec 5)
  | highz (taps : BitVec 5)
  | extestPulse (taps : BitVec 5)
  | extestTrain (taps : BitVec 5)
  | bypass (taps : BitVec 5)
  | drScan (pins : List Bool) (tdi : List Bool)
  | pcsAlignment (p : Fin 16)
  | atsEnable (on : Bool)
deriving DecidableEq, Repr

end Sys2Proof
end

