-- ==== Sys2Proof/Decode.lean ====
section
/-! DEFINITION. The table's words: no row of the table gives bits, so no word spells a command. -/
namespace Sys2Proof

/-- The command a word of the table spells: none, since the table gives bits to no row. -/
def decodeTableWord (_nbits _w : Nat) : Option Instr := none

end Sys2Proof
end

