-- ==== Sys2Proof/Config.lean ====
section
/-! DEFINITION. What the spec leaves open: opaque constants with no body, so that no proof can see a value. -/
namespace Sys2Proof.Config

/-- Whether a firmware image carries a good signature (R507): the key material is Rolorn's own (log 3). -/
opaque firmwareSigned : Bytes → Bool

/-- At which end of a head's sieve-table memory the FEC places a table where no other one lies (R84, R110; log 4), by its size. -/
opaque sieveHigh : Nat → Bool

/-- Whether a core's waiting fault is taken up between the checks of a LOAD_LAYOUT and its application (R144), by a count of the
state (log 56). -/
opaque fenceFirst : Nat → Bool

/-- A byte of the device region that a debug read returns, by a count of the state and the offset: the spec fixes no
placement there (R26, R139). -/
opaque deviceRegionByte : Nat → Nat → BitVec 8

/-- Whether the MC rounds a value of its arithmetic up (R495, R500, R503, R505): by the quantity's number, the sample number, and
the numerator and denominator of the exact value, where it lies between two codes (log 16). -/
opaque mcUp : Nat → Nat → Int → Nat → Bool

/-- The same of exp(−n / d) in units of 2^-32 (R500; log 16). -/
opaque expUp : Nat → Nat → Bool

/-- How far the MC moves the valve in mode AUTO (R499), in 0.5 % units, by the number of the coolant sample: the least opening
depends on the plant (log 16). -/
opaque valveMove : Nat → Nat

/-- SLOT_ID[3:0] as the carrier straps it (R524, R526; log 55). -/
opaque slotId : BitVec 4

/-- The function of a boundary cell, by the test access port and the cell's place, modulo 4 (R532; log 41): 0 drives a
die-to-die crossing, 1 an AC-coupled lane, 2 a sideband pin; 3 drives no pin. -/
opaque cellKind : Nat → Nat → Nat

/-- The falling edges of TCK in Run-Test/Idle after a scan, beside the four that R533 asks for, by a count of the state
(R533; log 41). -/
opaque idleEdges : Nat → Nat

/-- The baseline count of a canary ring, by core and ring, that production wrote into MC flash (R503; log 17). -/
opaque ringBaseline : Nat → Nat → Nat

/-- A tabulated quantity outside the points of its table, in units of 10^-6: which table, and the operands (R498, R504;
log 16). -/
opaque offTable : Nat → Int → Int → Nat

/-- The first place in a node bank of a stage's table, by the sizes of the 16 tables and the stage: the FEC places them
(R113; log 19). -/
opaque nodePlace : List Nat → Nat → Nat

/-- HUB_SERIAL (R523): the serial that production wrote into MC flash (log 17). -/
opaque moduleSerial : BitVec 64

/-- A byte of the flash that nothing the spec describes has programmed (R459, R460), by the flash's programs and the
byte's offset. -/
opaque flashByte : Nat → Nat → BitVec 8

/-- A value the spec leaves undefined after an operation that goes on, by a counter of the state. -/
opaque freeValue : Nat → BitVec 64

/-- The part of a debug or register value the spec calls implementation-chosen, by register and address. -/
opaque freeRegister : Nat → Nat → BitVec 64

/-- Whether a cached row is still in the row cache: replacement order is not specified (R319); by a count of the state and
the row's address (log 7). -/
opaque cacheKept : Nat → Nat → Bool

/-- Which of its home cluster's four engines serves an access (R318), by the address (log 7). -/
opaque homeEngine : Nat → Nat

/-- Whether a Read or Write unit of another device is a table engine's row access: no field of the unit says so (R318, R319,
R469; log 7). -/
opaque tableUnit : Nat → Bool

/-- Whether it is the hold of a received PAUSE that ends when a port's PAUSE timers run out, and not the refresh of its XOFF,
while both timers run (R39; log 22). -/
opaque pauseEnds : Nat → Bool

/-- How many packets a lane within a cluster holds beside the first, before its receiver withholds the acknowledgement (R15;
log 44). -/
opaque laneDepth : Nat

/-- The stream that the tail's device takes a record to be of, by the TAG half of its RECORD_ID: no packet carries the
stream (R105, R195, R477; log 15). -/
opaque tagStream : Nat → Nat

/-- Whether a squashed round had reached the gate, its leaf checks made, or not yet the leaf stage (R251), by a count of the
state (log 26). -/
opaque atGate : Nat → Bool

/-- The FP32 code of an E4M3 row value whose row's SCALE is no power of two, by the codes of the two (R316; log 13). -/
opaque oddScale : Nat → Nat → BitVec 32

/-- The code that stochastic rounding gives a finite value past the largest one of the format, by the value's significand
and exponent (R331; log 13). -/
opaque stochOver : Nat → Int → BitVec 32

/-- The SCALE code of an E4M3 row whose exponent lies below every FP32 power of two, by the exponent (R331; log 13). -/
opaque smallScale : Nat → BitVec 32

end Sys2Proof.Config
end

