-- ==== Sys2Proof/Machine/Bits.lean ====
section
/-! DEFINITION. Byte order, bit fields, and the check codes: CRC-32C, as frames, entries and packets carry it. -/
namespace Sys2Proof.Machine

/-- The unsigned number of a little-endian byte string (R5). -/
def le : Bytes → Nat
  | [] => 0
  | b :: bs => b.toNat + 256 * le bs

/-- The `n` little-endian bytes of a number (R5); higher bits drop. -/
def toLe : Nat → Nat → Bytes
  | 0, _ => []
  | n + 1, v => BitVec.ofNat 8 v :: toLe n (v / 256)

/-- Bits `[lo + w - 1 : lo]` of a number. -/
def bits (v lo w : Nat) : Nat := v / 2 ^ lo % 2 ^ w

/-- Bit `i` of a number. -/
def bit (v i : Nat) : Bool := v / 2 ^ i % 2 == 1

/-- 1 for true, 0 for false. -/
def b2n (b : Bool) : Nat := if b then 1 else 0

/-- The `w`-bit two's complement reading of an unsigned number. -/
def sext (w v : Nat) : Int :=
  let u := v % 2 ^ w
  if u < 2 ^ (w - 1) then (u : Int) else (u : Int) - (2 ^ w : Nat)

/-- The `w`-bit two's complement code of an integer. -/
def ofInt (w : Nat) (i : Int) : Nat := (i % (2 ^ w : Nat)).toNat

/-- `n` bytes of a string from byte `o`; bytes past its end read as zero. -/
def slice (bs : Bytes) (o n : Nat) : Bytes :=
  let s := (bs.drop o).take n
  s ++ List.replicate (n - s.length) 0#8

/-- The little-endian number of `n` bytes at byte `o`. -/
def field (bs : Bytes) (o n : Nat) : Nat := le (slice bs o n)

/-- The bytes of a string with `new` laid over it from byte `o`. -/
def overlay (bs : Bytes) (o : Nat) (new : Bytes) : Bytes :=
  bs.take o ++ new ++ bs.drop (o + new.length)

/-- `n` copies of one element-producing step: the list of `f 0` to `f (n - 1)`. -/
def tab {α : Type} (n : Nat) (f : Nat → α) : List α := (List.range n).map f

/-- One bit step of the reflected CRC-32C register. -/
def crcBit (c : Nat) : Nat := (c / 2) ^^^ (c % 2 * 0x82F63B78)

/-- One byte of the reflected CRC-32C register. -/
def crcByte (c : Nat) (b : Byte) : Nat :=
  crcBit (crcBit (crcBit (crcBit (crcBit (crcBit (crcBit (crcBit (c ^^^ b.toNat))))))))

/-- CRC-32C of a byte string: reflected polynomial 0x82F63B78, initial value and final inversion all ones. -/
def crc32c (bs : Bytes) : Nat := (bs.foldl crcByte 0xFFFFFFFF) ^^^ 0xFFFFFFFF

/-- A list with its element at `i` replaced (unchanged when `i` is past its end). -/
def setAt {α : Type} (l : List α) (i : Nat) (a : α) : List α := l.set i a

/-- The element at `i`, or the given default. -/
def at' {α : Type} (d : α) (l : List α) (i : Nat) : α := l.getD i d

/-- Whether two half-open ranges share a number. -/
def overlaps (a n b m : Nat) : Bool := a < b + m && b < a + n

/-- A number rounded up to a multiple. -/
def alignUp (v a : Nat) : Nat := (v + a - 1) / a * a

/-- `b` is not before `a` on a 32-bit ring and differs from it (R48). -/
def precedes (a b : Nat) : Bool :=
  let d := (b + 2 ^ 32 - a % 2 ^ 32) % 2 ^ 32
  1 ≤ d && d ≤ 2 ^ 31 - 1

end Sys2Proof.Machine
end

