-- ==== Sys2Proof/Machine/Flags.lean ====
section
/-! DEFINITION. The numeric flags NFLAGS (R72), the status codes the numeric flags lead to (R9, R74). -/
namespace Sys2Proof.Machine

/-- The numeric flags, one bit each (R72); bit 7 is reserved and always 0. -/
abbrev NFlags := BitVec 8

namespace Fl
/-- SAT_INT (R72). -/
def satInt : NFlags := 1
/-- SAT_FX (R72). -/
def satFx : NFlags := 2
/-- SAT_E4M3 (R72). -/
def satE4 : NFlags := 4
/-- OVF (R72). -/
def ovf : NFlags := 8
/-- NAN (R72). -/
def nan : NFlags := 16
/-- INEXACT_FX (R72). -/
def inexact : NFlags := 32
/-- UNDERFLOW (R72). -/
def underflow : NFlags := 64
end Fl

/-- Whether a flag set carries any flag of a mask. -/
def hasFlag (f mask : NFlags) : Bool := (f &&& mask) != 0#8

/-- SAT_INT, SAT_FX or SAT_E4M3 (R74, SATURATED). -/
def isSaturated (f : NFlags) : Bool := hasFlag f 7#8

/-- A 16-bit status code (R9); the class is bits [15:12]. -/
abbrev Status := BitVec 16

/-- The class of a status code (R9). -/
def Status.cls (s : Status) : Nat := s.toNat / 4096

end Sys2Proof.Machine
end

