-- ==== Sys2Proof/Machine/Num.lean ====
section
/-! DEFINITION. The number formats, rounding and conversions: every arithmetic value is an exact real (a dyadic,
or a dyadic with a sticky remainder) that is rounded ONCE into its destination (R55 to R72). -/
namespace Sys2Proof.Machine

/-- The eight arithmetic formats (R55). FX48 carries its scale exponent beside it. -/
inductive Fmt where
  | fp32 | bf16 | fp16 | e4m3 | int32 | int16 | int8 | fx48
deriving DecidableEq, Repr

/-- The rounding modes of a ROUND field (R66). -/
inductive Mode where
  | rne | rtz | rdn | rup
deriving DecidableEq, Repr

/-- The mode a two-bit ROUND field selects (R66). -/
def Mode.ofField (n : Nat) : Mode :=
  match n % 4 with
  | 0 => .rne | 1 => .rtz | 2 => .rdn | _ => .rup

/-- A value: NaN (payload and sign are not kept, R58), an infinity, or the finite real
`(-1)^neg * (m + s) * 2^e` where `s` is 0 when `sticky` is false and some real strictly between 0 and 1
when it is true. Zero keeps its sign. -/
inductive Val where
  | nan
  | inf (neg : Bool)
  | fin (neg : Bool) (m : Nat) (e : Int) (sticky : Bool)
deriving DecidableEq, Repr

/-- The bytes one element of a format takes in memory (R55, R60). -/
def Fmt.size : Fmt → Nat
  | .fp32 => 4 | .bf16 => 2 | .fp16 => 2 | .e4m3 => 1 | .int32 => 4 | .int16 => 2 | .int8 => 1 | .fx48 => 8

/-- The precision (hidden bit included) and the exponent of the smallest subnormal of a float format (R55). -/
def Fmt.prec : Fmt → Nat × Int
  | .fp32 => (24, -149) | .bf16 => (8, -133) | .fp16 => (11, -24) | _ => (4, -9)

/-- Whether a format is one of the four float formats. -/
def Fmt.isFloat : Fmt → Bool
  | .fp32 | .bf16 | .fp16 | .e4m3 => true
  | _ => false

/-- The width of an integer format. -/
def Fmt.intWidth : Fmt → Nat
  | .int32 => 32 | .int16 => 16 | .int8 => 8 | _ => 64

/-- The all-magnitude code of a float format's infinity, or one past its largest finite code (R55, R57). -/
def Fmt.infCode : Fmt → Nat
  | .fp32 => 0x7F800000 | .bf16 => 0x7F80 | .fp16 => 0x7C00 | _ => 0x7F

/-- The canonical NaN of a float format (R58). -/
def Fmt.nanCode : Fmt → Nat
  | .fp32 => 0x7FC00000 | .bf16 => 0x7FC0 | .fp16 => 0x7E00 | _ => 0x7F

/-- The value of an integer, scaled by a power of two. -/
def Val.ofInt (i : Int) (e : Int := 0) : Val := .fin (i < 0) i.natAbs e false

/-- The value of an in-range FX48 slot (R64): a slot out of range is taken at the nearer range end, with SAT_FX. -/
def fxRead (slot : Nat) : Int × NFlags :=
  let v := sext 64 slot
  if v > 2 ^ 47 - 1 then (2 ^ 47 - 1, Fl.satFx)
  else if v < -(2 ^ 47 : Int) then (-(2 ^ 47 : Int), Fl.satFx)
  else (v, 0)

/-- The value a float code stands for (R55 to R57). -/
def floatVal (f : Fmt) (code : Nat) : Val :=
  let w := 8 * f.size
  let c := code % 2 ^ w
  let neg := bit c (w - 1)
  let mag := c % 2 ^ (w - 1)
  let (p, q) := f.prec
  if f = .e4m3 then
    if mag = 0x7F then .nan
    else if mag < 8 then .fin neg mag q false
    else .fin neg (8 + mag % 8) (q + ((mag / 8 - 1 : Nat) : Int)) false
  else if mag > f.infCode then .nan
  else if mag = f.infCode then .inf neg
  else if mag < 2 ^ (p - 1) then .fin neg mag q false
  else .fin neg (2 ^ (p - 1) + mag % 2 ^ (p - 1)) (q + ((mag / 2 ^ (p - 1) - 1 : Nat) : Int)) false

/-- Value of an element code of a format; `scale` is the FX48 scale exponent. The flags are those of R64. -/
def decodeVal (f : Fmt) (scale : Int) (code : Nat) : Val × NFlags :=
  match f with
  | .int32 => (.ofInt (sext 32 code), 0)
  | .int16 => (.ofInt (sext 16 code), 0)
  | .int8 => (.ofInt (sext 8 code), 0)
  | .fx48 => let (v, fl) := fxRead code; (.ofInt v (-scale), fl)
  | f => (floatVal f code, 0)

/-- Whether a discarded part makes the magnitude go up in a mode: `half` compares the part with one half
(`.lt`, `.eq`, `.gt`), `any` says it is not zero, `odd` that the kept magnitude is odd. -/
def roundUp (md : Mode) (neg odd any : Bool) (half : Ordering) : Bool :=
  match md with
  | .rtz => false
  | .rdn => neg && any
  | .rup => !neg && any
  | .rne => half == .gt || (half == .eq && odd)

/-- `(m + s) * 2^e` rounded to a multiple of `2^q`: the multiple and whether anything was discarded. -/
def roundMag (md : Mode) (neg : Bool) (m : Nat) (e : Int) (sticky : Bool) (q : Int) : Nat × Bool :=
  if q ≤ e then
    let k := m * 2 ^ (e - q).toNat
    (if roundUp md neg (k % 2 == 1) sticky .lt then k + 1 else k, sticky)
  else
    let s := (q - e).toNat
    let k := m / 2 ^ s
    let r := m % 2 ^ s
    let h := 2 ^ (s - 1)
    let half : Ordering := if r < h then .lt else if r = h && !sticky then .eq else .gt
    let any := r != 0 || sticky
    (if roundUp md neg (k % 2 == 1) any half then k + 1 else k, any)

/-- The largest finite code of a float format. -/
def Fmt.maxCode (f : Fmt) : Nat := f.infCode - 1

/-- Rounding into FP32, BF16 or FP16 (R66, R67): the code and the flags. Overflow goes to infinity, or, where the
mode rounds toward zero there, to the largest finite value; OVF either way. -/
def toIeee (f : Fmt) (md : Mode) (neg : Bool) (m : Nat) (e : Int) (sticky : Bool) : Nat × NFlags :=
  let sgn := if neg then 2 ^ (8 * f.size - 1) else 0
  if m = 0 && !sticky then (sgn, 0)
  else
    let (p, qmin) := f.prec
    let q0 : Int := (Nat.log2 m : Int) + e - ((p : Int) - 1)
    if q0 > 400 then
      let toward := match md with | .rtz => true | .rdn => !neg | .rup => neg | .rne => false
      (sgn + (if toward then f.maxCode else f.infCode), Fl.ovf)
    else
    let q := max q0 qmin
    let (k, _) := roundMag md neg m e sticky q
    let code := (q - qmin).toNat * 2 ^ (p - 1) + k
    if k = 0 then (sgn, Fl.underflow)
    else if code ≥ f.infCode then
      let toward := match md with | .rtz => true | .rdn => !neg | .rup => neg | .rne => false
      (sgn + (if toward then f.maxCode else f.infCode), Fl.ovf)
    else (sgn + code, 0)

/-- Whether a magnitude exceeds 448, the largest E4M3 value. -/
def over448 (m : Nat) (e : Int) (sticky : Bool) : Bool :=
  if e ≥ 0 then m * 2 ^ e.toNat > 448 || (m * 2 ^ e.toNat = 448 && sticky)
  else m > 448 * 2 ^ (-e).toNat || (m = 448 * 2 ^ (-e).toNat && sticky)

/-- Rounding into E4M3 (R57, R67): a larger magnitude gives 448 of its sign in every mode. -/
def toE4 (md : Mode) (neg : Bool) (m : Nat) (e : Int) (sticky : Bool) : Nat × NFlags :=
  let sgn := if neg then 0x80 else 0
  if m = 0 && !sticky then (sgn, 0)
  else if over448 m (min e 4000) sticky then (sgn + 0x7E, Fl.satE4)
  else
    let q := max ((Nat.log2 m : Int) + e - 3) (-9)
    let (k, _) := roundMag md neg m e sticky q
    if k = 0 then (sgn, Fl.underflow) else (sgn + (q + 9).toNat * 8 + k, 0)

/-- A value rounded to an integer between two bounds; `none` for NaN. The Bool says it saturated, the second that
bits were dropped. Minus zero gives zero (R68). The range is judged after rounding: a finite value just beyond an end that rounds
back to it saturates nothing (R67 leaves it open; DEDUCED, log 43). -/
def toInt (md : Mode) (lo hi : Int) : Val → Option (Int × Bool × Bool)
  | .nan => none
  | .inf neg => some (if neg then lo else hi, true, false)
  | .fin neg m e sticky =>
    if e > 200 && m != 0 then some (if neg then lo else hi, true, false)
    else
      let (k, any) := roundMag md neg m e sticky 0
      let v : Int := if neg then -(k : Int) else k
      if v < lo then some (lo, true, any) else if v > hi then some (hi, true, any) else some (v, false, any)

/-- Conversion of a value into any format (R67): the code and the flags. INEXACT_FX is not raised where the
conversion saturates (DEDUCED, log 12). -/
def encodeVal (f : Fmt) (scale : Int) (md : Mode) (v : Val) : Nat × NFlags :=
  let asInt (w : Nat) : Nat × NFlags :=
    match toInt md (-(2 ^ (w - 1) : Nat)) (2 ^ (w - 1) - 1 : Nat) v with
    | none => (0, Fl.nan)
    | some (i, sat, _) => (ofInt w i, if sat then Fl.satInt else 0)
  match f with
  | .int32 => asInt 32
  | .int16 => asInt 16
  | .int8 => asInt 8
  | .fx48 =>
    let v' := match v with | .fin n m e s => Val.fin n m (e + scale) s | x => x
    match toInt md (-(2 ^ 47 : Nat)) (2 ^ 47 - 1 : Nat) v' with
    | none => (0, Fl.nan)
    | some (i, true, _) => (ofInt 64 i, Fl.satFx)
    | some (i, false, any) => (ofInt 64 i, if any then Fl.inexact else 0)
  | .e4m3 =>
    match v with
    | .nan => (0x7F, Fl.nan)
    | .inf neg => ((if neg then 0x80 else 0) + 0x7E, Fl.satE4)
    | .fin neg m e s => toE4 md neg m e s
  | f =>
    match v with
    | .nan => (f.nanCode, Fl.nan)
    | .inf neg => ((if neg then 2 ^ (8 * f.size - 1) else 0) + f.infCode, 0)
    | .fin neg m e s => toIeee f md neg m e s

/-- Conversion between two formats in one rounding (R66, R67); the flags of R64 and R67. -/
def convert (src : Fmt) (srcScale : Int) (dst : Fmt) (dstScale : Int) (md : Mode) (code : Nat) : Nat × NFlags :=
  let (v, f1) := decodeVal src srcScale code
  let (c, f2) := encodeVal dst dstScale md v
  (c, f1 ||| f2)

/-- The sign-folded magnitudes of two finite values at their common exponent. -/
def alignPair (na : Bool) (ma : Nat) (ea : Int) (nb : Bool) (mb : Nat) (eb : Int) : Int × Int × Int :=
  let e := min ea eb
  let a : Int := ma * 2 ^ (ea - e).toNat
  let b : Int := mb * 2 ^ (eb - e).toNat
  ((if na then -a else a), (if nb then -b else b), e)

namespace Val

/-- Exact negation. -/
def neg : Val → Val
  | .nan => .nan
  | .inf n => .inf !n
  | .fin n m e s => .fin (!n) m e s

/-- Exact sum of two values without sticky remainders (R70); a zero sum of opposite signs is minus zero only in RDN. -/
def add (md : Mode) : Val → Val → Val
  | .nan, _ => .nan
  | _, .nan => .nan
  | .inf a, .inf b => if a = b then .inf a else .nan
  | .inf a, _ => .inf a
  | _, .inf b => .inf b
  | .fin na ma ea _, .fin nb mb eb _ =>
    if ma = 0 && mb = 0 then .fin (if na = nb then na else md == .rdn) 0 0 false
    else if ma = 0 then .fin nb mb eb false
    else if mb = 0 then .fin na ma ea false
    else
      let (a, b, e) := alignPair na ma ea nb mb eb
      let s := a + b
      if s = 0 then .fin (md == .rdn) 0 0 false else .ofInt s e

/-- Exact difference. -/
def sub (md : Mode) (a b : Val) : Val := add md a (neg b)

/-- Exact product (R70). -/
def mul : Val → Val → Val
  | .nan, _ => .nan
  | _, .nan => .nan
  | .inf a, .inf b => .inf (a != b)
  | .inf a, .fin b m _ _ => if m = 0 then .nan else .inf (a != b)
  | .fin a m _ _, .inf b => if m = 0 then .nan else .inf (a != b)
  | .fin na ma ea _, .fin nb mb eb _ => .fin (na != nb) (ma * mb) (ea + eb) false

/-- Quotient with 300 bits and a sticky remainder (R70); a finite nonzero value by zero is an exact infinity (R72). -/
def div : Val → Val → Val
  | .nan, _ => .nan
  | _, .nan => .nan
  | .inf _, .inf _ => .nan
  | .inf a, .fin b _ _ _ => .inf (a != b)
  | .fin a _ _ _, .inf b => .fin (a != b) 0 0 false
  | .fin na ma ea _, .fin nb mb eb _ =>
    if mb = 0 then (if ma = 0 then .nan else .inf (na != nb))
    else
      let n := ma * 2 ^ (300 + Nat.log2 mb)
      .fin (na != nb) (n / mb) (ea - eb - ((300 + Nat.log2 mb : Nat) : Int)) (n % mb != 0)

/-- Whether a value is NaN. -/
def isNan : Val → Bool
  | .nan => true
  | _ => false

/-- Strictly below, in the order of R70; minus zero equals plus zero (R69). False where either is NaN. -/
def lt : Val → Val → Bool
  | .nan, _ => false
  | _, .nan => false
  | .inf a, .inf b => a && !b
  | .inf a, _ => a
  | _, .inf b => !b
  | .fin na ma ea _, .fin nb mb eb _ =>
    let (a, b, _) := alignPair na ma ea nb mb eb
    a < b

/-- Equal in the order of R69 and R70. False where either is NaN. -/
def eqv (a b : Val) : Bool := !a.isNan && !b.isNan && !lt a b && !lt b a

/-- Below or equal. -/
def le (a b : Val) : Bool := lt a b || eqv a b

/-- Absolute value. -/
def abs : Val → Val
  | .nan => .nan
  | .inf _ => .inf false
  | .fin _ m e s => .fin false m e s

end Val

/-- The integer square root of `n`, bit by bit from `2^k` down. -/
def isqrtGo : Nat → Nat → Nat → Nat
  | 0, _, r => r
  | k + 1, n, r => let r' := r + 2 ^ k; isqrtGo k n (if r' * r' ≤ n then r' else r)

/-- The integer square root. -/
def isqrt (n : Nat) : Nat := isqrtGo (Nat.log2 n / 2 + 1) n 0

/-- Square root with at least 150 bits and a sticky remainder; NaN below zero, minus zero kept (R70). -/
def Val.sqrt : Val → Val
  | .nan => .nan
  | .inf n => if n then .nan else .inf false
  | .fin n m e _ =>
    if m = 0 then .fin n 0 0 false
    else if n then .nan
    else
      let (m', e') := if e % 2 = 0 then (m, e) else (2 * m, e - 1)
      let k := m' * 2 ^ 400
      let r := isqrt k
      .fin false r ((e' - 400) / 2) (r * r != k)

/-- A result rounded into a float format, NAN set when it is NaN (R66, R70, R72). -/
def rnd (f : Fmt) (md : Mode) (v : Val) : Nat × NFlags := encodeVal f 0 md v

/-- Float addition, rounded once. -/
def fAdd (f : Fmt) (md : Mode) (a b : Nat) : Nat × NFlags := rnd f md (.add md (floatVal f a) (floatVal f b))
/-- Float subtraction, rounded once. -/
def fSub (f : Fmt) (md : Mode) (a b : Nat) : Nat × NFlags := rnd f md (.sub md (floatVal f a) (floatVal f b))
/-- Float multiplication, rounded once. -/
def fMul (f : Fmt) (md : Mode) (a b : Nat) : Nat × NFlags := rnd f md (.mul (floatVal f a) (floatVal f b))
/-- Float division, rounded once. -/
def fDiv (f : Fmt) (md : Mode) (a b : Nat) : Nat × NFlags := rnd f md (.div (floatVal f a) (floatVal f b))
/-- Fused multiply-add, rounded once. -/
def fFma (f : Fmt) (md : Mode) (a b c : Nat) : Nat × NFlags :=
  rnd f md (.add md (.mul (floatVal f a) (floatVal f b)) (floatVal f c))
/-- Float square root, rounded once. -/
def fSqrt (f : Fmt) (md : Mode) (a : Nat) : Nat × NFlags := rnd f md (floatVal f a).sqrt

/-- Saturating integer addition (R59): never wraps; SAT_INT where it saturates. -/
def satAdd (w a b : Nat) : Nat × NFlags :=
  let s := sext w a + sext w b
  let hi : Int := (2 ^ (w - 1) - 1 : Nat)
  let lo : Int := -((2 ^ (w - 1) : Nat) : Int)
  if s > hi then (ofInt w hi, Fl.satInt) else if s < lo then (ofInt w lo, Fl.satInt) else (ofInt w s, 0)

/-- FX48 addition: modulo 2^64 (R63). -/
def fxAdd (a b : Nat) : Nat := (a + b) % 2 ^ 64

/-- An FX48 scale exponent is permitted when it is −16 to +62 (R61). -/
def scaleOk (f : Int) : Bool := -16 ≤ f && f ≤ 62

/-- Fixed-point bits of the exponential's arithmetic. -/
def expBits : Nat := 512

/-- The terms `x^n / n!` of the exponential series, in units of `2^-expBits`, from term `t` number `i`. -/
def expSeries : Nat → Nat → Nat → Nat → Nat
  | 0, _, _, _ => 0
  | k + 1, x, t, i => t + expSeries k x (t * x / 2 ^ expBits / i) (i + 1)

/-- The terms of `ln 2 = Σ 1 / (i 2^i)`, in units of `2^-expBits`. -/
def ln2Series : Nat → Nat → Nat
  | 0, _ => 0
  | k + 1, i => 2 ^ expBits / (i * 2 ^ i) + ln2Series k (i + 1)

/-- `exp x` for an exact finite `x`, as a magnitude and an exponent of at least 400 true bits; not exact unless
`x` is 0 (the exponential of a nonzero dyadic is irrational, so the remainder is never zero). From 256 in magnitude on,
where FP32 has long overflowed or gone to zero, any power of two beyond its range stands for it. -/
def expMag (neg : Bool) (m : Nat) (e : Int) : Nat × Int :=
  if (Nat.log2 m : Int) + e ≥ 8 then (1, if neg then -1000 else 1000)
  else
    let x : Nat := if (expBits : Int) + e ≥ 0 then m * 2 ^ ((expBits : Int) + e).toNat
                   else m / 2 ^ (-((expBits : Int) + e)).toNat
    let l := ln2Series 520 1
    let k := x / l
    let r := x % l
    if neg then
      let r' := l - r
      (expSeries 110 r' (2 ^ expBits) 1, -((k + 1 : Nat) : Int) - (expBits : Int))
    else (expSeries 110 r (2 ^ expBits) 1, (k : Int) - (expBits : Int))

/-- The exponential, correctly roundable (R217). A nonzero argument below 2^-300 in magnitude lies strictly
beside one. -/
def Val.exp : Val → Val
  | .nan => .nan
  | .inf n => if n then .fin false 0 0 false else .inf false
  | .fin n m e _ =>
    if m = 0 then .fin false 1 0 false
    else if (Nat.log2 m : Int) + e < -300 then
      if n then .fin false (2 ^ 300 - 1) (-300) true else .fin false (2 ^ 300) (-300) true
    else
      let (k, q) := expMag n m e
      .fin false k q true

/-- The logistic function `1 / (1 + exp (-x))`, correctly roundable (R217). -/
def Val.logistic : Val → Val
  | .nan => .nan
  | .inf n => if n then .fin false 0 0 false else .fin false 1 0 false
  | .fin n m e _ =>
    if m = 0 then .fin false 1 (-1) false
    else if (Nat.log2 m : Int) + e < -300 then
      if n then .fin false (2 ^ 300 - 1) (-301) true else .fin false (2 ^ 300) (-301) true
    else if (Nat.log2 m : Int) + e ≥ 8 then
      if n then .fin false 1 (-1000) true else .fin false (2 ^ 600 - 1) (-600) true
    else
      -- with t = exp (-|x|): 1 / (1 + t) for x > 0, t / (1 + t) for x < 0
      let (k, q) := expMag true m e
      let w := (-q).toNat
      let den := 2 ^ w + k
      let num := if n then k else 2 ^ w
      .fin false (num * 2 ^ (400 + w) / den) (-((400 + w : Nat) : Int)) true

/-- Unsigned half-range of an FX48 slot in range (R60). -/
def fxInRange (slot : Nat) : Bool :=
  let v := sext 64 slot
  decide (v ≥ -(2 ^ 47 : Int)) && decide (v ≤ 2 ^ 47 - 1)

end Sys2Proof.Machine
end

