-- ==== Sys2Proof/Machine/Tbl.lean ====
section
/-! DEFINITION. Sparse tables: a list of (key, value) pairs in one canonical form, keys strictly rising and no
entry equal to what an unlisted key reads as. Memory is the table of bytes whose default is zero. -/
namespace Sys2Proof.Machine

/-- A sparse table by number. -/
abbrev Tbl (α : Type) := List (Nat × α)

namespace Tbl

/-- The entry of a key, or the default. -/
def get {α : Type} (d : α) (k : Nat) : Tbl α → α
  | [] => d
  | (k', v) :: t => if k = k' then v else get d k t

/-- The table with a key's entry removed. -/
def del {α : Type} (k : Nat) : Tbl α → Tbl α
  | [] => []
  | (k', v) :: t => if k = k' then del k t else (k', v) :: del k t

/-- The table with a key's entry put in, in key order. -/
def ins {α : Type} (k : Nat) (v : α) : Tbl α → Tbl α
  | [] => [(k, v)]
  | (k', v') :: t => if k = k' then (k, v) :: t else if k < k' then (k, v) :: (k', v') :: t else (k', v') :: ins k v t

/-- The table with a key's entry written: writing the default removes the entry. -/
def set {α : Type} [DecidableEq α] (d : α) (k : Nat) (v : α) (t : Tbl α) : Tbl α :=
  if v = d then del k t else ins k v t

/-- The table with a key's entry changed by a function. -/
def upd {α : Type} [DecidableEq α] (d : α) (k : Nat) (f : α → α) (t : Tbl α) : Tbl α :=
  set d k (f (get d k t)) t

/-- The canonical form above a lower bound: keys rising and not below it, no entry equal to the default. -/
def wfFrom {α : Type} [DecidableEq α] (d : α) : Nat → Tbl α → Bool
  | _, [] => true
  | n, (k, v) :: t => n ≤ k && v != d && wfFrom d (k + 1) t

/-- The canonical form. -/
def wf {α : Type} [DecidableEq α] (d : α) (t : Tbl α) : Bool := wfFrom d 0 t

/-- Reading `n` consecutive keys from `k` upwards. -/
def getRange {α : Type} (d : α) (t : Tbl α) (k : Nat) : Nat → List α
  | 0 => []
  | n + 1 => get d k t :: getRange d t (k + 1) n

/-- Writing consecutive keys from `k` upwards. -/
def setRange {α : Type} [DecidableEq α] (d : α) : Nat → List α → Tbl α → Tbl α
  | _, [], t => t
  | k, v :: vs, t => setRange d (k + 1) vs (set d k v t)

end Tbl

end Sys2Proof.Machine
end

