-- ==== Sys2Proof/Machine/Images.lean ====
section
/-! DEFINITION. Layout and grove images: their records, node and leaf words, check codes, and the checks a load
makes (R111 to R134, R141, R142). -/
namespace Sys2Proof.Machine

/-- The status codes the image rules give (R74, R108, R146, R239, R27, R475). -/
def stLayoutInvalid : Status := 0x1010
/-- GROVE_INVALID. -/
def stGroveInvalid : Status := 0x1011
/-- NODE_CRC. -/
def stNodeCrc : Status := 0x1012
/-- STAGE_FEATURES. -/
def stStageFeatures : Status := 0x1013
/-- GROVE_CAPACITY. -/
def stGroveCapacity : Status := 0x1014
/-- SIGNATURE_INVALID. -/
def stSignatureInvalid : Status := 0x1015
/-- VERSION_CONFLICT. -/
def stVersionConflict : Status := 0x1016
/-- GROVE_PLOT_MISMATCH. -/
def stGrovePlotMismatch : Status := 0x1017
/-- FX_SCALE_INVALID. -/
def stFxScaleInvalid : Status := 0x1020
/-- FX_SCALE_MISMATCH. -/
def stFxScaleMismatch : Status := 0x1021
/-- SIEVE_TABLE_INVALID. -/
def stSieveTableInvalid : Status := 0x1030
/-- FINISH_INVALID. -/
def stFinishInvalid : Status := 0x1050
/-- CHAIN_SUM_FORMAT. -/
def stChainSumFormat : Status := 0x10B0

/-- The first status whose condition holds, of checks in a fixed order. -/
def firstFail : List (Bool × Status) → Option Status
  | [] => none
  | (b, s) :: t => if b then some s else firstFail t

/-- The CRC-8 step of R116 for one entry bit. -/
def nodeCrcStep (e : Nat) (c j : Nat) : Nat :=
  let fb := c / 128 % 2 != e / 2 ^ j % 2
  let c' := c * 2 % 256
  if fb then c' ^^^ 0x07 else c'

/-- The CRC field a node entry must hold (R116). -/
def nodeCrc (e : Nat) : Nat :=
  ((tab 56 fun i => 63 - i).foldl (nodeCrcStep e) 0) ^^^ 0xA5

/-- The CRC-16 step of R119 for one word bit. -/
def sigStep (w : Nat) (c j : Nat) : Nat :=
  let fb := c / 32768 % 2 != w / 2 ^ j % 2
  let c' := c * 2 % 65536
  if fb then c' ^^^ 0x1021 else c'

/-- The path signature of slot `t` reached by `d` comparisons with path bits `p` (R119). -/
def pathSignature (t d p : Nat) : Nat :=
  let w := (t + (2 ^ d + p) * 4096) % 2 ^ 32
  ((tab 32 fun i => 31 - i).foldl (sigStep w) 0) ^^^ 0xFFFF

/-- A node entry's fields (R114). -/
structure Node where
  feature : Nat
  threshold : Nat
  left : Nat
  terminal : Bool
  invert : Bool
  pad : Bool
  reserved : Nat
  crc : Nat
deriving DecidableEq, Repr

/-- The fields of a 64-bit node entry (R114). -/
def Node.ofWord (e : Nat) : Node :=
  { feature := bits e 52 12, threshold := bits e 36 16, left := bits e 16 20, terminal := bit e 8,
    invert := bit e 9, pad := bit e 10, reserved := bits e 11 5, crc := bits e 0 8 }

/-- SIGNATURE of a leaf record (R117). -/
def leafSig (l : Nat) : Nat := bits l 48 16
/-- TAG of a leaf record (R117). -/
def leafTag (l : Nat) : Nat := bits l 32 16
/-- VALUE of a leaf record (R117). -/
def leafValue (l : Nat) : Nat := bits l 0 32

/-- Segments and stages per segment of a fold mode (R112). -/
def foldGS : Nat → Nat × Nat
  | 0 => (1, 16)
  | 1 => (2, 8)
  | _ => (4, 4)

/-- One slice of a grove: its 16 stage tables, leaf section, bound pairs and base keys (R111 to R126). -/
structure Slice where
  slots : Nat
  stages : List (List Nat)
  leaves : List Nat
  bounds : List (Nat × Nat)
  keybase : List Nat
deriving DecidableEq, Repr

/-- A grove image's header and grove-wide sections, as a load confirms them (R123, R125 to R127). -/
structure GroveInfo where
  groveId : Nat
  version : Nat
  treeCount : Nat
  firstSlice : Nat
  sliceCount : Nat
  plotSlices : Nat
  fold : Nat
  outputs : Nat
  valueFmt : Nat
  fxScale : Int
  prune : Bool
  leafToId : Bool
  signed : Bool
  threshold : Nat
  sense : Nat
  base : Option (List Nat)
  sieve : Bytes
  finish : Bytes
deriving DecidableEq, Repr

/-- A confirmed grove: header, grove-wide sections and slices, and how many bytes its image copy takes. -/
structure Grove where
  info : GroveInfo
  slices : List Slice
  imageBytes : Nat
deriving DecidableEq, Repr

/-- The leaf stride (R118). -/
def strideOf (valueFmt outputs : Nat) : Nat := if valueFmt ≤ 1 then outputs else (outputs + 1) / 2

/-- The rounds of a slice of `t` slots (R148). -/
def roundsOf (fold t : Nat) : Nat := let g := (foldGS fold).1; (t + 64 * g - 1) / (64 * g)

/-- One directory entry (R124). -/
structure DirEntry where
  type : Nat
  slice : Nat
  aux : Nat
  reserved : Nat
  offset : Nat
  length : Nat
deriving DecidableEq, Repr

/-- The directory entry at index `i` of an image (R124). -/
def dirEntry (img : Bytes) (i : Nat) : DirEntry :=
  let o := 0x40 + 16 * i
  { type := field img o 2, slice := field img (o + 2) 2, aux := field img (o + 4) 2,
    reserved := field img (o + 6) 2, offset := field img (o + 8) 4, length := field img (o + 12) 4 }

/-- Whether a section type is per slice (R125). -/
def perSlice (t : Nat) : Bool := 1 ≤ t && t ≤ 4

/-- Whether a section type exists (R125). -/
def knownSection (t : Nat) : Bool := perSlice t || (0x10 ≤ t && t ≤ 0x13) || t = 0xF0

/-- The entry size whose multiple a section's LENGTH is (R125). -/
def sectionUnit (t : Nat) : Nat :=
  match t with
  | 1 => 8 | 2 => 8 | 3 => 16 | 4 => 8 | 0x12 => 8 | _ => 1

/-- The bytes a sieve table of `f` features and `b` boundaries takes (R83). -/
def sieveLength (f b : Nat) : Nat := alignUp (1024 + 24 * f + 4 * b) 4096

/-- Whether all bytes from `o` to `e` are zero. -/
def zeroFrom (img : Bytes) (o e : Nat) : Bool := ((img.drop o).take (e - o)).all (· == 0#8)

/-- The directory entries lie as R122 requires from byte `pos` on: aligned, rising, apart, inside, gaps zero. -/
def dirLaidOut (img : Bytes) : Nat → List DirEntry → Bool
  | pos, [] => zeroFrom img pos img.length
  | pos, d :: ds =>
    d.offset % 64 == 0 && pos ≤ d.offset && d.length != 0 && d.offset + d.length ≤ img.length &&
    zeroFrom img pos d.offset && dirLaidOut img (d.offset + d.length) ds

/-- The bytes of the first section of a type, slice and stage; none when the image has no such section. -/
def sectionOf (img : Bytes) (dir : List DirEntry) (t s a : Nat) : Option Bytes :=
  (dir.find? fun d => d.type = t && d.slice = s && d.aux = a).map fun d => slice img d.offset d.length

/-- The 64-bit words of a section. -/
def wordsOf (b : Bytes) : List Nat := tab (b.length / 8) fun i => field b (8 * i) 8

/-- The words of an optional section; none is empty. -/
def wordsOpt (b : Option Bytes) : List Nat := wordsOf (b.getD [])

/-- The directory of an image. -/
def directory (img : Bytes) : List DirEntry := tab (field img 6 2) (dirEntry img)

/-- The slice with number `sn`, read from its sections. -/
def sliceOf (img : Bytes) (dir : List DirEntry) (fold sn : Nat) : Slice :=
  let stages := tab 16 fun k => wordsOpt (sectionOf img dir 1 sn k)
  let bw := wordsOpt (sectionOf img dir 3 sn 0)
  { slots := (foldGS fold).1 * (at' [] stages 0).length
    stages := stages
    leaves := wordsOpt (sectionOf img dir 2 sn 0)
    bounds := tab (bw.length / 2) fun i => (at' 0 bw (2 * i), at' 0 bw (2 * i + 1))
    keybase := wordsOpt (sectionOf img dir 4 sn 0) }

/-- The grove an image spells, whether or not its checks pass (R123 to R127). -/
def parseGrove (img : Bytes) : Grove :=
  let dir := directory img
  let fl := field img 0x26 2
  let pr := (sectionOf img dir 0x13 0xFFFF 0).getD []
  { info :=
      { groveId := field img 0x10 4, version := field img 0x14 4, treeCount := field img 0x18 4
        firstSlice := field img 0x1C 2, sliceCount := field img 0x1E 2, plotSlices := field img 0x20 2
        fold := field img 0x22 1, outputs := field img 0x23 1, valueFmt := field img 0x24 1
        fxScale := sext 8 (field img 0x25 1), prune := bit fl 0, leafToId := bit fl 1, signed := bit fl 2
        threshold := field pr 0 8, sense := field pr 8 1
        base := (sectionOf img dir 0x12 0xFFFF 0).map wordsOf
        sieve := (sectionOf img dir 0x10 0xFFFF 0).getD []
        finish := (sectionOf img dir 0x11 0xFFFF 0).getD [] }
    slices := tab (field img 0x1E 2) fun j => sliceOf img dir (field img 0x22 1) (field img 0x1C 2 + j)
    imageBytes := img.length }

/-- A 64-byte-header CRC: CRC-32C of the bytes with the four bytes at `o` taken as zero. -/
def crcZeroed (b : Bytes) (o : Nat) : Nat := crc32c (overlay b o [0, 0, 0, 0])

/-- The header rules of R123 and R126 that need no section. -/
def headerOk (img : Bytes) (bytes : Nat) : Bool :=
  let vf := field img 0x24 1
  let k := field img 0x23 1
  let fl := field img 0x26 2
  field img 0 4 == 0x5652474C && field img 4 2 == 1 && field img 8 4 == bytes && bytes ≤ 2 ^ 29 &&
  img.length == bytes && 64 ≤ bytes &&
  field img 0x14 4 != 0 && 1 ≤ field img 6 2 && field img 6 2 ≤ 8192 &&
  1 ≤ field img 0x1E 2 && field img 0x1E 2 ≤ 256 && field img 0x22 1 ≤ 2 && 1 ≤ k && k ≤ 64 && vf ≤ 3 &&
  (vf == 1 || field img 0x25 1 == 0) && fl < 8 && zeroFrom img 0x28 0x40 && (!bit fl 0 || (k == 1 && vf ≤ 1))

/-- The directory rules of R122, R124 and R125. -/
def directoryOk (img : Bytes) : Bool :=
  let dir := directory img
  let first := field img 0x1C 2
  let cnt := field img 0x1E 2
  0x40 + 16 * dir.length ≤ img.length &&
  dir.all (fun d =>
    d.reserved == 0 && knownSection d.type && d.length % sectionUnit d.type == 0 &&
    (if perSlice d.type then first ≤ d.slice && d.slice < first + cnt else d.slice == 0xFFFF) &&
    (if d.type = 1 then d.aux ≤ 15 else d.aux == 0)) &&
  dirLaidOut img (0x40 + 16 * dir.length) dir &&
  decide ((dir.map fun d => (d.type, d.slice, d.aux)).Nodup)

/-- The grove-wide sections: present, of the lengths of R125, and zero where R126 and R127 say zero. -/
def wideSectionsOk (img : Bytes) : Bool :=
  let dir := directory img
  let sec (t : Nat) := sectionOf img dir t 0xFFFF 0
  let fl := field img 0x26 2
  let k := field img 0x23 1
  let slotOk (w : Nat) : Bool := field img 0x24 1 == 1 || w < 2 ^ 32
  (match sec 0x10 with | none => false | some b => b.length == sieveLength (field b 2 2) (field b 4 4)) &&
  (match sec 0x11 with | none => false | some b => b.length == 768) &&
  (match sec 0x12 with | none => true | some b => b.length == 8 * k && (wordsOf b).all slotOk) &&
  (match sec 0x13 with
   | none => !bit fl 0
   | some b => bit fl 0 && b.length == 32 && field b 8 1 ≤ 1 && zeroFrom b 9 32 && slotOk (field b 0 8)) &&
  (match sec 0xF0 with
   | none => !bit fl 2
   | some b => bit fl 2 && b.length == 128 &&
       (dir.find? (fun d => d.type = 0xF0)).any (fun d => d.offset + d.length = img.length))

/-- IMAGE_CRC over every byte outside the SIGNATURE section, the field taken as zero (R123). -/
def imageCrcOk (img : Bytes) : Bool :=
  let dir := directory img
  let e := match dir.find? (fun d => d.type = 0xF0) with | some d => d.offset | none => img.length
  crcZeroed (img.take e) 0x0C == field img 0x0C 4

/-- The rules of R114, R115 and R141 for one entry of stage `st`. -/
def nodeOk (fold stride nfeat nextLen leafLen st e : Nat) : Bool :=
  let n := Node.ofWord e
  let s := (foldGS fold).2
  let last := st % s + 1 == s
  n.reserved == 0 &&
  (!n.pad || (n.terminal && !n.invert && n.feature == 0 && n.threshold == 0)) &&
  (n.pad || n.feature < nfeat) &&
  (!last || n.terminal) &&
  (if n.terminal then n.left + (if n.pad then stride else 2 * stride) ≤ leafLen else n.left + 2 ≤ nextLen)

/-- The upper half of a leaf's last record is zero when K is odd in a pair format (R118), for the leaves the
slice's entries name. -/
def leafPadOk (valueFmt outputs stride : Nat) (sl : Slice) : Bool :=
  valueFmt ≤ 1 || outputs % 2 == 0 ||
  sl.stages.all fun st => st.all fun e =>
    let n := Node.ofWord e
    let okAt (j : Nat) : Bool := leafValue (at' 0 sl.leaves (j + stride - 1)) < 65536
    !n.terminal || (okAt n.left && (n.pad || okAt (n.left + stride)))

/-- The per-slice rules of R112, R118, R125, R126 and the node rules of R114 and R115. -/
def sliceOk (g : GroveInfo) (nfeat : Nat) (hasLeaf hasBound hasKey : Bool) (sl : Slice) : Bool :=
  let (gs, s) := foldGS g.fold
  let stride := strideOf g.valueFmt g.outputs
  let len (k : Nat) : Nat := (at' [] sl.stages k).length
  (tab gs fun i => len (i * s)).all (fun n => n == len 0) &&
  hasLeaf == decide (0 < sl.slots) &&
  hasBound == g.prune && (!g.prune || sl.bounds.length == roundsOf g.fold sl.slots + 1) &&
  (g.valueFmt == 1 || sl.bounds.all fun p => p.1 < 2 ^ 32 && p.2 < 2 ^ 32) &&
  hasKey == (g.leafToId && decide (0 < sl.slots)) && (!hasKey || sl.keybase.length == sl.slots) &&
  ((tab 16 id).all fun k => (at' [] sl.stages k).all
    fun e => nodeOk g.fold stride nfeat (len (k + 1)) sl.leaves.length k e) &&
  leafPadOk g.valueFmt g.outputs stride sl

/-- The grove image rules of R141 that give GROVE_INVALID, the path walk of R142 apart. -/
def groveRulesOk (img : Bytes) (bytes : Nat) : Bool :=
  let g := parseGrove img
  let dir := directory img
  let has (t s : Nat) : Bool := dir.any fun d => d.type = t && d.slice = s
  headerOk img bytes && directoryOk img && wideSectionsOk img && imageCrcOk img &&
  ((tab g.slices.length id).all fun j =>
    let sn := g.info.firstSlice + j
    sliceOk g.info (field g.info.sieve 2 2) (has 2 sn) (has 3 sn) (has 4 sn)
      (at' ⟨0, [], [], [], []⟩ g.slices j))

/-- The capacity limits of R120. -/
def capacityOk (fold : Nat) (sl : Slice) : Bool :=
  sl.slots ≤ 4096 && (sl.stages.map List.length).sum ≤ 65536 && sl.leaves.length ≤ 131072 &&
  sl.bounds.length ≤ roundsOf fold sl.slots + 1 && sl.keybase.length ≤ sl.slots

/-- The distinct features of a list of entries, PAD entries apart. -/
def featuresOf (es : List Nat) : List Nat :=
  ((es.map Node.ofWord).filter (fun n => !n.pad)).map Node.feature |>.eraseDups

/-- The feature map of the bed replicas that serve stage `k` (R121): the stage's own entries under FOLD 0, those
of its whole segment under FOLD 1 and 2. -/
def featureMap (fold : Nat) (sl : Slice) (k : Nat) : List Nat :=
  if fold = 0 then featuresOf (at' [] sl.stages k)
  else
    let s := (foldGS fold).2
    featuresOf ((tab s fun i => at' [] sl.stages (k / s * s + i)).flatten)

/-- The feature limit of R121. -/
def featuresOk (fold : Nat) (sl : Slice) : Bool := (tab 16 id).all fun k => (featureMap fold sl k).length ≤ 512

/-- Every node entry's CRC (R141 step 8). -/
def nodeCrcsOk (sl : Slice) : Bool := sl.stages.all fun st => st.all fun e => nodeCrc e == bits e 0 8

/-- The grove's fit to its plot (R141 step 5): the plot's FOLD, whole length, first position, core count and
sum format. -/
def fitsPlot (g : GroveInfo) (fold plotCores firstPos coreCount sumFmt : Nat) : Bool :=
  g.fold == fold && g.plotSlices == plotCores && g.firstSlice == firstPos && g.sliceCount == coreCount &&
  (if g.valueFmt = 1 then sumFmt == 1 else sumFmt == 0)

/-- What the path walk has reached: node entries as (stage, index), leaf records, and whether it still holds. -/
structure Walk where
  nodes : List (Nat × Nat)
  leaves : List Nat
  ok : Bool
deriving DecidableEq, Repr

/-- The walk's check of one leaf (R142). -/
def walkLeaf (sl : Slice) (stride t d p j : Nat) (w : Walk) : Walk :=
  let recs := tab stride fun i => j + i
  let good := recs.all fun r =>
    let l := at' 0 sl.leaves r
    leafSig l == pathSignature t d p && leafTag l == leafTag (at' 0 sl.leaves j) && !w.leaves.contains r
  { w with leaves := recs ++ w.leaves, ok := w.ok && good }

/-- The walk below entry `i` of stage `k`, with `fuel` stages left in the segment (R142). -/
def walkNode (sl : Slice) (stride t : Nat) : Nat → Nat → Nat → Nat → Nat → Walk → Walk
  | 0, _, _, _, _, w => { w with ok := false }
  | fuel + 1, k, i, d, p, w =>
    let w := { w with nodes := (k, i) :: w.nodes, ok := w.ok && !w.nodes.contains (k, i) }
    let n := Node.ofWord (at' 0 (at' [] sl.stages k) i)
    if n.pad then walkLeaf sl stride t d p n.left w
    else if n.terminal then
      walkLeaf sl stride t (d + 1) (p + 2 ^ d) (n.left + stride) (walkLeaf sl stride t (d + 1) p n.left w)
    else
      walkNode sl stride t fuel (k + 1) (n.left + 1) (d + 1) (p + 2 ^ d)
        (walkNode sl stride t fuel (k + 1) n.left (d + 1) p w)

/-- The path walk of R142 over every slot of a slice. -/
def walkOk (fold stride : Nat) (sl : Slice) : Bool :=
  let (g, s) := foldGS fold
  ((List.range sl.slots).foldl (fun w t => walkNode sl stride t s (t % g * s) (t / g) 0 0 w) ⟨[], [], true⟩).ok

/-- One core entry of a layout (R132). -/
structure CoreEntry where
  core : Nat
  head : Bool
  tail : Bool
  headIndex : Nat
  route : Nat
  roleReserved : Nat
  reserved : Nat
deriving DecidableEq, Repr

/-- One plot record of a layout with its core entries in chain order (R131, R132). -/
structure PlotRec where
  plotId : Nat
  coreCount : Nat
  firstEntry : Nat
  fold : Nat
  chainMode : Nat
  sumFmt : Nat
  partner : Nat
  prevDevice : Nat
  nextDevice : Nat
  firstPosition : Nat
  plotCores : Nat
  entries : List CoreEntry
deriving DecidableEq, Repr

/-- A partner record: the partner's DEVICE_ID and MIRROR_BASE (R133). -/
structure Partner where
  deviceId : Nat
  mirrorBase : Nat
deriving DecidableEq, Repr

/-- A layout in force, or the one an image spells (R130). -/
structure Layout where
  hash : Nat
  deviceId : Nat
  plots : List PlotRec
  partners : List Partner
deriving DecidableEq, Repr

/-- The core entry at an index of a layout image. -/
def coreEntryOf (img : Bytes) (o : Nat) : CoreEntry :=
  { core := field img o 2, head := bit (field img (o + 2) 1) 0, tail := bit (field img (o + 2) 1) 1,
    headIndex := field img (o + 3) 1, route := field img (o + 4) 1,
    roleReserved := bits (field img (o + 2) 1) 2 6, reserved := field img (o + 5) 3 }

/-- The layout an image spells, whether or not its checks pass (R130 to R133). -/
def parseLayout (img : Bytes) : Layout :=
  let np := field img 6 2
  let ne := field img 0x12 2
  let eo := 64 + 32 * np
  { hash := field img 0x0C 4
    deviceId := field img 0x10 2
    plots := tab np fun i =>
      let o := 64 + 32 * i
      let cc := field img (o + 2) 2
      let fe := field img (o + 4) 2
      { plotId := field img o 2, coreCount := cc, firstEntry := fe, fold := field img (o + 6) 1,
        chainMode := field img (o + 7) 1, sumFmt := field img (o + 8) 1, partner := field img (o + 9) 1,
        prevDevice := field img (o + 0x0A) 2, nextDevice := field img (o + 0x0C) 2,
        firstPosition := field img (o + 0x0E) 2, plotCores := field img (o + 0x10) 2,
        entries := tab (min cc ne) fun j => coreEntryOf img (eo + 8 * (fe + j)) }
    partners := tab (field img 0x14 1) fun i =>
      let o := eo + 8 * ne + 16 * i
      { deviceId := field img o 2, mirrorBase := field img (o + 8) 8 } }

/-- The layout rules of one plot record (R134). -/
def plotRecOk (dev npart nentries : Nat) (p : PlotRec) : Bool :=
  let es := p.entries
  let heads := es.filter (·.head)
  let h := heads.length
  let starts := p.prevDevice == 0xFFFF
  let ends := p.nextDevice == 0xFFFF
  p.plotId ≤ 255 && 1 ≤ p.coreCount && p.coreCount ≤ 256 && p.firstEntry + p.coreCount ≤ nentries &&
  p.fold ≤ 2 && p.chainMode ≤ 1 && p.sumFmt ≤ 1 &&
  ((tab es.length id).all fun i =>
    let e := at' ⟨0, false, false, 0, 0, 0, 0⟩ es i
    e.route == 0 || (i + 1 < es.length && (at' ⟨0, false, false, 0, 0, 0, 0⟩ es (i + 1)).core / 64 == e.core / 64)) &&
  (if starts then p.firstPosition == 0 && 1 ≤ h else h == 0) && h ≤ 64 &&
  ((tab h id).all fun i => (heads.filter fun e => e.headIndex == i).length == 1) &&
  (if ends then (es.getLast?.any (·.tail)) && (es.filter (·.tail)).length == 1 else !es.any (·.tail)) &&
  p.firstPosition + p.coreCount ≤ p.plotCores &&
  p.prevDevice != dev && p.nextDevice != dev && (p.partner == 0xFF || p.partner < npart)

/-- The whole-image rules of R134; `fenced` says which cores are fenced. -/
def layoutRulesOk (img : Bytes) (bytes : Nat) (fenced : Nat → Bool) : Bool :=
  let np := field img 6 2
  let ne := field img 0x12 2
  let npt := field img 0x14 1
  let l := parseLayout img
  let es := tab ne fun j => coreEntryOf img (64 + 32 * np + 8 * j)
  let cores := es.map (·.core)
  field img 0 4 == 0x59414C4C && field img 4 2 == 1 && img.length == bytes && field img 8 4 == bytes &&
  bytes == 64 + 32 * np + 8 * ne + 16 * npt && np ≤ 256 && ne ≤ 256 && npt ≤ 8 && l.deviceId ≤ 4095 &&
  crcZeroed img 0x0C == field img 0x0C 4 && zeroFrom img 0x15 0x40 &&
  ((tab np id).all fun i => zeroFrom img (64 + 32 * i + 0x12) (64 + 32 * i + 32)) &&
  ((tab npt id).all fun i => let o := 64 + 32 * np + 8 * ne + 16 * i; zeroFrom img (o + 2) (o + 8)) &&
  decide ((l.plots.map (·.plotId)).Nodup) && decide (cores.Nodup) && !cores.any fenced &&
  es.all (fun e => e.core ≤ 255 && e.route ≤ 1 && e.roleReserved == 0 && e.reserved == 0 &&
    (e.head || e.headIndex == 0)) &&
  l.plots.all (plotRecOk l.deviceId npt ne) &&
  ((tab np id).all fun i => (tab np id).all fun j =>
    i == j || (match l.plots[i]?, l.plots[j]? with
      | some p, some q => !overlaps p.firstEntry p.coreCount q.firstEntry q.coreCount
      | _, _ => true)) &&
  l.partners.all fun q => q.deviceId != l.deviceId

/-- The layout checks of R134 in order: LAYOUT_INVALID, then CHAIN_SUM_FORMAT. -/
def layoutCheck (img : Bytes) (bytes : Nat) (fenced : Nat → Bool) : Option Status :=
  firstFail [(!layoutRulesOk img bytes fenced, stLayoutInvalid),
    ((parseLayout img).plots.any (fun p => (p.prevDevice != 0xFFFF || p.nextDevice != 0xFFFF) && p.sumFmt == 0),
      stChainSumFormat)]

end Sys2Proof.Machine
end

