-- ==== Sys2Proof/Machine/FinishPass.lean ====
section
/-! DEFINITION. The finisher's configuration block and its pass: working value, affine map, link functions,
element-wise combination, conversion, decision and winner (R214 to R225). -/
namespace Sys2Proof.Machine

/-- A configuration block's fields (R222) with the slopes the FEC computes at load (R218). -/
structure FinBlock where
  mode : Nat
  link : Nat
  scale : Nat
  bias : Nat
  outFmt : Nat
  outScale : Int
  round : Nat
  winner : Bool
  ewOp : Nat
  opndFmt : Nat
  opndScale : Int
  knots : List (Nat × Nat)
  slopes : List Nat
deriving DecidableEq, Repr

/-- The element format codes shared by OUT_FMT and SRC_FMT (R189, R222); 8, RAW, is no format. -/
def elemFmt (n : Nat) : Fmt :=
  match n with
  | 0 => .fp32 | 1 => .bf16 | 2 => .fp16 | 3 => .e4m3 | 4 => .int32 | 5 => .int16 | 6 => .int8 | _ => .fx48

/-- The width in bytes of an OUT_FMT (R226). -/
def outWidth (n : Nat) : Nat := if n = 8 then 8 else (elemFmt n).size

/-- The slopes M_k (R218 step 3). -/
def slopesOf : List (Nat × Nat) → List Nat
  | (x0, y0) :: (x1, y1) :: t =>
    (fDiv .fp32 .rne (fSub .fp32 .rne y1 y0).1 (fSub .fp32 .rne x1 x0).1).1 :: slopesOf ((x1, y1) :: t)
  | _ => []

/-- The block 768 bytes spell (R222). -/
def parseFin (b : Bytes) : FinBlock :=
  let ks := tab (field b 0x12 1) fun k => (field b (0x80 + 8 * k) 4, field b (0x84 + 8 * k) 4)
  { mode := field b 2 1, link := field b 3 1, scale := field b 4 4, bias := field b 8 4, outFmt := field b 0xC 1,
    outScale := sext 8 (field b 0xD 1), round := bits (field b 0xE 1) 0 2, winner := bit (field b 0xE 1) 2,
    ewOp := field b 0xF 1, opndFmt := field b 0x10 1, opndScale := sext 8 (field b 0x11 1),
    knots := ks, slopes := slopesOf ks }

/-- The rules of R223 that give FINISH_INVALID, for a pass of `k` outputs; `tile` says the block is for an
ACC_FINISH. -/
def finRulesOk (b : Bytes) (k : Nat) (tile : Bool) : Bool :=
  let f := parseFin b
  let ew := f.mode == 1
  field b 0 2 == 1 && b.length == 768 && crcZeroed b 0x14 == field b 0x14 4 &&
  f.mode ≤ 1 && f.link ≤ 4 && (!ew || f.link == 0) && (!ew || (f.scale == 0 && f.bias == 0)) &&
  f.outFmt ≤ 8 && (f.outFmt == 7 || field b 0xD 1 == 0) && field b 0xE 1 < 8 &&
  f.ewOp ≤ 1 && (ew || f.ewOp == 0) && f.opndFmt ≤ 7 && (ew || f.opndFmt == 0) &&
  ((ew && f.opndFmt == 7) || field b 0x11 1 == 0) &&
  (if f.link = 4 then 2 ≤ field b 0x12 1 && field b 0x12 1 ≤ 65 else field b 0x12 1 == 0) &&
  field b 0x13 1 == 0 && zeroFrom b 0x18 0x80 && zeroFrom b (0x80 + 8 * f.knots.length) 0x288 && zeroFrom b 0x288 768 &&
  ((tab (f.knots.length - 1) id).all fun i =>
    Val.lt (floatVal .fp32 (at' (0, 0) f.knots i).1) (floatVal .fp32 (at' (0, 0) f.knots (i + 1)).1)) &&
  f.knots.all (fun p => !(floatVal .fp32 p.1).isNan && !(floatVal .fp32 p.2).isNan) &&
  (f.link != 2 || (2 ≤ k && k ≤ 64)) &&
  (f.outFmt != 8 || (f.mode == 0 && f.link == 0 && f.scale == 0x3F800000 && f.bias == 0 && !tile))

/-- The check of a block (R223): its rules, then its scale fields. -/
def finCheck (b : Bytes) (k : Nat) (tile : Bool) : Option Status :=
  let f := parseFin b
  firstFail [(!finRulesOk b k tile, stFinishInvalid), (!scaleOk f.outScale || !scaleOk f.opndScale, stFxScaleInvalid)]

/-- An input of a pass: an element of a tile, or a running-sum slot, with its format and FX48 scale. -/
structure FinIn where
  fmt : Fmt
  scale : Int
  code : Nat
deriving DecidableEq, Repr

/-- The FP32 working value s_j (R215). -/
def working (x : FinIn) : Nat × NFlags := convert x.fmt x.scale .fp32 0 .rne x.code

/-- z_j of AFFINE_LINK (R216): two roundings. -/
def affine (f : FinBlock) (s : Nat) : Nat × NFlags :=
  let (m, f1) := fMul .fp32 .rne s f.scale
  let (z, f2) := fAdd .fp32 .rne m f.bias
  (z, f1 ||| f2)

/-- The index k with X_k ≤ z < X_(k+1) (R218). -/
def segmentOf (z : Val) : List (Nat × Nat) → Nat
  | _ :: (x1, y1) :: t => if Val.lt z (floatVal .fp32 x1) then 0 else segmentOf z ((x1, y1) :: t) + 1
  | _ => 0

/-- CALIBRATE (R218). -/
def calibrate (f : FinBlock) (z : Nat) : Nat × NFlags :=
  let v := floatVal .fp32 z
  let n := f.knots.length
  if v.isNan then (0x7FC00000, Fl.nan)
  else if Val.le v (floatVal .fp32 (at' (0, 0) f.knots 0).1) then ((at' (0, 0) f.knots 0).2, 0)
  else if Val.le (floatVal .fp32 (at' (0, 0) f.knots (n - 1)).1) v then ((at' (0, 0) f.knots (n - 1)).2, 0)
  else
    let k := segmentOf v f.knots
    let (x, y) := at' (0, 0) f.knots k
    let (d, f1) := fSub .fp32 .rne z x
    let (p, f2) := fMul .fp32 .rne d (at' 0 f.slopes k)
    let (r, f3) := fAdd .fp32 .rne y p
    (r, f1 ||| f2 ||| f3)

/-- The largest of FP32 codes, by R69 and R70. -/
def maxCode : List Nat → Nat
  | [] => 0
  | [a] => a
  | a :: t => let b := maxCode t; if Val.lt (floatVal .fp32 a) (floatVal .fp32 b) then b else a

/-- The flags of a list of results joined. -/
def orFlags (l : List (Nat × NFlags)) : NFlags := l.foldl (fun a p => a ||| p.2) 0

/-- SOFTMAX (R219). -/
def softmax (zs : List Nat) : List Nat × NFlags :=
  if zs.any (fun z => (floatVal .fp32 z).isNan) then (zs.map fun _ => 0x7FC00000, Fl.nan)
  else
    let m := maxCode zs
    let es := zs.map fun z =>
      let (d, f1) := fSub .fp32 .rne z m
      let (e, f2) := rnd .fp32 .rne (Val.exp (floatVal .fp32 d))
      (e, f1 ||| f2)
    let (s, fs) := (es.drop 1).foldl (fun a e => let (r, f) := fAdd .fp32 .rne a.1 e.1; (r, a.2 ||| f))
      ((at' (0, 0) es 0).1, (0 : NFlags))
    let ys := es.map fun e => fDiv .fp32 .rne e.1 s
    (ys.map (·.1), orFlags es ||| fs ||| orFlags ys)

/-- The link functions of R217 other than SOFTMAX on one z. -/
def link1 (f : FinBlock) (z : Nat) : Nat × NFlags :=
  match f.link with
  | 0 => if (floatVal .fp32 z).isNan then (0x7FC00000, Fl.nan) else (z, 0)
  | 1 => rnd .fp32 .rne (Val.logistic (floatVal .fp32 z))
  | 3 => rnd .fp32 .rne (Val.exp (floatVal .fp32 z))
  | _ => calibrate f z

/-- What a pass gives: the output codes in OUT_FMT, WINNER, the flags, whether an output is NaN or 0 from a NaN,
and whether an output conversion or a range check saturated. -/
structure FinOut where
  codes : List Nat
  winner : Nat
  nflags : NFlags
  nan : Bool
  sat : Bool
deriving DecidableEq, Repr

/-- The index of the largest value, NaNs apart, ties to the lowest (R225). -/
def winnerOf (vs : List Val) : Nat :=
  let r := (List.range vs.length).foldl (fun (best : Option Nat) j =>
    let v := at' Val.nan vs j
    if v.isNan then best
    else match best with
      | none => some j
      | some b => if Val.lt (at' Val.nan vs b) v then some j else best) none
  r.getD 0xFFFFFFFF

/-- The exact case of R220: FX48 plus FX48 at one scale into FX48 at that scale. -/
def ewExact (f : FinBlock) (x : FinIn) : Bool :=
  f.ewOp == 0 && x.fmt == .fx48 && f.opndFmt == 7 && f.opndScale == x.scale && f.outFmt == 7 && f.outScale == x.scale

/-- One ELEMWISE output (R220): the FP32 value for WINNER, the code in OUT_FMT, the pass flags, the flags of the
output conversion and of the range checks alone (R229 point 4), and whether the output is NaN. -/
def elemwise (f : FinBlock) (x : FinIn) (o : Nat) : Nat × Nat × NFlags × NFlags × Bool :=
  if ewExact f x then
    let sum := fxAdd x.code o
    let (v, fr) := fxRead sum
    ((convert .fx48 x.scale .fp32 0 .rne sum).1, ofInt 64 v, fr, fr, false)
  else
    let (s, f1) := working x
    let (ov, f2) := convert (elemFmt f.opndFmt) f.opndScale .fp32 0 .rne o
    let (y, f3) := if f.ewOp = 0 then fAdd .fp32 .rne s ov else fMul .fp32 .rne s ov
    let (c, f4) := convert .fp32 0 (elemFmt f.outFmt) f.outScale (Mode.ofField f.round) y
    (y, c, f1 ||| f2 ||| f3, f4 ||| ((f1 ||| f2) &&& Fl.satFx), (floatVal .fp32 y).isNan)

/-- A whole pass over the outputs of one record or one tile row; `opnd` holds the ELEMWISE operand codes. -/
def finPass (f : FinBlock) (xs : List FinIn) (opnd : List Nat) : FinOut :=
  if f.mode = 1 then
    let rs := tab xs.length fun j => elemwise f (at' ⟨.fp32, 0, 0⟩ xs j) (at' 0 opnd j)
    let conv : NFlags := rs.foldl (fun a r => a ||| r.2.2.2.1) 0
    { codes := rs.map (·.2.1), winner := if f.winner then winnerOf (rs.map fun r => floatVal .fp32 r.1) else 0xFFFFFFFF,
      nflags := rs.foldl (fun a r => a ||| r.2.2.1 ||| r.2.2.2.1) 0, nan := rs.any (·.2.2.2.2), sat := isSaturated conv }
  else if f.outFmt = 8 then
    -- RAW skips R215 to R217 (R221)
    let rs := xs.map fun x => if x.fmt = .fx48 then (let (v, fl) := fxRead x.code; (ofInt 64 v, fl)) else (x.code % 2 ^ 32, (0 : NFlags))
    let vals := tab xs.length fun j => (decodeVal (at' ⟨.fp32, 0, 0⟩ xs j).fmt (at' ⟨.fp32, 0, 0⟩ xs j).scale (at' (0, 0) rs j).1).1
    let nan := vals.any (·.isNan)
    { codes := rs.map (·.1), winner := if f.winner then winnerOf vals else 0xFFFFFFFF,
      nflags := orFlags rs ||| (if nan then Fl.nan else 0), nan := nan, sat := isSaturated (orFlags rs) }
  else
    let ss := xs.map working
    let zs := ss.map fun s => affine f s.1
    let (ys, fl) := if f.link = 2 then softmax (zs.map (·.1))
      else let ls := zs.map fun z => link1 f z.1; (ls.map (·.1), orFlags ls)
    let cs := ys.map fun y => convert .fp32 0 (elemFmt f.outFmt) f.outScale (Mode.ofField f.round) y
    { codes := cs.map (·.1), winner := if f.winner then winnerOf (ys.map (floatVal .fp32)) else 0xFFFFFFFF,
      nflags := orFlags ss ||| orFlags zs ||| fl ||| orFlags cs, nan := ys.any (fun y => (floatVal .fp32 y).isNan),
      sat := isSaturated (orFlags cs) || hasFlag (orFlags ss) Fl.satFx }

/-- DECIDED and DECISION of a final running-sum slot (R224). -/
def decide' (fx : Bool) (threshold sense : Nat) (slot : Nat) : Bool × Bool :=
  if fx then
    let a := sext 64 slot
    let b := sext 64 threshold
    (true, if sense = 0 then b < a else b ≤ a)
  else
    let a := floatVal .fp32 slot
    let b := floatVal .fp32 threshold
    if a.isNan then (false, false) else (true, if sense = 0 then Val.lt b a else Val.le b a)

/-- OUT_BYTES of a block for `k` outputs (R226). -/
def outBytes (f : FinBlock) (k : Nat) (prune : Bool) : Nat :=
  let n := alignUp (k * outWidth f.outFmt) 8
  if prune then max n 16 else n

/-- A result record's header fields and output area (R226). -/
structure ResultRec where
  recordId : Nat
  ecv : Nat
  version : Nat
  status : Status
  sflags : BitVec 8
  nflags : NFlags
  rflags : Nat
  outFmt : Nat
  winner : Nat
  area : Bytes
deriving DecidableEq, Repr

/-- The bytes of a result record with a given RESULT_CHECK (R226). -/
def ResultRec.bytesWith (r : ResultRec) (check : Nat) : Bytes :=
  toLe 8 r.recordId ++ toLe 4 r.ecv ++ toLe 4 r.version ++ toLe 2 r.status.toNat ++ toLe 1 r.sflags.toNat ++
  toLe 1 r.nflags.toNat ++ toLe 1 r.rflags ++ toLe 1 r.outFmt ++ toLe 2 r.area.length ++ toLe 4 r.winner ++
  toLe 4 check ++ r.area

/-- RESULT_CHECK (R230). -/
def ResultRec.check (r : ResultRec) : Nat := crc32c (r.bytesWith 0)

/-- The bytes of a result record as the finisher builds it. -/
def ResultRec.bytes (r : ResultRec) : Bytes := r.bytesWith r.check

end Sys2Proof.Machine
end

