-- ==== Sys2Proof/Machine/Sieve.lean ====
section
/-! DEFINITION. The sieve: its table, the checks of a load, hashing, look-ups, binning, crossing and scaling
(R83 to R107). -/
namespace Sys2Proof.Machine

/-- NAN_INPUT. -/
def stNanInput : Status := 0x2001
/-- ENTITY_MISS. -/
def stEntityMiss : Status := 0x2002
/-- ENTRY_CHECK. -/
def stEntryCheck : Status := 0x2003
/-- FRAME_INVALID. -/
def stFrameInvalid : Status := 0x2004
/-- RECORD_SHORT. -/
def stRecordShort : Status := 0x2005
/-- INPUT_RANGE. -/
def stInputRange : Status := 0x2006
/-- INPUT_CLAMPED. -/
def stInputClamped : Status := 0x2007
/-- ENTITY_UNREADABLE. -/
def stEntityUnreadable : Status := 0x4020

/-- The mixing function of R101. -/
def mix32 (x0 : Nat) : Nat :=
  let x := x0 % 2 ^ 32
  let x := x ^^^ (x / 65536)
  let x := x * 0x6B2F4E35 % 2 ^ 32
  let x := x ^^^ (x / 32768)
  let x := x * 0x9C3A71D3 % 2 ^ 32
  x ^^^ (x / 65536)

/-- The hash of a cross (R101). -/
def crossHash (a b seed : Nat) : Nat := mix32 ((a * 65536 + b) % 2 ^ 32 ^^^ seed)

/-- The hash of an entity key (R92). -/
def entityHash (k seed : Nat) : Nat := mix32 (k % 2 ^ 32 ^^^ mix32 (k / 2 ^ 32 % 2 ^ 32 ^^^ seed))

/-- An entity descriptor's fields (R87). -/
structure Entity where
  tableBase : Nat
  defaultRow : Nat
  seed : Nat
  slotLog2 : Nat
  probeLimit : Nat
  rowBytes : Nat
  keyArea : Nat
  keyOffset : Nat
  reservedOk : Bool
deriving DecidableEq, Repr

/-- The entity descriptor of look-up `j` (1 to 8) of a sieve table (R83, R87). -/
def entityOf (t : Bytes) (j : Nat) : Entity :=
  let o := 0x100 + 64 * (j - 1)
  { tableBase := field t o 8, defaultRow := field t (o + 8) 8, seed := field t (o + 0x10) 4,
    slotLog2 := field t (o + 0x14) 1, probeLimit := field t (o + 0x15) 1, rowBytes := field t (o + 0x16) 2,
    keyArea := field t (o + 0x18) 1, keyOffset := field t (o + 0x1A) 2,
    reservedOk := field t (o + 0x19) 1 == 0 && zeroFrom t (o + 0x1C) (o + 64) }

/-- The bytes of one slot of an entity table (R91). -/
def Entity.slotBytes (e : Entity) : Nat := alignUp (8 + e.rowBytes) 64

/-- The home slot of a key (R92). -/
def Entity.home (e : Entity) (k : Nat) : Nat := entityHash k e.seed / 2 ^ (32 - e.slotLog2)

/-- The address of a slot (R91). -/
def Entity.slotAddr (e : Entity) (i : Nat) : Nat := e.tableBase + i * e.slotBytes

/-- A feature descriptor's fields, with its scale pair (R83, R86). -/
structure Feature where
  kind : Nat
  srcFmt : Nat
  sense : Bool
  scaleEn : Bool
  scaleFmt : Nat
  srcArea : Nat
  srcOffset : Nat
  count : Nat
  reserved : Nat
  high : Nat
  offsetW : Nat
  scaleW : Nat
deriving DecidableEq, Repr

namespace Feature
/-- BPTR. -/
def bptr (f : Feature) : Nat := bits f.high 0 17
/-- DENSE_IDX. -/
def denseIdx (f : Feature) : Nat := bits f.high 32 10
/-- OPERAND_A. -/
def opA (f : Feature) : Nat := bits f.high 0 12
/-- OPERAND_B. -/
def opB (f : Feature) : Nat := bits f.high 16 12
/-- SEED. -/
def seed (f : Feature) : Nat := bits f.high 32 32
/-- The bits of [127:64] that the feature's kind uses (R86). -/
def highMask (f : Feature) : Nat :=
  match f.kind with
  | 0 => if f.scaleEn then 0x3FF0001FFFF else 0x1FFFF
  | 1 => 0
  | 2 => 0x0FFF0FFF
  | _ => 0xFFFFFFFF0FFF0FFF
/-- The width in bytes of the source value (R96). -/
def width (f : Feature) : Nat :=
  match f.srcFmt with
  | 0 => 4 | 1 => 2 | 2 => 2 | 3 => 1 | 4 => 4 | 5 => 2 | 6 => 1 | _ => 2
/-- Whether the feature reads a source value. -/
def sourced (f : Feature) : Bool := f.kind ≤ 1
end Feature

/-- The feature with an index of a table (R83, R86). -/
def featureOf (t : Bytes) (i : Nat) : Feature :=
  let fc := field t 2 2
  let w := field t (0x400 + 16 * i) 8
  let o := 0x400 + 16 * fc + 8 * i
  { kind := bits w 0 4, srcFmt := bits w 4 4, sense := bit w 8, scaleEn := bit w 9, scaleFmt := bits w 10 2,
    srcArea := bits w 12 4, srcOffset := bits w 16 16, count := bits w 32 16, reserved := bits w 48 16,
    high := field t (0x400 + 16 * i + 8) 8, offsetW := field t o 4, scaleW := field t (o + 4) 4 }

/-- A sieve table, its fields taken out (R83 to R87). -/
structure SieveTable where
  features : List Feature
  entities : List Entity
  pool : List Nat
  nanPolicy : Nat
  denseCount : Nat
  payloadMin : Nat
  crc : Nat
deriving DecidableEq, Repr

/-- The sieve table a section spells. -/
def parseSieve (t : Bytes) : SieveTable :=
  let fc := field t 2 2
  { features := tab fc (featureOf t)
    entities := tab (min (field t 8 1) 8) fun i => entityOf t (i + 1)
    pool := tab (field t 4 4) fun i => field t (0x400 + 24 * fc + 4 * i) 4
    nanPolicy := field t 9 1, denseCount := field t 0xA 2, payloadMin := field t 0xC 2, crc := field t 0x10 4 }

/-- The number of bins of each feature in index order; a CROSS_EXACT has the product of its operands' (R86). -/
def nbinsList (fs : List Feature) : List Nat :=
  fs.foldl (fun acc f => acc ++ [if f.kind = 2 then at' 0 acc f.opA * at' 0 acc f.opB else f.count + 1]) []

/-- The boundary list of a BOUND feature as values: FP32 for a float source, INT32 for an integer one (R97). -/
def boundVals (pool : List Nat) (f : Feature) : List Val :=
  tab f.count fun i =>
    let w := at' 0 pool (f.bptr + i)
    if f.srcFmt ≤ 3 then floatVal .fp32 w else .ofInt (sext 32 w)

/-- A boundary list is strictly ascending and holds no NaN (R88). -/
def ascending : List Val → Bool
  | a :: b :: t => Val.lt a b && ascending (b :: t)
  | [a] => !a.isNan
  | [] => true

/-- The field rules of R86 and R88 for the feature at an index. -/
def featureOk (entityCount denseCount poolLen : Nat) (rowBytes : Nat → Nat) (nbins : List Nat) (pool : List Nat)
    (i : Nat) (f : Feature) : Bool :=
  f.kind ≤ 3 &&
  (match f.kind with | 0 => f.srcFmt ≤ 6 | 1 => 4 ≤ f.srcFmt && f.srcFmt ≤ 7 | _ => f.srcFmt == 0) &&
  (f.kind == 0 || (!f.sense && !f.scaleEn && f.scaleFmt == 0)) &&
  f.scaleFmt ≤ 2 && (f.scaleEn || f.scaleFmt == 0) &&
  f.reserved == 0 && f.high &&& (2 ^ 64 - 1 - f.highMask) == 0 && (f.kind != 2 || f.count == 0) &&
  f.srcArea ≤ entityCount && (!f.sourced || f.srcOffset % f.width == 0) &&
  (!f.sourced || f.srcArea == 0 || f.srcOffset + f.width ≤ rowBytes f.srcArea) &&
  (f.kind != 0 || (f.bptr + f.count ≤ poolLen && ascending (boundVals pool f))) &&
  (!f.scaleEn || f.denseIdx < denseCount) &&
  (f.kind ≤ 1 || (f.opA < i && f.opB < i)) &&
  (f.kind != 2 || at' 0 nbins f.opA * at' 0 nbins f.opB ≤ 65536)

/-- The field rules of R87 and R88 for look-up `j`. -/
def entityOk (rowBytes : Nat → Nat) (j : Nat) (e : Entity) : Bool :=
  e.reservedOk && e.tableBase % 64 == 0 && e.defaultRow % 8 == 0 && 10 ≤ e.slotLog2 && e.slotLog2 ≤ 32 &&
  1 ≤ e.probeLimit && e.probeLimit ≤ 64 && 8 ≤ e.rowBytes && e.rowBytes ≤ 248 && e.rowBytes % 8 == 0 &&
  e.keyArea < j && e.keyOffset % 8 == 0 && (e.keyArea == 0 || e.keyOffset + 8 ≤ rowBytes e.keyArea)

/-- The least payload length that holds every payload-sourced field and key (R85). -/
def payloadNeed (t : SieveTable) : Nat :=
  let a := (t.features.filter fun f => f.sourced && f.srcArea == 0).map fun f => f.srcOffset + f.width
  let b := (t.entities.filter fun e => e.keyArea == 0).map fun e => e.keyOffset + 8
  (a ++ b).foldl max 0

/-- The rules of R88 that give SIEVE_TABLE_INVALID. -/
def sieveOk (t : Bytes) : Bool :=
  let s := parseSieve t
  let fc := field t 2 2
  let bc := field t 4 4
  let ec := field t 8 1
  let rb (j : Nat) : Nat := if 1 ≤ j then (at' (entityOf [] 1) s.entities (j - 1)).rowBytes else 0
  let nb := nbinsList s.features
  field t 0 2 == 1 && 1 ≤ fc && fc ≤ 4096 && ec ≤ 8 && s.nanPolicy ≤ 1 && s.denseCount ≤ 1024 &&
  t.length == sieveLength fc bc && crcZeroed t 0x10 == s.crc &&
  field t 0xE 2 == 0 && zeroFrom t 0x14 0x100 && zeroFrom t (0x100 + 64 * ec) 0x400 &&
  zeroFrom t (0x400 + 24 * fc + 4 * bc) t.length &&
  ((tab fc id).all fun i => featureOk ec s.denseCount bc rb nb s.pool i (at' (featureOf [] 0) s.features i)) &&
  ((tab ec id).all fun i => entityOk rb (i + 1) (at' (entityOf [] 1) s.entities i)) &&
  decide (((s.features.filter (·.scaleEn)).map (·.denseIdx)).Nodup) &&
  payloadNeed s == s.payloadMin

/-- The address ranges a sieve table names: each TABLE_BASE and DEFAULT_ROW (R88). -/
def sieveRanges (t : Bytes) : List (Nat × Nat) :=
  (parseSieve t).entities.flatMap fun e => [(e.tableBase, 2 ^ e.slotLog2 * e.slotBytes), (e.defaultRow, e.rowBytes)]

/-- SFLAGS (R106). -/
abbrev SFlags := BitVec 8

/-- SFLAGS.ENTITY_MISS. -/
def sfMiss : SFlags := 1
/-- SFLAGS.PROBE_EXHAUSTED. -/
def sfProbe : SFlags := 2
/-- SFLAGS.NAN_CLAMPED. -/
def sfNan : SFlags := 4
/-- SFLAGS.RANGE_CLAMPED. -/
def sfRange : SFlags := 8

/-- What the head has of a record while it works through the features (R90 step 4). -/
structure Binned where
  bins : List Nat
  dense : Tbl Nat
  sflags : SFlags
  nflags : NFlags
  status : Status
deriving DecidableEq, Repr

/-- The source format codes of R86. -/
def srcFmtOf (n : Nat) : Fmt :=
  match n with
  | 0 => .fp32 | 1 => .bf16 | 2 => .fp16 | 3 => .e4m3 | 4 => .int32 | 5 => .int16 | _ => .int8

/-- The scale formats of R86. -/
def scaleFmtOf (n : Nat) : Fmt := match n with | 0 => .fp32 | 1 => .bf16 | _ => .fp16

/-- The bin of a value over a boundary list (R97). -/
def binOf (lt : Bool) (bs : List Val) (x : Val) : Nat :=
  (bs.filter fun b => if lt then Val.le b x else Val.lt b x).length

/-- The scaled value of R99: the FP32 result, the code in the scale format, and every flag raised. -/
def scaleValue (f : Feature) (x : Val) : Nat × Nat × NFlags :=
  let (x32, f1) := encodeVal .fp32 0 .rne x
  let (d, f2) := fSub .fp32 .rne x32 f.offsetW
  let (y, f3) := fMul .fp32 .rne d f.scaleW
  let (c, f4) := convert .fp32 0 (scaleFmtOf f.scaleFmt) 0 .rne y
  (y, c, f1 ||| f2 ||| f3 ||| f4)

/-- One feature worked by the head, in ascending index order (R96 to R101); nothing once a status is set. -/
def sieveStep (t : SieveTable) (nb : List Nat) (area : Nat → Bytes) (st : Binned) (f : Feature) : Binned :=
  if st.status ≠ 0 then st
  else
    match f.kind with
    | 0 =>
      let raw := field (area f.srcArea) f.srcOffset f.width
      let (x, _) := decodeVal (srcFmtOf f.srcFmt) 0 raw
      let bs := boundVals t.pool f
      if x.isNan then
        if t.nanPolicy = 0 then { st with nflags := st.nflags ||| Fl.nan, status := stNanInput }
        else { st with bins := st.bins ++ [0], sflags := st.sflags ||| sfNan, nflags := st.nflags ||| Fl.nan }
      else
        let bin := binOf f.sense bs x
        if !f.scaleEn then { st with bins := st.bins ++ [bin] }
        else
          let (y, c, fl) := scaleValue f x
          if (floatVal .fp32 y).isNan then
            if t.nanPolicy = 0 then { st with nflags := st.nflags ||| fl ||| Fl.nan, status := stNanInput }
            else { st with bins := st.bins ++ [bin], sflags := st.sflags ||| sfNan, nflags := st.nflags ||| fl ||| Fl.nan }
          else { st with bins := st.bins ++ [bin], dense := Tbl.set 0 f.denseIdx c st.dense, nflags := st.nflags ||| fl }
    | 1 =>
      let raw := field (area f.srcArea) f.srcOffset f.width
      let v : Int := if f.srcFmt = 7 then (raw : Int) else sext (8 * f.width) raw
      if v < 0 || v > (f.count : Int) then
        if t.nanPolicy = 0 then { st with status := stInputRange }
        else { st with bins := st.bins ++ [0], sflags := st.sflags ||| sfRange }
      else { st with bins := st.bins ++ [v.toNat] }
    | 2 => { st with bins := st.bins ++ [at' 0 st.bins f.opA * at' 0 nb f.opB + at' 0 st.bins f.opB] }
    | _ =>
      let h := crossHash (at' 0 st.bins f.opA) (at' 0 st.bins f.opB) f.seed
      { st with bins := st.bins ++ [h * (f.count + 1) / 2 ^ 32] }

/-- The bins and scaled values of a record from its payload and the rows its look-ups returned (R90 step 4). -/
def sieveRun (t : SieveTable) (payload : Bytes) (rows : List Bytes) (sf : SFlags) (nf : NFlags) : Binned :=
  let area (j : Nat) : Bytes := if j = 0 then payload else at' [] rows (j - 1)
  t.features.foldl (sieveStep t (nbinsList t.features) area) ⟨[], [], sf, nf, 0⟩

/-- The status a scored record carries out of the sieve (R107). -/
def sieveStatus (sf : SFlags) : Status :=
  if sf &&& sfMiss ≠ 0 then stEntityMiss else if sf &&& (sfNan ||| sfRange) ≠ 0 then stInputClamped else 0

/-- The bin-vector packet a head sends (R105); bins and dense vector are empty for a record that is not scored. -/
structure BinPacket where
  recordId : Nat
  ecv : Nat
  sflags : SFlags
  nflags : NFlags
  status : Status
  bins : List Nat
  dense : List Nat
deriving DecidableEq, Repr

/-- The bytes of a bin-vector packet (R105). -/
def BinPacket.bytes (p : BinPacket) : Bytes :=
  let b := p.bins.flatMap (toLe 2)
  let d := p.dense.flatMap (toLe 4)
  let pad (x : Bytes) : Bytes := x ++ List.replicate (alignUp x.length 8 - x.length) 0#8
  toLe 8 p.recordId ++ toLe 4 p.ecv ++ toLe 2 p.bins.length ++ toLe 1 p.sflags.toNat ++ toLe 1 p.nflags.toNat ++
  toLe 2 p.status.toNat ++ toLe 2 p.dense.length ++ toLe 4 0 ++ pad b ++ pad d

end Sys2Proof.Machine
end

