-- ==== Sys2Proof/Machine/TableBlocks.lean ====
section
/-! DEFINITION. Table blocks, key-gather blocks and the numbers of the table engines: rows and their formats, stochastic
rounding, and the optimizers' arithmetic (R314 to R317, R325, R330, R331, R451). -/
namespace Sys2Proof.Machine

/-- TABLE_INVALID (R344). -/
def stTableInvalid : Status := 0x1080

/-- A table block (R314). -/
structure Table where
  rowFmt : Nat
  opt : Nat
  dim : Nat
  rows : Nat
  keyBase : Nat
  shardRows : Nat
  stride : Nat
  stateOff : Nat
  bases : List Nat
deriving DecidableEq, Repr

/-- The table that a block spells, with its shard bases (R314). -/
def parseTable (b : Bytes) : Table :=
  { rowFmt := field b 2 1, opt := field b 3 1, dim := field b 4 2, rows := field b 8 8, keyBase := field b 0x10 8
    shardRows := field b 0x18 8, stride := field b 0x20 4, stateOff := field b 0x24 4
    bases := tab (field b 6 2) fun j => field b (0x40 + 8 * j) 8 }

namespace Table

/-- The format of the row values (R314). -/
def fmt (t : Table) : Fmt := match t.rowFmt with | 0 => .fp32 | 1 => .bf16 | 2 => .fp16 | _ => .e4m3
/-- The bytes of the value area (R316). -/
def valueBytes (t : Table) : Nat := if t.rowFmt = 3 then 8 + t.dim else t.dim * t.fmt.size
/-- A row has a state area (R316). -/
def hasState (t : Table) : Bool := 2 ≤ t.opt
/-- The bytes of the state area (R316). -/
def stateBytes (t : Table) : Nat := if t.opt = 2 then 4 else 8 + 8 * t.dim
/-- The bytes up to the end of the state area, X of R333. -/
def whole (t : Table) : Nat := if t.hasState then t.stateOff + t.stateBytes else t.valueBytes
/-- The row that a key names (R315). -/
def rowOf (t : Table) (k : Nat) : Option Nat :=
  let r := (k + 2 ^ 64 - t.keyBase) % 2 ^ 64
  if r < t.rows then some r else none
/-- The address of a row (R315). -/
def addr (t : Table) (r : Nat) : Nat := at' 0 t.bases (r / t.shardRows) + r % t.shardRows * t.stride
/-- The ranges of the shards: base and bytes of the rows each holds. -/
def shards (t : Table) : List (Nat × Nat) :=
  tab t.bases.length fun j => (at' 0 t.bases j, min t.shardRows (t.rows - j * t.shardRows) * t.stride)

/-- The rules of R317 on a table's fields. -/
def ok (t : Table) : Bool :=
  let n := t.bases.length
  t.rowFmt ≤ 3 && t.opt ≤ 3 && 1 ≤ t.dim && t.dim ≤ 128 && 1 ≤ n && n ≤ 4096 && 1 ≤ t.rows && t.rows ≤ 2 ^ 40 &&
  t.stride % 64 == 0 && t.stride ≤ 2048 && t.stateOff % 8 == 0 && t.bases.all (fun a => a % 64 == 0) &&
  t.rows ≤ n * t.shardRows && (n - 1) * t.shardRows < t.rows && (!t.hasState || t.valueBytes ≤ t.stateOff) &&
  t.valueBytes ≤ t.stride && t.whole ≤ t.stride

end Table

/-- The bytes of a table block whose first 64 bytes are given. -/
def tableBytes (head : Bytes) : Nat := 64 + 8 * field head 6 2

/-- A table block of whole length keeps R317, its shards' addresses apart. -/
def tableOk (b : Bytes) : Bool :=
  field b 0 2 == 1 && zeroFrom b 0x2C 0x40 && crcZeroed b 0x28 == field b 0x28 4 && (parseTable b).ok

/-- A key-gather block with its table (R325). -/
structure KeyGather where
  pool : Nat
  tile : Bool
  outFmt : Nat
  stride : Nat
  dst : Nat
  slots : Nat
  table : Table
deriving DecidableEq, Repr

/-- A pooled output's format (R322): FP32, BF16 or FP16. -/
def poolFmt (f : Nat) : Fmt := if f = 0 then .fp32 else if f = 1 then .bf16 else .fp16

/-- The tile MODE that goes with an OUT_FMT (R322). -/
def poolMode (f : Nat) : Nat := if f = 0 then 0 else f + 1

/-! ### Row values -/

/-- The power of two that an FP32 code holds, if it is one (R316). -/
def pow2Of (code : Nat) : Option Int :=
  match floatVal .fp32 code with
  | .fin false m e _ => if m ≠ 0 && m = 2 ^ Nat.log2 m then some (e + Nat.log2 m) else none
  | _ => none

/-- A row's values widened to FP32 (R316). With a SCALE that is no power of two the spec states no values: they are free
(log 13). -/
def rowValues (t : Table) (b : Bytes) : List Nat × NFlags :=
  let one (i : Nat) : Nat × NFlags :=
    if t.rowFmt = 3 then
      let x := field b (8 + i) 1
      match pow2Of (field b 0 4) with
      | some e => rnd .fp32 .rne (.mul (.fin false 1 e false) (floatVal .e4m3 x))
      | none => ((Config.oddScale (field b 0 4) x).toNat, 0)
    else convert t.fmt 0 .fp32 0 .rne (field b (i * t.fmt.size) t.fmt.size)
  let l := tab t.dim one
  (l.map (·.1), l.foldl (fun a x => a ||| x.2) 0)

/-- The 16 bits that the generator draws (R451). -/
def draw16 (key r i : Nat) : Nat :=
  let h := mix32 (key / 2 ^ 32 % 2 ^ 32 ^^^ r / 2 ^ 32 % 2 ^ 32)
  let h := mix32 (key % 2 ^ 32 ^^^ h ^^^ r % 2 ^ 32)
  mix32 (h ^^^ i * 65536 % 2 ^ 32) / 65536

/-- The flags of a value stored at a code by stochastic rounding: UNDERFLOW where a nonzero value becomes zero (R72). -/
def stochFlags (f : Fmt) (v : Val) (code : Nat) : NFlags :=
  if Val.eqv (floatVal f code) (.fin false 0 0 false) && !Val.eqv v (.fin false 0 0 false) then Fl.underflow else 0

/-- Stochastic rounding of a value into a row format with the 16 bits `u` (R331). A value past the largest finite one has
no neighbour above it, and the spec states no result: it is free, and no flag is set, OVF among them (DESIGN CHOICE, log 13). -/
def stochRound (f : Fmt) (u : Nat) (v : Val) : Nat × NFlags :=
  match v with
  | .fin _ m e _ =>
    let lo := (encodeVal f 0 .rdn v).1
    let hi := (encodeVal f 0 .rup v).1
    if lo = hi then encodeVal f 0 .rne v
    else match floatVal f lo, floatVal f hi with
      | .fin a b c d, .fin a' b' c' d' =>
        let l := Val.fin a b c d
        let h := Val.fin a' b' c' d'
        let up := Val.lt (.mul (.ofInt u) (.sub .rne h l)) (.mul (.ofInt 65536) (.sub .rne v l))
        let code := if up then hi else lo
        (code, stochFlags f v code)
      | _, _ => ((Config.stochOver m e).toNat % 2 ^ 16, 0)
  | _ => encodeVal f 0 .rne v

/-- One value stored into a row format: RNE, or stochastic with a drawn number (R331). -/
def storeVal (f : Fmt) (u : Option Nat) (v : Val) : Nat × NFlags :=
  match u with | none => encodeVal f 0 .rne v | some n => stochRound f n v

/-- The larger of two magnitudes, NaN apart (R331). -/
def maxAbs (a : Val) (x : Nat) : Val :=
  let v := (floatVal .fp32 x).abs
  if v.isNan then a else if Val.lt a v then v else a

/-- The exponent of the SCALE of an E4M3 row (R331). -/
def e4Scale (ws : List Nat) : Int :=
  match ws.foldl maxAbs (.fin false 0 0 false) with
  | .fin _ m e _ =>
    if m = 0 then 0
    else let l : Int := Nat.log2 m + e
         if 4 * m ≤ 7 * 2 ^ Nat.log2 m then l - 8 else l - 7
  | .inf _ => 127
  | .nan => 0

/-- The FP32 code of a SCALE of `2^e`; below the smallest FP32 value the spec states none, and it is free (log 13). -/
def scaleCode (e : Int) : Nat :=
  if e < -149 then (Config.smallScale e.natAbs).toNat else (encodeVal .fp32 0 .rne (.fin false 1 e false)).1

/-- The value area that FP32 values are stored in (R316, R331); `draw i` is the drawn number of element `i`. -/
def storeValues (t : Table) (draw : Nat → Option Nat) (ws : List Nat) : Bytes × NFlags :=
  if t.rowFmt = 0 then (ws.flatMap (toLe 4), 0)
  else if t.rowFmt = 3 then
    let e := e4Scale ws
    let cs := tab t.dim fun i =>
      storeVal .e4m3 (draw i) (.mul (floatVal .fp32 (at' 0 ws i)) (.fin false 1 (-e) false))
    (toLe 4 (scaleCode e) ++ toLe 4 0 ++ cs.flatMap fun c => toLe 1 c.1, cs.foldl (fun a c => a ||| c.2) 0)
  else
    let cs := tab t.dim fun i => storeVal t.fmt (draw i) (floatVal .fp32 (at' 0 ws i))
    (cs.flatMap fun c => toLe 2 c.1, cs.foldl (fun a c => a ||| c.2) 0)

/-! ### FP32 arithmetic that gathers flags -/

/-- An FP32 result with the flags raised so far. -/
abbrev FV := Nat × NFlags

/-- An FP32 constant. -/
def FV.c (x : Nat) : FV := (x, 0)
/-- FP32 addition, RNE. -/
def FV.add (a b : FV) : FV := let (c, f) := fAdd .fp32 .rne a.1 b.1; (c, f ||| a.2 ||| b.2)
/-- FP32 subtraction, RNE. -/
def FV.sub (a b : FV) : FV := let (c, f) := fSub .fp32 .rne a.1 b.1; (c, f ||| a.2 ||| b.2)
/-- FP32 multiplication, RNE. -/
def FV.mul (a b : FV) : FV := let (c, f) := fMul .fp32 .rne a.1 b.1; (c, f ||| a.2 ||| b.2)
/-- FP32 division, RNE. -/
def FV.div (a b : FV) : FV := let (c, f) := fDiv .fp32 .rne a.1 b.1; (c, f ||| a.2 ||| b.2)
/-- FP32 square root, RNE. -/
def FV.sqrt (a : FV) : FV := let (c, f) := fSqrt .fp32 .rne a.1; (c, f ||| a.2)
/-- FP32 division by a whole number, RNE. -/
def FV.divNat (a : FV) (n : Nat) : FV := let (c, f) := rnd .fp32 .rne (.div (floatVal .fp32 a.1) (.ofInt n)); (c, f ||| a.2)
/-- A power with a whole exponent, correctly rounded (R330). -/
def FV.pow (x t : Nat) : FV :=
  match floatVal .fp32 x with
  | .fin n m e _ => rnd .fp32 .rne (.fin (n && t % 2 == 1) (m ^ t) (e * t) false)
  | v => rnd .fp32 .rne v
/-- The flags of a list of results. -/
def FV.flags (l : List FV) : NFlags := l.foldl (fun a x => a ||| x.2) 0
/-- The FP32 one. -/
def one32 : Nat := 0x3F800000

/-! ### Optimizers -/

/-- The hyperparameter block (R328). -/
structure Hyper where
  lr : Nat
  eps : Nat
  beta1 : Nat
  beta2 : Nat
  seed : Nat
deriving DecidableEq, Repr

/-- The block that 32 bytes spell (R328). -/
def parseHyper (b : Bytes) : Hyper :=
  { lr := field b 0 4, eps := field b 4 4, beta1 := field b 8 4, beta2 := field b 0xC 4, seed := field b 0x10 8 }

/-- An FP32 code is finite. -/
def finite32 (c : Nat) : Bool := match floatVal .fp32 c with | .fin _ _ _ _ => true | _ => false

/-- A rate of decay lies in [0, 1) (R328). -/
def betaOk (c : Nat) : Bool :=
  finite32 c && !Val.lt (floatVal .fp32 c) (.fin false 0 0 false) && Val.lt (floatVal .fp32 c) (floatVal .fp32 one32)

/-- The hyperparameter rules of R328 for an optimizer. -/
def hyperOk (opt : Nat) (b : Bytes) : Bool :=
  let h := parseHyper b
  finite32 h.lr && finite32 h.eps && !Val.lt (floatVal .fp32 h.eps) (.fin false 0 0 false) && zeroFrom b 0x18 0x20 &&
  (opt != 1 || h.eps == 0) && (if opt = 3 then betaOk h.beta1 && betaOk h.beta2 else h.beta1 == 0 && h.beta2 == 0)

/-- What an optimizer makes of a row: its values, its state area, and the flags (R330). -/
structure Updated where
  values : List Nat
  state : Bytes
  flags : NFlags
deriving DecidableEq, Repr

/-- SGD (R330). -/
def sgd (h : Hyper) (ws gs : List Nat) : Updated :=
  let l := tab ws.length fun i => FV.sub (.c (at' 0 ws i)) (.mul (.c h.lr) (.c (at' 0 gs i)))
  ⟨l.map (·.1), [], FV.flags l⟩

/-- ADAGRAD (R330). -/
def adagrad (h : Hyper) (ws gs : List Nat) (a : Nat) : Updated :=
  let s := gs.foldl (fun (s : FV) g => s.add (.mul (.c g) (.c g))) (.c 0)
  let a' := FV.add (.c a) (s.divNat ws.length)
  let d := a'.sqrt.add (.c h.eps)
  let l := tab ws.length fun i => FV.sub (.c (at' 0 ws i)) (.div (.mul (.c h.lr) (.c (at' 0 gs i))) d)
  ⟨l.map (·.1), toLe 4 a'.1, FV.flags (d :: l)⟩

/-- One moment of ADAM: `β m + (1 − β) x` (R330). -/
def moment (beta m : Nat) (x : FV) : FV := FV.add (.mul (.c beta) (.c m)) (.mul (.sub (.c one32) (.c beta)) x)

/-- ADAM on the state area (R316, R330). -/
def adam (h : Hyper) (ws gs : List Nat) (st : Bytes) : Updated :=
  let n := ws.length
  let t := min (field st 0 4 + 1) (2 ^ 32 - 1)
  let c1 := FV.sub (.c one32) (.pow h.beta1 t)
  let c2 := FV.sub (.c one32) (.pow h.beta2 t)
  let ms := tab n fun i => moment h.beta1 (field st (8 + 4 * i) 4) (.c (at' 0 gs i))
  let vs := tab n fun i => moment h.beta2 (field st (8 + 4 * n + 4 * i) 4) (.mul (.c (at' 0 gs i)) (.c (at' 0 gs i)))
  let l := tab n fun i =>
    let q := FV.div (.div (at' (0, 0) ms i) c1) (.add (.sqrt (.div (at' (0, 0) vs i) c2)) (.c h.eps))
    FV.sub (.c (at' 0 ws i)) (.mul (.c h.lr) q)
  ⟨l.map (·.1), toLe 4 t ++ toLe 4 0 ++ (ms ++ vs).flatMap fun x => toLe 4 x.1, FV.flags (c1 :: c2 :: (ms ++ vs ++ l))⟩

/-- A row's bytes after one update with the summed gradient (R330, R331): values and state; the gap between them, if any,
stands. -/
def updateRow (t : Table) (h : Hyper) (sround : Bool) (r : Nat) (gs : List Nat) (b : Bytes) : Bytes × NFlags :=
  let (ws, f0) := rowValues t b
  let u := match t.opt with
    | 1 => sgd h ws gs
    | 2 => adagrad h ws gs (field b t.stateOff 4)
    | _ => adam h ws gs (slice b t.stateOff t.stateBytes)
  let (vs, f1) := storeValues t (fun i => if sround then some (draw16 h.seed r i) else none) u.values
  let b := overlay b 0 vs
  (if t.hasState then overlay b t.stateOff u.state else b, f0 ||| u.flags ||| f1)

end Sys2Proof.Machine
end

