-- ==== Sys2Proof/Machine/State.lean ====
section
/-! DEFINITION. The state of the block: every register, memory, queue, buffer, counter, mode and pin the spec gives
it, plain data; and the state right after power-up reset. Registers with fields of several units are kept as the
64-bit words the host reads; a counter word holds four 16-bit lanes. -/
namespace Sys2Proof.Machine

/-- Why a command stops the machine. No command of this block does: a fault of the hardware is a state (R441). -/
inductive Fault where
deriving DecidableEq, Repr

/-- Why a command has no meaning. -/
inductive Refusal where
  /-- Raised by an arm of `exec` that has no meaning yet. Safe: nothing can be proved of its effect. -/
  | notModelled (mnemonic : String)
deriving DecidableEq, Repr

/-! ### Records in flight -/

/-- Where a record comes from: a batch, by its job, or a persistent task, by its number. -/
inductive Src where
  | job (id : Nat)
  | task (t : Nat)
deriving DecidableEq, Repr

/-- A record as the ingress unit made it and the replay buffer holds it (R77 to R80, R20, R30). -/
structure Rec where
  src : Src
  stream : Nat
  seq : Nat
  tag : Nat
  ecv : Nat
  status : Status
  payload : Bytes
  q : Nat
deriving DecidableEq, Repr

/-- RECORD_ID (R78). -/
def Rec.id (r : Rec) : Nat := r.tag * 2 ^ 32 + r.seq

/-- A graft marker (R269). -/
structure Marker where
  plotId : Nat
  kind : Nat
  oldVersion : Nat
  newVersion : Nat
  count : Nat
  entries : List (Nat × Nat)
deriving DecidableEq, Repr

/-- What a sieve head's input queue holds (R81, R268). -/
inductive HeadIn where
  | record (r : Rec)
  | marker (m : Marker)
deriving DecidableEq, Repr

/-- What a bin lane carries (R105, R198, R269): packets with their record's identity, and markers as bytes, each with the
core that sent it (256: it came over a chain link). -/
inductive BinMsg where
  | bins (p : BinPacket) (src : Src) (stream q : Nat) (sender : Nat)
  | marker (bytes : Bytes) (remote : Bool) (sender : Nat)
deriving DecidableEq, Repr

/-- What a sum lane carries: a sum packet or a reduction packet, as bytes, who sent it, and whether it failed a check: then
no value of it is ever taken (R195, R199, R209, R418). -/
structure SumMsg where
  reduction : Bool
  bytes : Bytes
  remote : Bool
  sender : Nat
  failed : Bool := false
deriving DecidableEq, Repr

/-- A sum packet's fields (R195). -/
structure SumPacket where
  recordId : Nat
  ecv : Nat
  version : Nat
  status : Status
  sflags : BitVec 8
  nflags : NFlags
  pflags : Nat
  k : Nat
  sumFmt : Nat
  fxScale : Nat
  boundLo : Nat
  boundHi : Nat
  sums : List Nat
deriving DecidableEq, Repr

/-- One tree of a round after its node stages: slot, comparisons, path bits, leaf index and the stage where the path
ended (R152, R156). -/
structure Lane where
  slot : Nat
  depth : Nat
  path : Nat
  leaf : Nat
  stage : Nat
deriving DecidableEq, Repr

/-- A round in the pipeline (R147, R249, R250). -/
structure Round where
  lanes : List Lane
  squashed : Bool
deriving DecidableEq, Repr

/-- A record a sieve head works on (R90): its record, the rows its look-ups returned, and what they raised. -/
structure HeadWork where
  record : Rec
  row : Nat
  rows : List Bytes
  sflags : BitVec 8
  nflags : NFlags
  status : Status
deriving DecidableEq, Repr

/-- What a core found when it pruned a record (R241, R245): DECISION, the sum S_r and the interval. -/
structure Pruned where
  decision : Bool
  sum : Nat
  lo : Nat
  hi : Nat
deriving DecidableEq, Repr

/-- A record context of a core (R20): the record, its row, its bins and flags, its bank pair (R155), the incoming sum,
the rounds issued, in flight and added, its leaf keys, what pruning found, and how far its packet or result is. -/
structure Ctx where
  recordId : Nat
  src : Src
  stream : Nat
  q : Nat
  ecv : Nat
  row : Nat
  hasBins : Bool
  bins : List Nat
  dense : List Nat
  sflags : BitVec 8
  binFlags : NFlags
  nflags : NFlags
  status : Status
  notScored : Bool
  pair : Nat
  inSum : Option SumPacket
  admitted : Bool
  issued : Nat
  added : Nat
  rounds : List Round
  keys : List Nat
  keysSent : Bool
  pruned : Option Pruned
  sent : Bool
  acked : Bool
  packed : Bool
  result : Option ResultRec
deriving DecidableEq, Repr

/-- A leaf-key block taken by the table engines and not yet pooled (R163, R326). -/
structure KeyBlock where
  src : Src
  q : Nat
  bytes : Bytes
deriving DecidableEq, Repr

/-! ### A grove core -/

/-- A tile word's fields (R175). -/
structure TileWord where
  core : Nat
  row0 : Nat
  rows : Nat
  col0 : Nat
  cols : Nat
  mode : Nat
  scale : Int
deriving DecidableEq, Repr

/-- An entry of the tile table (R178, R186): the word, its numeric flags, the total tile and chunk length of a
promoted tile, and the task that holds it (R184). -/
structure Tile where
  word : Nat
  nflags : NFlags
  total : Option Nat
  chunk : Nat
  heldBy : Option Nat
deriving DecidableEq, Repr

/-- A bank pair with a confirmed slice, and the grove-wide settings delivered with it (R125, R223, R262). -/
structure Pair where
  info : GroveInfo
  slice : Slice
  fin : Option FinBlock
  derived : Bool
deriving DecidableEq, Repr

/-- The stored words of a CORE block (R54, R75, R110, R169, R212, R238, R261, R284, R312, R343). -/
structure CoreRegs where
  progress : Word := 0
  xfer : Word := 0
  nflags : Word := 0
  nfCntA : Word := 0
  nfCntB : Word := 0
  sieveRecords : Word := 0
  sieveStatus : Word := 0
  sieveCntA : Word := 0
  sieveCntB : Word := 0
  descRounds : Word := 0
  descRecords : Word := 0
  descKeys : Word := 0
  descFaultA : Word := 0
  descFaultB : Word := 0
  accStatus : Word := 0
  accCnt : Word := 0
  sumsIn : Word := 0
  sumsOut : Word := 0
  accTileRows : Word := 0
  finResults : Word := 0
  finTileRows : Word := 0
  finStatus : Word := 0
  finCnt : Word := 0
  pruneRecords : Word := 0
  prunePassed : Word := 0
  pruneSquashed : Word := 0
  pruneDiscarded : Word := 0
  pruneDecisions : Word := 0
  graftSwitches : Word := 0
  histRecords : Word := 0
  histSplits : Word := 0
  histRouted : Word := 0
  histStatus : Word := 0
  histCnt : Word := 0
  towerSteps : Word := 0
  towerDense : Word := 0
deriving DecidableEq, Repr

/-- A grove core (R13 to R22, R28): its fence state, accumulator memory with chunk counters, tile table, bank pairs,
sieve tables, contexts, the queues of its lanes, the records of histogram mode not yet in its progress (R311), and what
its graft register shows of the last marker (R284). -/
structure Core where
  regs : CoreRegs := {}
  fenced : Bool := false
  retired : Bool := false
  cause : Status := 0
  errSeq : BitVec 32 := 0
  acc : Tbl Byte := []
  chunk : Tbl Nat := []
  tiles : List Tile := []
  active : Nat := 0
  pair0 : Option Pair := none
  pair1 : Option Pair := none
  sieveActive : Option (Nat × Bytes) := none
  sieveShadow : Option (Nat × Bytes) := none
  headQueue : List HeadIn := []
  headWork : List HeadWork := []
  headOut : List BinMsg := []
  binLane : List BinMsg := []
  sumLane : List SumMsg := []
  ctxs : List Ctx := []
  keyBlocks : List KeyBlock := []
  trained : Nat := 0
  markVersion : Nat := 0
  markMismatch : Bool := false
deriving DecidableEq, Repr

/-! ### Plots -/

/-- A stream open at a plot's entry (R373, R380): its source, the next sequence number, and its slice. -/
structure Stream where
  src : Option Src := none
  next : Nat := 0
  slice : Nat := 4096
deriving DecidableEq, Repr

/-- A GRAFT in progress on a plot (R266 to R277): the job, hitless or drain-and-swap, the versions, and how far: the
marker placed at the entry (on a later device of the chain: come to its first core), a held marker of KIND 1 released,
the cores that the marker has passed, and the switch points moved. -/
structure GraftState where
  job : Nat
  drain : Bool
  keepOld : Bool
  newVersion : Nat
  oldVersion : Nat
  placed : Bool
  released : Bool
  switched : List Nat
  moved : Bool
deriving DecidableEq, Repr

/-- The state codes of a plot (R282). -/
inductive GState where
  | empty | staged | active | ready | grafting | held | draining | reforming
deriving DecidableEq, Repr

/-- How far a restart is (R426, R430, R477): none; stopped and squashed, waiting for a fence's re-placement when `fence`
and for the Restart done of a chain of devices when `remote`; or ended by a failed re-placement (R435). -/
inductive Restart where
  | none
  | stopped (fence remote : Bool)
  | failed
deriving DecidableEq, Repr

/-- A fault detected inside a step and not yet taken up by the FEC (R416, R430). -/
structure Detected where
  core : Nat
  status : Status
  source : Nat
  detail : Bytes
  recordId : Option Nat
  version : Nat
deriving DecidableEq, Repr

/-- A plot of the layout in force (R131, R282, R283, R373, R380, R81). `lastMark` is the last marker placed at its entry, which
a restart places again (R281, R426). -/
structure Plot where
  lay : PlotRec
  state : GState := .empty
  lastDrained : Bool := false
  switchMoved : Bool := false
  heldCore : Option Nat := none
  grafts : BitVec 32 := 0
  drained : BitVec 16 := 0
  markMask : Word := 0
  markSeq : Tbl Nat := []
  activeGrove : Option Grove := none
  shadowGrove : Option Grove := none
  rotHead : Nat := 0
  rotAccept : Nat := 0
  streams : Tbl Stream := []
  arbStream : Nat := 63
  arbLeft : Nat := 0
  replay : List Rec := []
  restart : Restart := .none
  held : Bool := false
  graft : Option GraftState := none
  entryMarker : Option Marker := none
  lastMark : Option Marker := none
  fences : List Detected := []
deriving DecidableEq, Repr

/-- An armed residual or operand of a channel for a plot (R191, R236). -/
structure Armed where
  plot : Nat
  operand : Bool
  addr : Nat
  stride : Nat
  fmt : Nat
  scale : Int
  count : Nat
  const : Option Nat
  opndKind : Nat
deriving DecidableEq, Repr

/-- The source of a stream: a batch's frames from `pos` to `stop`, or a task's containers, each with 1 when it is a
record-ring entry (R374 to R376). `dstKind` is 0 memory, 1 the channel's result ring, 2 no results, 3 record port `dst`;
`port` is the source port, or 16 for a record ring; `gated` while an earlier operation holds one of its tiles. -/
structure Feed where
  src : Src
  chan : Nat
  plot : Nat
  stream : Option Nat
  firstSeq : Nat
  taken : Nat
  accepted : Nat
  nonzero : Nat
  pos : Nat
  stop : Nat
  queue : List (Bytes × Nat)
  ended : Bool
  eccHeader : Bool
  linkLost : Bool
  rowUnreadable : Bool
  keyRange : Bool
  fencedRec : Bool
  dst : Nat
  dstKind : Nat
  slotBytes : Nat
  entrySlice : Nat
  keyGather : Option KeyGather
  residual : Option Armed
  operand : Option Armed
  port : Nat
  udp : Nat
  holds : List Nat
  stopping : Option Nat
  gated : Bool
deriving DecidableEq, Repr

/-! ### Channels, jobs, graphs -/

/-- The states of a channel (R382). -/
inductive ChanState where
  | disabled | running | waiting | halted | blocked | detached
deriving DecidableEq, Repr

/-- What a channel waits for (R385, CHN_STATE.WAIT). -/
inductive Wait where
  | none | event | barrier | frame | stream
deriving DecidableEq, Repr

/-- A taken descriptor that is neither dispatched nor rejected (R378, R382 to R384): its sequence number, the
descriptor as patched, whether an engine refused it at its last offer (R423), and what it last waited for. -/
structure Held where
  seq : Nat
  desc : Desc
  busy : Bool
  wait : Wait
deriving DecidableEq, Repr

/-- The registers and state of a channel (R349 to R351, R370, R385, R389, R413). -/
structure Chan where
  slice : BitVec 16 := 0x10
  refetchLimit : BitVec 8 := 0x10
  haltOnReject : Bool := false
  sqLog2 : BitVec 5 := 4
  sqBase : Word := 0
  state : ChanState := .disabled
  wait : Wait := .none
  head : Nat := 0
  phase : Bool := false
  tail : Nat := 0
  refetches : Nat := 0
  seqNext : Word := 1
  progress : Word := 0
  status : Word := 0
  cnt : Word := 0
  left : BitVec 16 := 0
  debt : BitVec 16 := 0
  records : BitVec 12 := 0
  constTaken : Word := 0
  consts : Tbl Byte := []
  inBase : Word := 0
  inLog2 : BitVec 5 := 0
  inEntryLog2 : BitVec 5 := 0
  inHead : BitVec 16 := 0
  inTail : BitVec 16 := 0
  inRetry : Bool := false
  inFrames : Word := 0
  inCnt : Word := 0
  outBase : Word := 0
  outLog2 : BitVec 4 := 0
  outSlot : BitVec 16 := 0
  outProducer : Word := 0
  outTail : Word := 0
  outConsumed : Word := 0
  cqBase : Word := 0
  cqLog2 : BitVec 5 := 0
  cqConsumed : Word := 0
  cqWritten : Word := 0
  cwAddr : Word := 0
  cw : Word := 0
  cwDone : List Nat := []
  irq : Option (BitVec 7) := none
  peerAddr : Word := 0
  peerValue : BitVec 32 := 0
  peerMode : Bool := false
  blocked : Bool := false
  blockKind : Nat := 0
  blockAddr : Word := 0
  before : ChanState := .running
  hostCnt : Word := 0
  held : Option Held := none
  launch : Option Nat := none
  armed : List Armed := []
  faulted : Bool := false
  owed : Nat := 0
deriving DecidableEq, Repr

/-- How far a dispatched descriptor is. -/
inductive Phase where
  | queued | active | done
deriving DecidableEq, Repr

/-- A dispatched descriptor in progress (R345, R354, R357, R371): its place in the dispatch order, the work left, and
what its completion record will carry. `lastHost` is the last host address that was written for a descriptor without a copy
engine; `flushDone` says that the zero-length reads of its present link are over (R400); `noted`, that an input-log entry has taken
its status into FAULTED (R449); `earlier` is the chain's status before its present link (R358). -/
structure Job where
  id : Nat
  chan : Nat
  seq : Nat
  desc : Desc
  env : Env
  launch : Option Nat
  node : Nat
  links : Nat
  firstOp : Nat
  phase : Phase
  status : Status
  chainStatus : Status
  nflags : NFlags
  detail0 : Nat
  detail1 : Nat
  tiles : List Nat
  plot : Option Nat
  engine : Option Nat
  cluster : Option Nat
  wait : List Nat
  cursor : Nat
  flushed : Bool
  userTag : Nat
  cflags : BitVec 16
  chain : Bool
  hostHeld : Bool
  blocks : List (Nat × Bytes) := []
  refused : Bool := false
  lastHost : Option Nat := none
  flushDone : Bool := false
  noted : Bool := false
  earlier : Status := 0
deriving DecidableEq, Repr

/-- A graph in graph memory (R363 to R368, R386). -/
structure Graph where
  base : Nat
  nodes : List Bytes
  patches : List Nat
  slots : List Nat
deriving DecidableEq, Repr

/-- A live launch (R369, R371); its number is that of its descriptor among the dispatched ones. -/
structure Launch where
  id : Nat
  chan : Nat
  seq : Nat
  desc : Desc
  graph : Nat
  nodes : List Bytes
  next : Nat
  stopped : Bool
  status : Status
  statusNode : Nat
  nflags : NFlags
deriving DecidableEq, Repr

/-! ### Host link, errors, survival, links -/

/-- What goes to the host link and what a hold keeps (R409): a posted write on traffic class 0 with Relaxed Ordering clear
(R394, R399), a descriptor's data write with its ordering bit and class (R397, R450), a message of a vector with the address
and data of its table entry (R395), a peer signal; and a read of CE_FLUSH that a hold keeps waiting (R402). -/
inductive HostOut where
  | write (addr : Nat) (data : Bytes)
  | data (addr : Nat) (data : Bytes) (relaxed : Bool) (tc : Nat) (job : Nat)
  | msix (vector addr data : Nat)
  | peer (chan : Nat) (addr : Nat) (v : Nat)
  | flush (engine : Nat)
deriving DecidableEq, Repr

/-- A stored completion record (R404, R408): its channel and its 32 bytes but for PHASE and the CRC. -/
structure Stored where
  chan : Nat
  seq : Nat
  fields : Bytes
  slot : Nat
deriving DecidableEq, Repr

/-- A copy engine (R397, R398, R402, R414): `last` is the last host address written on each traffic class it used (R400). -/
structure Engine where
  progress : Word := 0
  flushBytes : Word := 0
  last : Tbl (Option Nat) := []
deriving DecidableEq, Repr

/-- An error record's fields (R438). -/
structure ErrRec where
  seq : Nat
  status : Status
  source : Nat
  action : Nat
  unitKind : Nat
  addrHost : Bool
  unit : Nat
  plot : Nat
  chan : Nat
  version : Nat
  recordId : Option Nat
  address : Nat
  descSeq : Nat
  detail : Bytes
deriving DecidableEq, Repr

/-- The ERR block (R440, R443) and the queue of records not yet written. -/
structure Err where
  ringBase : Word := 0
  ringLog2 : BitVec 5 := 0
  written : Word := 0
  consumed : Word := 0
  seqNext : Word := 1
  status : Word := 0
  cnt : Word := 0
  rakeInterval : BitVec 16 := 0xA
  rakeScans : Word := 0
  rakeLimit : BitVec 8 := 4
  fatalState : Nat := 1
  fatalCause : Status := 0
  queue : List ErrRec := []
deriving DecidableEq, Repr

/-- The host link: hold, token, configuration-space bits, translation, and MSI-X: which vectors are masked (as the PCIe
specification resets them), the address and data words of the table, and the messages each masked vector withholds (R395,
R403, R409 to R414, R510). -/
structure HostLink where
  holdOnReset : Bool := false
  altTc : BitVec 3 := 1
  errorVector : BitVec 7 := 0x40
  ats : Bool := false
  busMaster : Bool := false
  token : BitVec 32 := 0
  held : Bool := false
  holds : BitVec 16 := 0
  refused : BitVec 16 := 0
  ucs : List Stored := []
  ucsHigh : BitVec 15 := 0
  masked : BitVec 128 := BitVec.allOnes 128
  msixTable : Tbl Nat := []
  msixPending : Tbl Nat := []
  atc : List Nat := []
  heldWrites : List HostOut := []
  bar4Log2 : Nat := 30
deriving DecidableEq, Repr

/-- A mirror log of the partner side (R454, R455, R457): the bytes used of it, and whether its epoch overflowed. -/
structure MirrorLog where
  used : Nat := 0
  overflow : Bool := false
deriving DecidableEq, Repr

/-- A snapshot slot of the flash: its epoch, the 72 bytes of its header that R459 names, and the base it holds. -/
structure FlashSlot where
  valid : Bool := false
  epoch : Nat := 0
  header : Bytes := []
  base : Bytes := []
deriving DecidableEq, Repr

/-- Training survival (R447 to R462); `lost` while a failure of R457 lasts; `drain` is a drain in progress, with the device, epoch
and plot of its close. -/
structure Survive where
  logBase : Word := 0
  logLog2 : BitVec 5 := 0
  stepNext : Word := 1
  windowStart : BitVec 28 := 0
  windowPages : BitVec 28 := 0
  logMib : BitVec 16 := 0
  valid : Bool := false
  lost : Bool := false
  epochOpen : BitVec 32 := 1
  epochClosed : BitVec 32 := 0
  status : Word := 0
  inStart : BitVec 28 := 0
  inPages : BitVec 28 := 0
  bound : Option Partner := none
  log0 : MirrorLog := {}
  log1 : MirrorLog := {}
  drain : Option (Nat × Nat × Nat) := none
deriving DecidableEq, Repr

/-- The on-module flash, kept across a device reset (R459, R442). -/
structure Flash where
  logArea : Tbl Bytes := []
  slot0 : FlashSlot := {}
  slot1 : FlashSlot := {}
  drains : Nat := 0
  writes : Nat := 0
deriving DecidableEq, Repr

/-- Who awaits the acknowledgement of a unit sent over a chain link (R22, R54, R476): nobody, or a core for a bin-vector
packet, a sum packet, or the reduction packet that ends a descriptor's work on this device. -/
inductive TxSender where
  | nobody
  | bins (core : Nat)
  | sum (core : Nat)
  | reduction (core job : Nat)
deriving DecidableEq, Repr

/-- A frame of a chain link's transmit buffer (R468, R471). -/
structure TxFrame where
  seq : Nat
  cls : Nat
  src : Nat
  dst : Nat
  hops : Nat
  units : Bytes
  blocks : Nat
  senders : List TxSender := []
deriving DecidableEq, Repr

/-- A unit received and not yet taken, with the sequence number and the blocks of its frame (R469, R470). -/
structure RxUnit where
  kind : Nat
  plot : Nat
  src : Nat
  body : Bytes
  cls : Nat
  frame : Nat
  blocks : Nat
deriving DecidableEq, Repr

/-- A unit ready to be sent. -/
structure TxUnit where
  dst : Nat
  src : Nat
  hops : Nat
  cls : Nat
  bytes : Bytes
  sender : TxSender := .nobody
deriving DecidableEq, Repr

/-- A result that waits at a record port for its datagram (R482): the tail and context it comes from (core 256 for a result
that R435 makes without one), its record, its status and flags, and its bytes. -/
structure TxResult where
  plot : Nat
  core : Nat
  row : Nat
  src : Src
  stream : Nat
  seq : Nat
  status : Status
  nflags : NFlags
  bytes : Bytes
deriving DecidableEq, Repr

/-- A result datagram with the addresses it bears (R478, R482). -/
structure Dgram where
  srcMac : Nat
  dstMac : Nat
  ipv6 : Bool
  srcIp : Nat
  dstIp : Nat
  srcUdp : Nat
  dstUdp : Nat
  bytes : Bytes
deriving DecidableEq, Repr

/-- The states of a port (R485). -/
inductive PortState where
  | disabled | training | up | lost
deriving DecidableEq, Repr

/-- A logical port (R464 to R485): registers, LCP session state, and record-port buffers. -/
structure Port where
  mode : BitVec 2 := 0
  split : Bool := false
  pfc : Bool := false
  priority : BitVec 3 := 3
  ipv6 : Bool := false
  mtu : BitVec 14 := 0x5EE
  state : PortState := .disabled
  peer : BitVec 16 := 0xFFFF
  session : BitVec 16 := 0
  progress : Word := 0
  timerUs : BitVec 8 := 0x14
  retryLimit : BitVec 8 := 0x20
  expectDevice : BitVec 12 := 0
  expectAny : Bool := true
  status : Word := 0
  cnt : Word := 0
  srcMac : BitVec 48 := 0
  dstMac : BitVec 48 := 0
  srcIpLo : Word := 0
  srcIpHi : Word := 0
  dstIpLo : Word := 0
  dstIpHi : Word := 0
  udp : BitVec 32 := 0
  egressAck : Word := 0
  rpCnt : Word := 0
  nextSeq : BitVec 32 := 0
  expectSeq : BitVec 32 := 0
  nakSent : Bool := false
  retries : Nat := 0
  txq : List TxUnit := []
  unacked : List TxFrame := []
  credits : List Nat := []
  peerFreed : List Nat := []
  freed : List Nat := []
  rx : List RxUnit := []
  dgrams : List (Nat × Bytes) := []
  txResults : List TxResult := []
  txDgrams : List (Nat × Dgram) := []
  dgramSeq : BitVec 32 := 0
  xoff : Bool := false
  paused : Bool := false
deriving DecidableEq, Repr

/-- A route entry (R466, R485). -/
structure Route where
  port : BitVec 4 := 0
  portValid : Bool := false
  alt : BitVec 4 := 0
  altValid : Bool := false
  usingAlt : Bool := false
  down : Bool := false
deriving DecidableEq, Repr

/-- A request to another device whose answer is awaited, by tag (R469). -/
structure Pending where
  tag : Nat
  kind : Nat
  job : Nat
  dst : Nat
  addr : Nat
  bytes : Nat
  epoch : Nat
deriving DecidableEq, Repr

/-- A table engine (R342). -/
structure TabEngine where
  progress : Word := 0
  status : Word := 0
  cnt : Word := 0
deriving DecidableEq, Repr

/-- A cluster's row cache: the cached rows by address, and its counters (R319, R342). -/
structure RowCache where
  rows : List (Nat × Bytes) := []
  hits : Word := 0
  misses : Word := 0
deriving DecidableEq, Repr

/-- What the rake holds of one engine: the counter at the last scan, the unchanged-scan count (R422), and the scans at which
it had work pending and stood still, excused or not (R425). -/
structure RakeEntry where
  last : Nat := 0
  count : Nat := 0
  still : Nat := 0
deriving DecidableEq, Repr

/-- The level of a pin or crossing at a boundary cell in test mode (R530, R534). -/
inductive PinLevel where
  | driven (high : Bool)
  | electricalIdle
  | inactive
  | highImpedance
  | noPin
deriving DecidableEq, Repr

/-- What the block puts out: host-bound writes and messages, frames, values returned to reads, zero-length reads (R400), Invalidate
Completions (R403), bits at TDO, and the levels that the boundary cells of the five dies give (R534). -/
inductive Out where
  | host (o : HostOut)
  | frame (port etherType : Nat) (bytes : Bytes)
  | datagram (port : Nat) (g : Dgram)
  | pfc (port priority : Nat) (xoff : Bool)
  | readValue (bytes : Bytes)
  | zeroRead (addr : Nat) (tc : Nat)
  | invalidated (addr bytes : Nat)
  | tdo (bits : List Bool)
  | pins (levels : List (List PinLevel))
deriving DecidableEq, Repr

/-- The digital part of the device: all that a device reset clears, the flash apart. `remoteResults` are the results written to
another device's HBM, each with the tags of its writes that are not yet acknowledged (R232, R469). -/
structure Dev where
  deviceId : Nat := 0
  layout : Option Layout := none
  layoutImage : Bytes := []
  mem : Tbl Byte := []
  cores : Tbl Core := []
  plots : Tbl (Option Plot) := []
  feeds : List Feed := []
  chans : Tbl Chan := []
  rrChan : Nat := 63
  inTurn : Bool := false
  jobs : List Job := []
  nextJob : Nat := 0
  events : Tbl Nat := []
  graphs : Tbl (Option Graph) := []
  graphLaunches : Tbl Word := []
  taskLast : Tbl (Nat × Nat) := []
  launches : List Launch := []
  fecProgress : Word := 0
  windowWrites : BitVec 16 := 0
  engines : Tbl Engine := []
  host : HostLink := {}
  err : Err := {}
  surv : Survive := {}
  flash : Flash := {}
  ports : Tbl Port := []
  routes : Tbl Route := []
  maxHops : BitVec 6 := 0x10
  pendings : List Pending := []
  nextTag : Nat := 0
  remoteResults : List (List Nat × TxResult) := []
  detected : List Detected := []
  tabs : Tbl TabEngine := []
  caches : Tbl RowCache := []
  rake : Tbl RakeEntry := []
  restartWait : List Nat := []
  bar4Base : BitVec 10 := 0
  badAccess : Word := 0
  dbgSel : Word := 0
  debugEnable : Bool := false
  debugOn : Bool := false
  debugEntries : BitVec 16 := 0
  free : Nat := 0
  out : List Out := []
deriving DecidableEq, Repr

/-! ### The management controller's side -/

/-- The power states (R490). -/
inductive PowerState where
  | off | standby | on
deriving DecidableEq, Repr

/-- Canary and wear state of one core (R503 to R508), in MC flash: drift in 0.01 % units, remaining hours, WORN, and its
equivalent hours in units of 10^-6 h. -/
structure CoreLife where
  drift : Nat := 0
  remain : Nat := 0xFFFFFFFF
  worn : Bool := false
  hours : Nat := 0
deriving DecidableEq, Repr

/-- The corrected errors of an HBM stack (R506, R508): in all, of the present hour ON, and of the 191 hours ON before it, newest
first. -/
structure HbmLife where
  total : Nat := 0
  present : Nat := 0
  past : List Nat := []
deriving DecidableEq, Repr

/-- One of the five test access ports (R529 to R533): its instruction, the boundary register's update latches, and the falling edges
of TCK since its last scan, in Run-Test/Idle. -/
structure Tap where
  ir : Nat := 1
  update : List Bool := []
  edges : Nat := 0
deriving DecidableEq, Repr

/-- The power side of the MC (R487 to R497): power state, the policy and trip latch of MC flash, VDD codes, limits, input
readings, averages in W, the samples of the last 120 s in µW, newest first, and the sample number of the last raise; `input` is the voltage
at the blade in mV, and `uvlo` says that it last fell below the undervoltage lockout (R487). -/
structure Power where
  state : PowerState := .on
  input : Nat := 56000
  uvlo : Bool := false
  autoOn : Bool := true
  trip : Bool := false
  request : Nat := 0x14
  target : Nat := 0
  actual : Nat := 0
  capReason : Nat := 0
  limitHost : Nat := 0xC80
  limitRack : Nat := 0xC80
  effective : Nat := 0xC80
  milliVolts : Nat := 0
  centiAmps : Nat := 0
  watts : Nat := 0
  w1s : Nat := 0
  wTau : Nat := 0
  wPeak : Nat := 0
  samples : List Nat := []
  sampleNo : Nat := 0
  lastRaise : Nat := 0
  status : Word := 0
  cnt : Word := 0
deriving DecidableEq, Repr

/-- The coolant side of the MC (R498 to R502): sensors, valve, loop model, targets, forecast, the conditions in force, and
the sums of the present hour (R504). -/
structure Cool where
  tjCluster : List Int := [0, 0, 0, 0]
  tjCore : List Int := []
  tjHub : Int := 0
  inlet : Int := 0
  outlet : Int := 0
  flow : Nat := 0
  valve : Nat := 0xC8
  valveFixed : Bool := false
  valveActual : Nat := 0
  delayS : Nat := 0x14
  tauS : Nat := 0x3C
  gain : Nat := 0
  horizonS : Nat := 0x3C
  tjTarget : Nat := 0x55
  outletMax : Nat := 0x3C
  tjForecast : Int := 0
  pCool : Nat := 0
  headroom : Int := 0
  sampleNo : Nat := 0
  flowLow : Bool := false
  faulty : Bool := false
  status : Word := 0
  cnt : Word := 0
  hourTj : List Int := []
  hourVdd : Nat := 0
  hourCool : Nat := 0
  hourPower : Nat := 0
deriving DecidableEq, Repr

/-- Power, coolant, life, management and test state: the management controller's, its flash included (R437, R487 to R508,
R128, R129, R520, R528 to R533). -/
structure Mc where
  pwr : Power := {}
  cool : Cool := {}
  life : Tbl CoreLife := []
  hoursOn : Nat := 0
  valveMoves : Nat := 0
  hbm : Tbl HbmLife := []
  slotId : BitVec 4 := 0
  keys : Tbl Bytes := []
  requireSigned : Bool := false
  permit : Bool := false
  firmware : Bytes := []
  fences : Tbl Nat := []
  testMode : Bool := false
  taps : Tbl Tap := []
deriving DecidableEq, Repr

/-- The whole state: the management side, the digital side, and the commands that wait, first in, first out. -/
structure State where
  mc : Mc
  dev : Dev
  pending : List Instr
deriving DecidableEq, Repr

/-- The machine right after reset: every register at the value of its reset column, no command waiting. -/
def State.reset : State := { mc := {}, dev := {}, pending := [] }

end Sys2Proof.Machine
end

