-- ==== Sys2Proof/Machine/Ops.lean ====
section
/-! DEFINITION. The named operations over the state: units by number, counter words, flags, error records, host-bound
output. -/
namespace Sys2Proof.Machine

/-! ### Status codes shared by several chapters (R415) -/

/-- OPCODE_INVALID. -/
def stOpcodeInvalid : Status := 0x1001
/-- DESCRIPTOR_INVALID. -/
def stDescriptorInvalid : Status := 0x1002
/-- STATE_CONFLICT. -/
def stStateConflict : Status := 0x1003
/-- TILE_HELD. -/
def stTileHeld : Status := 0x1004
/-- CHANNEL_CLASS. -/
def stChannelClass : Status := 0x1005
/-- CHAIN_INVALID. -/
def stChainInvalid : Status := 0x1006
/-- STALE_COMMAND. -/
def stStaleCommand : Status := 0x1007
/-- ADDRESS_INVALID. -/
def stAddressInvalid : Status := 0x1008
/-- GRAFT_DRAINED. -/
def stGraftDrained : Status := 0x0060
/-- GRAFT_NOT_HITLESS. -/
def stGraftNotHitless : Status := 0x1060
/-- GRAFT_MISMATCH. -/
def stGraftMismatch : Status := 0x1061
/-- PRUNED_RESULT. -/
def stPrunedResult : Status := 0x2050
/-- SATURATED. -/
def stSaturated : Status := 0x2020
/-- NAN_RESULT. -/
def stNanResult : Status := 0x2021
/-- KEY_RANGE. -/
def stKeyRange : Status := 0x2080
/-- EVENT_STALE. -/
def stEventStale : Status := 0x2090
/-- BATCH_CONDITIONS. -/
def stBatchConditions : Status := 0x2091
/-- PATH_CHECK. -/
def stPathCheck : Status := 0x4001
/-- CORE_FENCED. -/
def stCoreFenced : Status := 0x4002
/-- STALLED. -/
def stStalled : Status := 0x4003
/-- COMPLETION_BLOCKED. -/
def stCompletionBlocked : Status := 0x4010
/-- HOST_ACCESS_FAULT. -/
def stHostAccessFault : Status := 0x4011
/-- NODE_CHECK. -/
def stNodeCheck : Status := 0x4021
/-- CODE_VIOLATION. -/
def stCodeViolation : Status := 0x4030
/-- ECC_UNCORRECTABLE. -/
def stEcc : Status := 0x4031
/-- CHECK_VALUE. -/
def stCheckValue : Status := 0x4032
/-- SUM_PACKET_CHECK. -/
def stSumPacketCheck : Status := 0x4040
/-- RESIDUAL_UNREADABLE. -/
def stResidualUnreadable : Status := 0x4041
/-- RESULT_CHECK_FAULT. -/
def stResultCheckFault : Status := 0x4050
/-- OPERAND_UNREADABLE. -/
def stOperandUnreadable : Status := 0x4051
/-- ROW_UNREADABLE. -/
def stRowUnreadable : Status := 0x4080
/-- LINK_LOST. -/
def stLinkLost : Status := 0x40B0
/-- MIRROR_LOST. -/
def stMirrorLost : Status := 0x40C0

/-! ### Words of counters and flags -/

/-- A word with 16-bit lane `i` one higher, wrapping in the lane (R75, R110). -/
def laneBump (w : Word) (i : Nat) : Word :=
  let v := w.toNat
  let l := bits v (16 * i) 16
  BitVec.ofNat 64 (v - l * 2 ^ (16 * i) + (l + 1) % 65536 * 2 ^ (16 * i))

/-- A word with 32-bit lane `i` raised by `n`, wrapping in the lane. -/
def laneAdd32 (w : Word) (i n : Nat) : Word :=
  let v := w.toNat
  let l := bits v (32 * i) 32
  BitVec.ofNat 64 (v - l * 2 ^ (32 * i) + (l + n) % 2 ^ 32 * 2 ^ (32 * i))

/-- A word with bit `i` set. -/
def setBit (w : Word) (i : Nat) : Word := w ||| BitVec.ofNat 64 (2 ^ i)

/-- A W1C register after a write (R6): each 1 written clears its bit. -/
def w1c (w v : Word) : Word := w &&& ~~~v

/-- A pair of status word and counter word after event `i` (R7). -/
def event (st cnt : Word) (i : Nat) : Word × Word := (setBit st i, laneBump cnt i)

/-- The 4 KiB pages that `n` bytes from an address lie in. -/
def pagesOf (a n : Nat) : List Nat := if n = 0 then [] else (List.range ((a % 4096 + n + 4095) / 4096)).map fun i => a / 4096 + i

/-- The host pages that a write touches. -/
def HostOut.pages : HostOut → List Nat
  | .write a b => pagesOf a b.length
  | .data a b _ _ _ => pagesOf a b.length
  | .peer _ a _ => pagesOf a 4
  | .msix _ _ _ => []
  | .flush _ => []

/-! ### Units by number -/

namespace Dev

/-- Core `n`. -/
def core (d : Dev) (n : Nat) : Core := Tbl.get {} n d.cores
/-- Core `n` replaced. -/
def setCore (d : Dev) (n : Nat) (c : Core) : Dev := { d with cores := Tbl.set {} n c d.cores }
/-- Core `n` changed. -/
def updCore (d : Dev) (n : Nat) (f : Core → Core) : Dev := d.setCore n (f (d.core n))
/-- Channel `c`. -/
def chan (d : Dev) (c : Nat) : Chan := Tbl.get {} c d.chans
/-- Channel `c` replaced. -/
def setChan (d : Dev) (c : Nat) (x : Chan) : Dev := { d with chans := Tbl.set {} c x d.chans }
/-- Channel `c` changed. -/
def updChan (d : Dev) (c : Nat) (f : Chan → Chan) : Dev := d.setChan c (f (d.chan c))
/-- The plot with an ID in the layout in force. -/
def plot (d : Dev) (p : Nat) : Option Plot := Tbl.get none p d.plots
/-- Plot `p` replaced. -/
def setPlot (d : Dev) (p : Nat) (x : Plot) : Dev := { d with plots := Tbl.set none p (some x) d.plots }
/-- Plot `p` changed, if there is one. -/
def updPlot (d : Dev) (p : Nat) (f : Plot → Plot) : Dev :=
  match d.plot p with | none => d | some x => d.setPlot p (f x)
/-- Port `p`. -/
def port (d : Dev) (p : Nat) : Port := Tbl.get {} p d.ports
/-- Port `p` changed. -/
def updPort (d : Dev) (p : Nat) (f : Port → Port) : Dev := { d with ports := Tbl.set {} p (f (d.port p)) d.ports }
/-- Copy engine `e`. -/
def engine (d : Dev) (e : Nat) : Engine := Tbl.get {} e d.engines
/-- Copy engine `e` changed. -/
def updEngine (d : Dev) (e : Nat) (f : Engine → Engine) : Dev :=
  { d with engines := Tbl.set {} e (f (d.engine e)) d.engines }
/-- Table engine `t`. -/
def tabEng (d : Dev) (t : Nat) : TabEngine := Tbl.get {} t d.tabs
/-- Table engine `t` changed. -/
def updTab (d : Dev) (t : Nat) (f : TabEngine → TabEngine) : Dev := { d with tabs := Tbl.set {} t (f (d.tabEng t)) d.tabs }
/-- The row cache of cluster `k`. -/
def cache (d : Dev) (k : Nat) : RowCache := Tbl.get {} k d.caches
/-- The row cache of cluster `k` changed. -/
def updCache (d : Dev) (k : Nat) (f : RowCache → RowCache) : Dev :=
  { d with caches := Tbl.set {} k (f (d.cache k)) d.caches }
/-- The graph with an ID. -/
def graph (d : Dev) (g : Nat) : Option Graph := Tbl.get none g d.graphs
/-- Graph `g` replaced or removed. -/
def setGraph (d : Dev) (g : Nat) (x : Option Graph) : Dev := { d with graphs := Tbl.set none g x d.graphs }
/-- The value of an event (R359). -/
def eventVal (d : Dev) (i : Nat) : Nat := Tbl.get 0 i d.events
/-- An event's value set. -/
def setEvent (d : Dev) (i v : Nat) : Dev := { d with events := Tbl.set 0 i v d.events }
/-- The dispatched descriptor with a number. -/
def job (d : Dev) (id : Nat) : Option Job := d.jobs.find? fun j => j.id = id
/-- A dispatched descriptor changed. -/
def updJob (d : Dev) (id : Nat) (f : Job → Job) : Dev :=
  { d with jobs := d.jobs.map fun j => if j.id = id then f j else j }
/-- The feed of a source. -/
def feed (d : Dev) (s : Src) : Option Feed := d.feeds.find? fun f => f.src = s
/-- A feed changed. -/
def updFeed (d : Dev) (s : Src) (f : Feed → Feed) : Dev :=
  { d with feeds := d.feeds.map fun x => if x.src = s then f x else x }
/-- Something put out. -/
def emit (d : Dev) (o : Out) : Dev := { d with out := d.out ++ [o] }
/-- The block is device-fatal (R441). -/
def fatal (d : Dev) : Bool := d.err.fatalState == 2
/-- The FEC takes and dispatches: neither resetting nor fatal (R441, R442). -/
def running (d : Dev) : Bool := d.err.fatalState == 0

/-- The translation of each page that a host access used is in the translation cache while ATS is on (R403). -/
def cachePages (d : Dev) (l : List Nat) : Dev :=
  if d.host.ats then { d with host := { d.host with atc := l ++ d.host.atc.filter fun p => !l.contains p } } else d

/-- A host read of `n` bytes is made (R403). -/
def hostRead (d : Dev) (a n : Nat) : Dev := d.cachePages (pagesOf a n)

/-- A write, message or peer signal toward the host: kept during a hold (R409), not made when fatal (R441). -/
def toHost (d : Dev) (o : HostOut) : Dev :=
  if d.fatal then d
  else if d.host.held then { d with host := { d.host with heldWrites := d.host.heldWrites ++ [o] } }
  else (d.cachePages o.pages).emit (.host o)

/-- The message of a vector: the address and the data of its table entry (R395, R510). -/
def msixMsg (d : Dev) (v : Nat) : HostOut := .msix v (Tbl.get 0 (2 * v) d.host.msixTable) (Tbl.get 0 (2 * v + 1) d.host.msixTable)

/-- A message on an MSI-X vector; a masked vector withholds each of its messages, its pending bit set (R395). -/
def msix (d : Dev) (v : Nat) : Dev :=
  if d.host.masked.getLsbD v then
    { d with host := { d.host with msixPending := Tbl.upd 0 v (· + 1) d.host.msixPending } }
  else d.toHost (d.msixMsg v)

/-- A message on the error vector (R395). -/
def errVector (d : Dev) : Dev := d.msix d.host.errorVector.toNat

/-- An error record made (R438, R440): it takes the next SEQ and enters the queue of 64, or is dropped and counted.
A class 4 record sets RECOVERED (R443). With no ring set up, the error vector is signalled at once. -/
def report (d : Dev) (r : ErrRec) : Dev :=
  let e := d.err
  let r := { r with seq := e.seqNext.toNat }
  let (st, cnt) := if r.status.cls = 4 then event e.status e.cnt 0 else (e.status, e.cnt)
  if e.queue.length < 64 then
    let d := { d with err := { e with seqNext := e.seqNext + 1, status := st, cnt := cnt, queue := e.queue ++ [r] } }
    if e.ringLog2 = 0 then d.errVector else d
  else
    { d with err := { e with seqNext := e.seqNext + 1, status := setBit st 3, cnt := laneBump cnt 2 } }

end Dev

/-- The VERSION of a grove slot; zero for none. -/
def versionOf (g : Option Grove) : Nat := (g.map fun g => g.info.version).getD 0

/-- An error record with nothing but a status, a source and an action. -/
def errRec (status : Status) (source action unitKind unit : Nat) : ErrRec :=
  { seq := 0, status := status, source := source, action := action, unitKind := unitKind, addrHost := false,
    unit := unit, plot := 0xFFFF, chan := 0xFF, version := 0, recordId := none, address := 0, descSeq := 0,
    detail := [] }

/-- A channel after one of the events REJECTED, REFETCH, DOORBELL_BAD, CTRL_REFUSED, by its bit (R385). -/
def Chan.event (c : Chan) (i : Nat) : Chan := { c with status := setBit c.status i, cnt := laneBump c.cnt i }

/-- A refused control or configuration write (R382, R385). -/
def Chan.refuse (c : Chan) : Chan := c.event 3

/-- The MSI-X vector of channel `n` (R413): the written one, or the channel's own number. -/
def Chan.vector (c : Chan) (n : Nat) : Nat := match c.irq with | none => n | some v => v.toNat

/-! ### A core's flags, pairs and rows -/

/-- CORE_NFLAGS with the flags raised, and one more in the counter lanes of those that are new to their scope (R75). -/
def bumpFlags (r : CoreRegs) (f fresh : NFlags) : CoreRegs :=
  let on (i : Nat) : Bool := fresh.getLsbD i
  let a := (List.range 4).foldl (fun w i => if on i then laneBump w i else w) r.nfCntA
  let b := (List.range 3).foldl (fun w i => if on (i + 4) then laneBump w i else w) r.nfCntB
  { r with nflags := r.nflags ||| BitVec.ofNat 64 (f.toNat % 128), nfCntA := a, nfCntB := b }

namespace Core

/-- A core after flags `new` are raised in a scope that holds `old` (R73, R75). -/
def raise (c : Core) (old new : NFlags) : Core := { c with regs := bumpFlags c.regs new (new &&& ~~~old) }

/-- A core after flags are raised outside any record's or tile's scope: seen in CORE_NFLAGS, not counted (R75). -/
def note (c : Core) (f : NFlags) : Core := c.raise f f

/-- A bank pair of a core. -/
def pair (c : Core) (i : Nat) : Option Pair := if i = 0 then c.pair0 else c.pair1

/-- A bank pair replaced. -/
def setPair (c : Core) (i : Nat) (p : Option Pair) : Core := if i = 0 then { c with pair0 := p } else { c with pair1 := p }

/-- The active pair. -/
def activePair (c : Core) : Option Pair := c.pair c.active

/-- The shadow pair. -/
def shadowPair (c : Core) : Option Pair := c.pair (1 - c.active)

/-- Progress by `n` (R51); the counters of a fenced core stand. -/
def work (c : Core) (n : Nat) : Core :=
  if c.fenced then c else { c with regs := { c.regs with progress := c.regs.progress + BitVec.ofNat 64 n } }

/-- `n` bytes of accumulator memory. -/
def accRead (c : Core) (a n : Nat) : Bytes := Tbl.getRange 0 c.acc a n

/-- Bytes written to accumulator memory. -/
def accWrite (c : Core) (a : Nat) (b : Bytes) : Core := { c with acc := Tbl.setRange 0 a b c.acc }

/-- The context of a record, if the core holds one. -/
def ctx (c : Core) (rid : Nat) : Option Ctx := c.ctxs.find? fun x => x.recordId = rid

/-- The first context that satisfies a test, changed; the others stay. -/
def updCtx (c : Core) (row : Nat) (f : Ctx → Ctx) : Core :=
  { c with ctxs := c.ctxs.map fun x => if x.row = row then f x else x }

end Core

/-- The running-sum formats of a pair: FX48 with its scale, or FP32 (R173). -/
def GroveInfo.sumFmt (g : GroveInfo) : Fmt := if g.valueFmt = 1 then .fx48 else .fp32

/-- The byte, in a record row, of running-sum column or total `j`, and its width (R173). -/
def sumColumn (g : GroveInfo) (j : Nat) : Nat × Nat :=
  match g.valueFmt with
  | 0 => (4 * j, 4)
  | 1 => (8 * j, 8)
  | _ => (alignUp (2 * g.outputs) 8 + 4 * j, 4)

/-- The running-sum slot `j` of a record row (R127, R173). -/
def readSum (c : Core) (g : GroveInfo) (row j : Nat) : Nat :=
  let (o, w) := sumColumn g j
  le (c.accRead (256 * row + o) w)

/-- The running-sum slot `j` of a record row written. -/
def writeSum (c : Core) (g : GroveInfo) (row j v : Nat) : Core :=
  let (o, w) := sumColumn g j
  c.accWrite (256 * row + o) (toLe w v)

/-- Adding two running-sum slots (R197): FP32 with RNE, or FX48 modulo 2^64. -/
def sumAdd (g : GroveInfo) (a b : Nat) : Nat × NFlags :=
  if g.valueFmt = 1 then (fxAdd a b, 0) else fAdd .fp32 .rne a b

/-! ### Plots -/

/-- The cores of a plot's chain on this device, in chain order. -/
def Plot.cores (p : Plot) : List Nat := p.lay.entries.map (·.core)
/-- The heads in rotation order (R81). -/
def Plot.heads (p : Plot) : List Nat :=
  let hs := p.lay.entries.filter (·.head)
  (tab hs.length fun i => (hs.find? fun e => e.headIndex = i).map (·.core)).filterMap id
/-- The first core of the chain on this device. -/
def Plot.first (p : Plot) : Option Nat := p.cores.head?
/-- The last core of the chain on this device. -/
def Plot.last (p : Plot) : Option Nat := p.cores.getLast?
/-- The core after a core in the chain, on this device. -/
def Plot.after (p : Plot) (n : Nat) : Option Nat := ((p.cores.dropWhile (· ≠ n)).drop 1).head?
/-- The plot's chain starts on this device. -/
def Plot.startsHere (p : Plot) : Bool := p.lay.prevDevice == 0xFFFF
/-- The plot's chain ends on this device. -/
def Plot.endsHere (p : Plot) : Bool := p.lay.nextDevice == 0xFFFF

/-- The plot that a core belongs to, with its ID. -/
def Dev.plotOf (d : Dev) (n : Nat) : Option (Nat × Plot) :=
  d.plots.findSome? fun (i, p) => match p with
    | some p => if p.cores.contains n then some (i, p) else none
    | none => none

/-- The plots that exist, with their IDs. -/
def Dev.plotList (d : Dev) : List (Nat × Plot) :=
  d.plots.filterMap fun (i, p) => p.map fun x => (i, x)

/-- A state with its digital part changed: only while the device is ON is there one to change (R489, R490). -/
def onAny (f : Dev → Dev) (s : State) : Host.Outcome State Fault Refusal :=
  .next { s with dev := if s.mc.pwr.state = .on then f s.dev else s.dev }

/-- The device works: it is ON, not in test mode, and not device-fatal (R441, R490, R528). -/
def State.live (s : State) : Bool := s.mc.pwr.state == .on && !s.mc.testMode && !s.dev.fatal

/-- A state with its digital part changed by work of the device. -/
def onDev (f : Dev → Dev) (s : State) : Host.Outcome State Fault Refusal :=
  .next { s with dev := if s.live then f s.dev else s.dev }

/-- A state with its management part changed. -/
def onMc (f : Mc → Mc) (s : State) : Host.Outcome State Fault Refusal := .next { s with mc := f s.mc }

end Sys2Proof.Machine
end

