-- ==== Sys2Proof/Machine/LinkTx.lean ====
section
/-! DEFINITION. Sending over chain links: routes, units, frames, credits and the transmit buffer (R466, R468 to
R471). -/
namespace Sys2Proof.Machine

namespace Dev

/-- The route entry of a destination device. -/
def route (d : Dev) (dst : Nat) : Route := Tbl.get {} dst d.routes

/-- A destination is present in the routing table (R466). -/
def routed (d : Dev) (dst : Nat) : Bool := let r := d.route dst; r.portValid || r.altValid

/-- The port that traffic to a destination takes now; none where no port is usable (R473, R485). -/
def routePort (d : Dev) (dst : Nat) : Option Nat :=
  let r := d.route dst
  if r.down then none
  else if r.usingAlt then (if r.altValid then some r.alt.toNat else none)
  else if r.portValid then some r.port.toNat
  else if r.altValid then some r.alt.toNat else none

end Dev

/-- The EtherType of LCP frames (R468). -/
def lcpType : Nat := 0x8B4C

/-- The bytes of an LCP frame (R468). -/
def lcpFrame (type cls hops seq ack src dst : Nat) (credits : List Nat) (session : Nat) (units : Bytes) : Bytes :=
  let h := toLe 1 1 ++ toLe 1 type ++ toLe 1 cls ++ toLe 1 hops ++ toLe 4 seq ++ toLe 4 ack ++ toLe 2 src ++
    toLe 2 dst ++ (tab 4 fun i => toLe 2 (at' 0 credits i)).flatten ++ toLe 2 units.length ++ toLe 2 session ++ toLe 4 0
  h ++ units ++ toLe 4 (crc32c (h ++ units))

/-- The 64-byte blocks a frame of so many unit bytes takes (R470). -/
def frameBlocks (n : Nat) : Nat := (32 + n + 4 + 63) / 64

/-- The bytes of a DATA frame as a port sends it now. -/
def Port.dataFrame (p : Port) (f : TxFrame) : Bytes :=
  lcpFrame 0 f.cls f.hops f.seq p.expectSeq.toNat f.src f.dst p.freed p.session.toNat f.units

/-- The units of a port's queue that fill one frame: from the first unit of a class, those of the class that have its
destination, source and hops, in order and up to 8,192 bytes (R469, R470); and the rest. Units of the other classes are
passed over. -/
def takeUnits (u : TxUnit) : Nat → List TxUnit → List TxUnit × List TxUnit
  | _, [] => ([], [])
  | room, v :: vs =>
    if v.cls ≠ u.cls then let (t, rest) := takeUnits u room vs; (t, v :: rest)
    else if v.dst = u.dst && v.src = u.src && v.hops = u.hops && v.bytes.length ≤ room then
      let (t, rest) := takeUnits u (room - v.bytes.length) vs
      (v :: t, rest)
    else ([], v :: vs)

/-- The physical port of a logical one runs split (R464). -/
def Dev.isSplit (d : Dev) (pn : Nat) : Bool := (d.port (pn - pn % 2)).split

/-- The transmit buffer of a port (R464). -/
def Dev.txBytes (d : Dev) (pn : Nat) : Nat := if d.isSplit pn then 2 ^ 19 else 2 ^ 20

/-- The bytes of a DATA frame with so many bytes of units (R468). -/
def lcpBytes (n : Nat) : Nat := 32 + n + 4

/-- The bytes that a chain link's transmit buffer holds: its unacknowledged frames (R471). -/
def Port.txUsed (p : Port) : Nat := (p.unacked.map fun f => lcpBytes f.units.length).sum

/-- One attempt to send the frame of one class: the first waiting unit of the class, with what fits beside it, while
the class holds credits and the transmit buffer has room (R464, R470, R471). -/
def sendClass (pn : Nat) (d : Dev) (cls : Nat) : Dev :=
  let p := d.port pn
  match p.txq.find? (fun u => u.cls = cls) with
  | none => d
  | some u =>
    let (us, rest) := takeUnits u 8192 p.txq
    let b := (us.map (·.bytes)).flatten
    let blocks := frameBlocks b.length
    let have' := at' 0 p.credits cls
    if p.state ≠ .up || us.isEmpty || have' < blocks || d.txBytes pn < p.txUsed + lcpBytes b.length then d
    else
      let f : TxFrame := { seq := p.nextSeq.toNat, cls := cls, src := u.src, dst := u.dst, hops := u.hops, units := b, blocks := blocks
                           senders := us.map (·.sender) }
      let p' := { p with txq := rest, unacked := p.unacked ++ [f], nextSeq := p.nextSeq + 1,
                         credits := setAt p.credits cls (have' - blocks), progress := p.progress + 1 }
      (d.updPort pn fun _ => p').emit (.frame pn lcpType (p.dataFrame f))

/-- A CONTROL (1) or NAK (2) frame: what this side expects next and the blocks it has freed (R468, R470, R471). -/
def sendReport (d : Dev) (pn type : Nat) : Dev :=
  let p := d.port pn
  if p.state ≠ .up then d
  else
    (d.updPort pn fun p => { p with progress := p.progress + 1 }).emit
      (.frame pn lcpType (lcpFrame type 0 0 0 p.expectSeq.toNat d.deviceId p.peer.toNat p.freed p.session.toNat []))

/-- A class of a port sends frame after frame until it can send no more (R33, R470). -/
def sendClassAll (pn : Nat) (d : Dev) (cls : Nat) : Dev :=
  (List.replicate (d.port pn).txq.length cls).foldl (sendClass pn) d

/-- Every class of a port sends what it can (R470, R471). -/
def pump (d : Dev) (pn : Nat) : Dev := [3, 0, 1, 2].foldl (sendClassAll pn) d

/-- A unit's bytes: its header, then its body padded to 8 (R469). -/
def unitBytes (kind plot : Nat) (body : Bytes) : Bytes :=
  let b := body ++ List.replicate (alignUp body.length 8 - body.length) 0#8
  toLe 1 kind ++ toLe 1 0 ++ toLe 2 plot ++ toLe 4 b.length ++ b

/-- The class of a unit kind (R469). -/
def unitClass (kind : Nat) : Nat := if kind ≤ 3 then 0 else if kind ≤ 5 then 1 else if kind ≤ 12 then 2 else 3

/-- A unit handed to the link that leads to a device; dropped where no route is usable (R474 says what its sender
makes of that). -/
def sendUnit (d : Dev) (dst kind plot : Nat) (body : Bytes) (sender : TxSender := .nobody) : Dev :=
  match d.routePort dst with
  | none => d
  | some pn =>
    let u : TxUnit := { dst := dst, src := d.deviceId, hops := 0, cls := unitClass kind, bytes := unitBytes kind plot body
                        sender := sender }
    pump (d.updPort pn fun p => { p with txq := p.txq ++ [u] }) pn

/-- An Accept unit toward the head of a plot (R469, R477): it takes the place of one for the same stream that still waits, so
that a DATA frame carries at most one for each stream. -/
def sendAcceptUnit (d : Dev) (dst plot stream seq : Nat) : Dev :=
  let body := toLe 1 stream ++ toLe 3 0 ++ toLe 4 seq
  let new := unitBytes 12 plot body
  let same (u : TxUnit) : Bool := u.dst == dst && u.src == d.deviceId && u.bytes.take 9 == new.take 9
  match d.routePort dst with
  | none => d
  | some pn =>
    if (d.port pn).txq.any same then
      pump (d.updPort pn fun p => { p with txq := p.txq.map fun u => if same u then { u with bytes := new } else u }) pn
    else sendUnit d dst 12 plot body

/-! ### Lanes (R15, R29, R198, R200; log 44) -/

/-- A lane within a cluster that holds so many packets has room for one more. -/
def laneFree (n : Nat) : Bool := n == 0 || decide (n ≤ Config.laneDepth)

/-- The bytes of a bin-lane message. -/
def BinMsg.size : BinMsg → Nat
  | .bins p _ _ _ _ => 0x18 + alignUp (2 * p.bins.length) 8 + alignUp (4 * p.dense.length) 8
  | .marker b _ _ => b.length

/-- The core that sent a bin-lane message. -/
def BinMsg.sender : BinMsg → Nat
  | .bins _ _ _ _ s => s
  | .marker _ _ s => s

/-- The bytes of one lane kind that wait in a cluster's chain buffers (R29): what the lanes of its cores hold from other
dies and devices. -/
def Dev.chainUsed (d : Dev) (cluster : Nat) (bin : Bool) : Nat :=
  ((d.cores.filter fun x => x.1 / 64 = cluster).map fun x =>
    if bin then ((x.2.binLane.filter fun m => m.sender / 64 ≠ cluster).map (·.size)).sum
    else ((x.2.sumLane.filter fun m => m.sender / 64 ≠ cluster).map (·.bytes.length)).sum).sum

/-- The bytes of a cluster's chain buffers that each lane kind has: half of 8 MiB, so that neither blocks the other (R29,
R198; log 44). -/
def chainHalf : Nat := 4 * 2 ^ 20

/-- A lane into core `k` has room for `size` bytes from core `m` (256: another device). -/
def Dev.laneRoom (d : Dev) (k m : Nat) (bin : Bool) (size : Nat) : Bool :=
  if m / 64 = k / 64 then laneFree (if bin then (d.core k).binLane.length else (d.core k).sumLane.length)
  else decide (d.chainUsed (k / 64) bin + size ≤ chainHalf)

/-- The link toward a device has room for a unit of chain traffic: what waits and what is unacknowledged fit its transmit
buffer (R464, R471). -/
def Dev.linkRoom (d : Dev) (dst size : Nat) : Bool :=
  match d.routePort dst with
  | none => true
  | some pn => ((d.port pn).txq.map (·.bytes.length)).sum + (d.port pn).txUsed + size ≤ d.txBytes pn

/-- The next core of a chain, or the link to the next device, has room for a packet of core `n`; the chain's last core has
nobody to send to. -/
def Dev.nextRoom (d : Dev) (p : Plot) (n : Nat) (bin : Bool) (size : Nat) : Bool :=
  match p.after n with
  | some k => d.laneRoom k n bin size
  | none => p.endsHere || d.linkRoom p.lay.nextDevice size

/-- A request handed to a link with a new tag, which its answer will name (R469): the tag goes into the pending list. -/
def sendRequest (d : Dev) (dst kind plot job addr n epoch : Nat) (body : Nat → Bytes) : Dev × Nat :=
  let tag := d.nextTag
  let d := sendUnit { d with nextTag := (tag + 1) % 2 ^ 31 } dst kind plot (body tag)
  ({ d with pendings := d.pendings ++ [⟨tag, kind, job, dst, addr, n, epoch⟩] }, tag)

/-- The pieces, of at most 4,096 bytes, of a range read from another device (R469), with `fuel` pieces. -/
def readPieces : Nat → Nat → Nat → List (Nat × Nat)
  | 0, _, _ => []
  | k + 1, a, n => if n = 0 then [] else (a, min n 4096) :: readPieces k (a + 4096) (n - 4096)

/-- Read units sent for a range of another device's memory (R24, R466, R469): each takes a tag; the answers are in the
surroundings of the same command, so that no tag stays reserved (log 5). Nothing is sent for a range of this device. -/
def Dev.askRead (d : Dev) (a n : Nat) : Dev :=
  if a / 2 ^ 40 % 2 ^ 12 = d.deviceId then d
  else
    (readPieces (n / 4096 + 1) a n).foldl (fun d x =>
      sendUnit { d with nextTag := (d.nextTag + 1) % 2 ^ 31 } (a / 2 ^ 40 % 2 ^ 12) 6 0xFFFF
        (toLe 8 x.1 ++ toLe 4 x.2 ++ toLe 4 d.nextTag)) d

end Sys2Proof.Machine
end

