-- ==== Sys2Proof/Machine/Mem.lean ====
section
/-! DEFINITION. The global address space: regions, the checks of R27, and reads and writes of global addresses
(R23 to R30, R89, R359, R366). -/
namespace Sys2Proof.Machine

/-- What a byte of memory that nothing has written reads as (log 2). -/
abbrev unlistedByte : Byte := 0

/-- The memory is in its canonical form: addresses rising, no entry equal to what an unlisted one reads as. -/
def Memory.wf (m : Tbl Byte) : Bool := Tbl.wf unlistedByte m

/-- The rows of the local offset table (R23); `reserved` is every other offset. -/
inductive Region where
  | hbm (c : Nat) | hub | csram (c : Nat) | cmem (n : Nat) | regs | reserved
deriving DecidableEq, Repr

/-- 240 GiB, the HBM of a cluster. -/
def hbmBytes : Nat := 0x3C00000000

/-- The region of a local offset, with the offset inside it. -/
def regionOf (o : Nat) : Region × Nat :=
  if o < 4 * hbmBytes then (.hbm (o / hbmBytes), o % hbmBytes)
  else if 0xF000000000 ≤ o && o < 0xF004000000 then (.hub, o - 0xF000000000)
  else if 0xF100000000 ≤ o && o < 0xF110000000 then
    let k := (o - 0xF100000000) / 0x4000000
    let r := (o - 0xF100000000) % 0x4000000
    if r < 0x3000000 then (.csram k, r) else (.reserved, 0)
  else if 0xF200000000 ≤ o && o < 0xF240000000 then
    let k := (o - 0xF200000000) / 0x400000
    let r := (o - 0xF200000000) % 0x400000
    if r < 0x300000 then (.cmem k, r) else (.reserved, 0)
  else if 0xFE00000000 ≤ o && o < 0xFE01000000 then (.regs, o - 0xFE00000000)
  else (.reserved, 0)

/-- The device of a global address. -/
def addrDevice (a : Nat) : Nat := bits a 40 12
/-- The local offset of a global address. -/
def addrLocal (a : Nat) : Nat := a % 2 ^ 40

/-- An offset of an HBM range lies in the device region (R26). -/
def inDeviceRegion (r : Nat) : Bool := 0x3B80000000 ≤ r

/-- The sieve-table memory of a core memory window (R83, R89). -/
def inSieveMem (r : Nat) : Bool := 0x40000 ≤ r && r < 0xC0000

/-- What an access is for. -/
inductive Use where
  | read | write
deriving DecidableEq, Repr

/-- The checks of R27 on a range a descriptor names, with R26 and R519: only HBM, but for the register an 8-byte COPY
source names (`copy`). A range of zero bytes is checked as its first byte. -/
def Dev.addrOk (d : Dev) (use : Use) (copy : Bool) (a n0 : Nat) : Bool :=
  let n := max n0 1
  let o := addrLocal a
  let (r1, x1) := regionOf o
  let (r2, x2) := regionOf (o + n - 1)
  a < 2 ^ 52 && o + n ≤ 2 ^ 40 && r1 == r2 &&
  (match r1 with
   | .hbm _ => !(inDeviceRegion x1 || inDeviceRegion x2) || (use == .read && d.debugOn)
   | .regs => copy && n == 8 && o % 8 == 0 && use == .read
   | _ => false) &&
  (addrDevice a == d.deviceId || d.routed (addrDevice a))

/-- The node place of a graph-memory offset, if a stored graph covers it (R366). -/
def Dev.graphByte (d : Dev) (o : Nat) : Byte :=
  let place := o / 64
  match d.graphs.findSome? (fun (_, g) => match g with
    | some g => if g.base ≤ place && place < g.base + g.nodes.length then g.nodes[place - g.base]? else none
    | none => none) with
  | some b => at' 0 b (o % 64)
  | none => 0

/-- How many WAIT_EVENTs wait on an event (R359). -/
def Dev.waiters (d : Dev) (i : Nat) : Nat :=
  (d.chans.filter fun (_, c) => match c.held with
    | some h => h.wait == .event && bits h.desc.ops.toNat 64 16 == i && d.eventVal i < bits h.desc.ops.toNat 0 64
    | none => false).length

/-- A byte of the event store's window (R359). -/
def Dev.eventByte (d : Dev) (o : Nat) : Byte :=
  let i := o / 16
  let k := o % 16
  if k < 8 then BitVec.ofNat 8 (d.eventVal i / 256 ^ k)
  else if k < 10 then BitVec.ofNat 8 (d.waiters i / 256 ^ (k - 8)) else 0

/-- A byte of sieve-table memory (R83, R84): the active or shadow table of the core where one lies there. -/
def Core.sieveByte (c : Core) (o : Nat) : Byte :=
  let look (t : Option (Nat × Bytes)) : Option Byte :=
    match t with
    | some (base, b) => if base * 4096 ≤ o && o < base * 4096 + b.length then some (at' 0 b (o - base * 4096)) else none
    | none => none
  (look c.sieveActive).getD ((look c.sieveShadow).getD 0)

/-- A byte at a local offset (R23, R89, R359, R366). -/
def Dev.localByte (d : Dev) (o : Nat) : Byte :=
  match regionOf o with
  | (.hub, r) => if r < 0x1000000 then d.graphByte r else if r < 0x1100000 then d.eventByte (r - 0x1000000) else Tbl.get unlistedByte o d.mem
  | (.cmem n, r) => if inSieveMem r then (if d.debugOn then (d.core n).sieveByte (r - 0x40000) else 0) else Tbl.get unlistedByte o d.mem
  | (.reserved, _) => 0
  | (.hbm _, r) => if inDeviceRegion r then Config.deviceRegionByte d.fecProgress.toNat o else Tbl.get unlistedByte o d.mem
  | _ => Tbl.get unlistedByte o d.mem

/-- A write of one byte at a local offset: discarded in graph memory, the event store and sieve-table memory. -/
def Dev.setLocalByte (d : Dev) (o : Nat) (b : Byte) : Dev :=
  match regionOf o with
  | (.hbm _, r) => if inDeviceRegion r then d else { d with mem := Tbl.set unlistedByte o b d.mem }
  | (.hub, r) => if r < 0x1100000 then d else { d with mem := Tbl.set unlistedByte o b d.mem }
  | (.csram _, _) => { d with mem := Tbl.set unlistedByte o b d.mem }
  | (.cmem _, r) => if inSieveMem r then d else { d with mem := Tbl.set unlistedByte o b d.mem }
  | _ => d

/-- `n` bytes at a local offset. -/
def Dev.localBytes (d : Dev) (o n : Nat) : Bytes := tab n fun i => d.localByte (o + i)

/-- Bytes written at a local offset. -/
def Dev.setLocalBytes (d : Dev) : Nat → Bytes → Dev
  | _, [] => d
  | o, b :: bs => (d.setLocalByte o b).setLocalBytes (o + 1) bs

/-- Why a read gives nothing: an uncorrectable error at an address (R419), or a lost route (R474). -/
inductive ReadFail where
  | ecc (a : Nat)
  | lost
deriving DecidableEq, Repr

/-- The bytes of a list of (address, byte) answers, when all `n` are there. -/
def answers (l : List (Nat × Byte)) (a : Nat) : Nat → Option Bytes
  | 0 => some []
  | n + 1 =>
    match l.find? (fun p => p.1 = a), answers l (a + 1) n with
    | some p, some t => some (p.2 :: t)
    | _, _ => none

/-- A read of a global range by an engine: local memory, or what the other device returned over a route that is not down (R24,
R466, R474; log 5). -/
def Dev.readG (d : Dev) (env : Env) (a n : Nat) : Except ReadFail Bytes :=
  if addrDevice a = d.deviceId then
    match env.ecc.find? fun p => overlaps p.1 p.2 a n with
    | some p => .error (.ecc (max p.1 a))
    | none => .ok (d.localBytes (addrLocal a) n)
  else match d.routePort (addrDevice a), answers env.remote a n with
    | some _, some b => .ok b
    | _, _ => .error .lost

/-- The bytes of a global range, zeros where it cannot be read. -/
def Dev.readOr (d : Dev) (env : Env) (a n : Nat) : Bytes :=
  match d.readG env a n with | .ok b => b | .error _ => List.replicate n 0#8

/-- Why a range cannot be read, none where it can. -/
def Dev.readFail (d : Dev) (env : Env) (a n : Nat) : Option ReadFail :=
  match d.readG env a n with | .ok _ => none | .error e => some e

/-- A range can be read. -/
def Dev.readable (d : Dev) (env : Env) (a n : Nat) : Bool :=
  match d.readG env a n with | .ok _ => true | .error _ => false

/-- Pieces of at most 4,096 bytes of a write to another device (R469), with `fuel` pieces. -/
def writePieces : Nat → Nat → Bytes → List (Nat × Bytes)
  | 0, _, _ => []
  | k + 1, a, b => if b.length = 0 then [] else (a, b.take 4096) :: writePieces k (a + 4096) (b.drop 4096)

/-- A link is lost under a descriptor's access: its chain ends with LINK_LOST (R358, R474). -/
def Dev.lostUnder (d : Dev) (job : Nat) : Dev :=
  d.updJob job fun j =>
    { j with chainStatus := if j.chainStatus = 0 then 0x40B0 else j.chainStatus, desc := { j.desc with next := 0 } }

/-- A write of a global range by the engine of a descriptor: into local memory, or as Write units whose tags the
descriptor awaits (R24, R469); where no route leads there, the descriptor's chain ends with LINK_LOST (R474). -/
def Dev.writeG (d : Dev) (job : Nat) (a : Nat) (b : Bytes) : Dev :=
  if addrDevice a = d.deviceId then d.setLocalBytes (addrLocal a) b
  else if (d.routePort (addrDevice a)).isNone then d.lostUnder job
  else
    (writePieces (b.length / 4096 + 1) a b).foldl (fun d (x, bs) =>
      let (d, tag) := sendRequest d (addrDevice a) 7 0xFFFF job x bs.length 0
        (fun t => toLe 8 x ++ toLe 4 bs.length ++ toLe 4 t ++ bs)
      d.updJob job fun j => { j with wait := j.wait ++ [tag] }) d

end Sys2Proof.Machine
end

