-- ==== Sys2Proof/Machine/Operands.lean ====
section
/-! DEFINITION. The forms of operands: descriptor fields (R346), reserved operand bytes (R541), tile words (R175),
patch entries (R364), task blocks (R376). -/
namespace Sys2Proof

/-- The operand of `n` bytes at byte offset `o` of a descriptor (R346). -/
def Desc.op (x : Desc) (o n : Nat) : Nat := Machine.bits x.ops.toNat (8 * (o - 0x10)) (8 * n)

/-- Every operand byte outside the listed (offset, size) fields is zero (R541 step 1). -/
def Desc.onlyOps (x : Desc) (fields : List (Nat × Nat)) : Bool :=
  (List.range 44).all fun k => fields.any (fun f => f.1 ≤ 0x10 + k && 0x10 + k < f.1 + f.2) || x.op (0x10 + k) 1 == 0

/-- The descriptor of 64 bytes (R346). -/
def Desc.ofBytes (b : Bytes) : Desc :=
  { hdr := BitVec.ofNat 8 (Machine.field b 0 1), opcode := BitVec.ofNat 8 (Machine.field b 1 1),
    cflags := BitVec.ofNat 16 (Machine.field b 2 2), userTag := BitVec.ofNat 32 (Machine.field b 4 4),
    next := BitVec.ofNat 64 (Machine.field b 8 8), ops := BitVec.ofNat 352 (Machine.field b 0x10 44) }

/-- The CRC of a descriptor's 64 bytes is right (R346, R347). -/
def descCrcOk (b : Bytes) : Bool := Machine.field b 0x3C 4 == Machine.crc32c (b.take 0x3C)

/-- BARRIER (R346, R355). -/
def Desc.barrier (x : Desc) : Bool := x.cflags.getLsbD 0
/-- IRQ (R346). -/
def Desc.irq (x : Desc) : Bool := x.cflags.getLsbD 1
/-- FLUSH_BEFORE_COMPLETE (R346, R400). -/
def Desc.flush (x : Desc) : Nat := Machine.bits x.cflags.toNat 2 2
/-- PEER_SIGNAL (R346, R396). -/
def Desc.peer (x : Desc) : Bool := x.cflags.getLsbD 4
/-- TARGET of ACC_PRELOAD and ACC_FINISH, SCOPE of ACC_REDUCE, at their operand bytes. -/
def Desc.code (x : Desc) : Nat := x.opcode.toNat

namespace Machine

/-- A signed byte operand. -/
def sbyte (v : Nat) : Int := sext 8 v

end Machine
end Sys2Proof
end

