-- ==== Sys2Proof/Machine/Jobs.lean ====
section
/-! DEFINITION. Dispatched descriptors: their place in the dispatch order, their end, and what the checks of a
descriptor answer (R345, R352 to R358). -/
namespace Sys2Proof.Machine

/-- What the checks of a descriptor answer: dispatch it; reject it (class 1); hold the channel WAITING (R382); hold it
for an engine that cannot take it (R378); or dispatch it and end it at once, its data unread. -/
inductive Verdict where
  | go
  | reject (s : Status)
  | wait (w : Wait)
  | busy
  | fail (e : ReadFail)
deriving DecidableEq, Repr

/-- A failed check rejects. -/
def Verdict.ofFail : Option Status → Verdict
  | some s => .reject s
  | none => .go

/-- The first failing check rejects; with none failing the verdict is `v`. -/
def checks (l : List (Bool × Status)) (v : Verdict := .go) : Verdict :=
  match firstFail l with | some s => .reject s | none => v

/-- A verdict followed by another, looked into only where the first goes. -/
def Verdict.andThen (a : Verdict) (b : Unit → Verdict) : Verdict := match a with | .go => b () | _ => a

/-- The status of an operation whose memory read failed (R419, R474). -/
def ReadFail.status : ReadFail → Status
  | .ecc _ => stEcc
  | .lost => stLinkLost

namespace Job

/-- The work of the link in progress has ended, its writes acknowledged. -/
def ended (j : Job) : Bool := j.phase == .done && j.wait.isEmpty
/-- The descriptor is complete: its last link has ended (R345, R358). -/
def complete (j : Job) : Bool := j.ended && j.desc.next == 0
/-- A chain link has ended and NEXT names another (R357). -/
def linkDue (j : Job) : Bool := j.ended && j.desc.next != 0

end Job

namespace Dev

/-- The launch that a dispatched LAUNCH_GRAPH stands for. -/
def launchOf (d : Dev) (id : Nat) : Option Launch := d.launches.find? fun l => l.id = id

/-- Every node of a launch that will be dispatched has been, and each has completed (R371). -/
def launchOver (d : Dev) (l : Launch) : Bool :=
  (l.stopped || l.nodes.length ≤ l.next) && d.jobs.all fun j => j.launch != some l.id

/-- A dispatched descriptor is complete, a launch with all its nodes. -/
def jobComplete (d : Dev) (j : Job) : Bool :=
  match d.launchOf j.id with
  | some l => d.launchOver l
  | none => j.complete

/-- Every descriptor of channel `c` dispatched before number `id` is complete; the launch that a node belongs to does
not count among them (R355, R360). -/
def earlierDone (d : Dev) (c id : Nat) (launch : Option Nat) : Bool :=
  d.jobs.all fun j => j.chan != c || id ≤ j.id || some j.id == launch || d.jobComplete j

/-- A descriptor entered among the dispatched ones, as the last in dispatch order. -/
def addJob (d : Dev) (c seq : Nat) (x : Desc) (env : Env) (launch : Option Nat) (node : Nat) : Dev × Job :=
  let j : Job :=
    { id := d.nextJob, chan := c, seq := seq, desc := x, env := env, launch := launch, node := node, links := 0
      firstOp := x.code, phase := .active, status := 0, chainStatus := 0, nflags := 0, detail0 := 0, detail1 := 0
      tiles := [], plot := none, engine := none, cluster := none, wait := [], cursor := 0, flushed := false
      userTag := x.userTag.toNat, cflags := x.cflags, chain := x.next != 0, hostHeld := false }
  ({ d with jobs := d.jobs ++ [j], nextJob := d.nextJob + 1 }, j)

/-- The work of a descriptor, or of a chain's present link, ends with a status and flags: the chain keeps the first
nonzero status (R358), and counts a completed link. -/
def finishJob (d : Dev) (id : Nat) (st : Status) (nf : NFlags := 0) : Dev :=
  d.updJob id fun j =>
    { j with phase := .done, status := st, nflags := j.nflags ||| nf, links := j.links + 1,
             chainStatus := if j.chainStatus = 0 then st else j.chainStatus }

/-- A descriptor ended by a fault or a failed access: no further link of its chain starts. -/
def abortJob (d : Dev) (id : Nat) (st : Status) : Dev :=
  d.updJob id fun j =>
    { j with phase := .done, status := st, wait := [], desc := { j.desc with next := 0 },
             chainStatus := if j.chainStatus = 0 then st else j.chainStatus }

/-- Two tile words, by core and rows, share a byte of one row (R177); the widths are those of their modes. -/
def tileOverlap (w v : Nat) : Bool :=
  let width (x : Nat) : Nat := match bits x 48 3 with | 0 => 4 | 1 => 4 | 2 => 2 | 3 => 2 | _ => 8
  bits w 0 8 == bits v 0 8 && overlaps (bits w 8 12) (bits w 20 13) (bits v 8 12) (bits v 20 13) &&
  overlaps (bits w 33 7 * width w) (bits w 40 8 * width w) (bits v 33 7 * width v) (bits v 40 8 * width v)

/-- A block at an address, as it was read and checked at the descriptor's dispatch (R234, R304, R317). -/
def blockOf (d : Dev) (j : Job) (a n : Nat) : Bytes :=
  match j.blocks.find? fun p => p.1 = a && n ≤ p.2.length with
  | some p => p.2
  | none => d.readOr j.env a n

/-- The descriptors that stand before one in the dispatch order. -/
def before (d : Dev) (id : Nat) : List Job := d.jobs.takeWhile fun j => j.id ≠ id

/-- Every earlier-dispatched operation on an overlapping tile has ended (R183). -/
def tilesFree (d : Dev) (id : Nat) (tiles : List Nat) : Bool :=
  (d.before id).all fun j => j.phase == .done || !(j.tiles.any fun w => tiles.any (tileOverlap w))

/-- The error record of an uncorrectable error in HBM that a descriptor's read met (R419, R439): the stack that holds the
page (R25). -/
def hbmError (d : Dev) (a chan seq : Nat) : Dev :=
  let o := addrLocal a
  let stack := o / hbmBytes * 5 + o % hbmBytes / 4096 % 5
  let r := errRec stEcc 4 0 4 stack
  d.report { r with address := a, detail := toLe 1 6, chan := chan, descSeq := seq }

/-- A descriptor's read failed: an uncorrectable error in HBM has its error record (R419). -/
def readFailed (d : Dev) (chan seq : Nat) : ReadFail → Dev
  | .ecc a => d.hbmError a chan seq
  | .lost => d

/-- The work of a descriptor ended by a read that failed. -/
def endRead (d : Dev) (j : Job) (e : ReadFail) (nf : NFlags := 0) : Dev :=
  (d.readFailed j.chan j.seq e).finishJob j.id e.status nf

end Dev

/-- Every channel's armed residual and operand for the plots that satisfy a test removed (R192). -/
def disarmPlots (d : Dev) (p : Nat → Bool) : Dev :=
  (d.chans.map (·.1)).foldl (fun d i => d.updChan i fun c => { c with armed := c.armed.filter fun a => !p a.plot }) d

end Sys2Proof.Machine
end

