-- ==== Sys2Proof/Machine/Graphs.lean ====
section
/-! DEFINITION. Stored graphs: sources, patch entries, graph memory, launches (R363 to R372). -/
namespace Sys2Proof.Machine

/-- GRAPH_INVALID (R387). -/
def stGraphInvalid : Status := 0x1090
/-- GRAPH_CAPACITY (R387). -/
def stGraphCapacity : Status := 0x1091

/-- The opcodes of R348, the debug family apart. -/
def opcodes : List Nat :=
  [0x00, 0x01, 0x02, 0x03, 0x10, 0x11, 0x12, 0x13, 0x20, 0x21, 0x22, 0x30, 0x31, 0x32, 0x33, 0x34, 0x40, 0x41, 0x42,
   0x50, 0x51, 0x52, 0x53, 0x54, 0x55, 0x60, 0x70, 0x71, 0x72, 0x73]

/-- An opcode is in R348. -/
def opcodeKnown (o : Nat) : Bool := opcodes.contains o || 0xF0 ≤ o

/-- An opcode may stand in a graph (R348). -/
def inGraph (o : Nat) : Bool := opcodes.contains o && !([0x21, 0x22, 0x70, 0x71, 0x72, 0x73].contains o)

/-- A nonzero reserved bit of the common fields (R346). -/
def commonReserved (x : Desc) : Bool := 2 ≤ x.hdr.toNat || 32 ≤ x.cflags.toNat

/-- A patch entry's node, byte offset and width (R364). -/
def patchNode (e : Nat) : Nat := bits e 0 12
/-- The byte offset of a patch entry's location. -/
def patchOffset (e : Nat) : Nat := 4 * bits e 12 6
/-- The width of a patch entry's location. -/
def patchWidth (e : Nat) : Nat := if bit e 18 then 8 else 4

/-- A patch entry keeps R364 in a graph of `n` nodes. -/
def patchOk (n e : Nat) : Bool :=
  let o := patchOffset e
  bits e 19 13 == 0 && patchNode e < n && 0x10 ≤ o &&
  (if patchWidth e = 8 then o % 8 == 0 && o ≤ 0x30 else o ≤ 0x38)

/-- Two patch locations share a byte. -/
def patchClash (e f : Nat) : Bool :=
  patchNode e == patchNode f && overlaps (patchOffset e) (patchWidth e) (patchOffset f) (patchWidth f)

/-- A slot value fits its location: bytes above a 4-byte location are zero (R364). -/
def patchFits (e v : Nat) : Bool := patchWidth e == 8 || v < 2 ^ 32

/-- No two entries of a list clash. -/
def noClash : List Nat → Bool
  | [] => true
  | e :: es => !es.any (patchClash e) && noClash es

/-- The rules of R365 on a source of `bytes` bytes that give GRAPH_INVALID. -/
def graphSourceOk (src : Bytes) (bytes : Nat) : Bool :=
  let n := field src 6 2
  let pc := field src 8 1
  let nodes := tab n fun i => slice src (0xC0 + 64 * i) 64
  let ps := tab 32 fun j => field src (0x40 + 4 * j) 4
  field src 0 4 == 0x4850474C && field src 4 2 == 1 && 1 ≤ n && n ≤ 4096 && pc ≤ 32 && bytes == 192 + 64 * n &&
  src.length == bytes && field src 9 3 == 0 && zeroFrom src 0x10 0x40 && crcZeroed src 0x0C == field src 0x0C 4 &&
  (ps.drop pc).all (· == 0) && (ps.take pc).all (patchOk n) && noClash (ps.take pc) &&
  nodes.all fun b => descCrcOk b && inGraph (field b 1 1) && !commonReserved (Desc.ofBytes b)

/-- The graphs stored, with their IDs. -/
def Dev.graphList (d : Dev) : List (Nat × Graph) := d.graphs.filterMap fun (i, g) => g.map fun x => (i, x)

/-- The node places in graph memory (R366, R386). -/
def graphPlaces : Nat := 0x40000

/-- The first run of `n` free node places (R365): it starts at place 0 or where a stored graph ends. -/
def firstRun (gs : List Graph) (n : Nat) : Option Nat :=
  let starts := 0 :: gs.map fun g => g.base + g.nodes.length
  let good := starts.filter fun b => b + n ≤ graphPlaces && gs.all fun g => !overlaps b n g.base g.nodes.length
  good.foldl (fun m b => match m with | none => some b | some a => some (min a b)) none

/-- STORE_GRAPH's operand rules (R365). -/
def storeGraphForm (x : Desc) : Bool := x.onlyOps [(0x10, 8), (0x18, 4), (0x1C, 2)] && x.op 0x1C 2 ≤ 1023

/-- STORE_GRAPH's checks in the order of R541, on what its source reads as. -/
def checkStoreGraph (d : Dev) (x : Desc) (env : Env) : Verdict :=
  let a := x.op 0x10 8
  let n := x.op 0x18 4
  (checks [(!storeGraphForm x, stDescriptorInvalid), ((d.graph (x.op 0x1C 2)).isSome, stStateConflict),
    (!d.addrOk .read false a n, stAddressInvalid)]).andThen
  (fun _ => match d.readG env a n with
   | .error e => .fail e
   | .ok src => checks [(!graphSourceOk src n, stGraphInvalid),
       ((firstRun (d.graphList.map (·.2)) (field src 6 2)).isNone, stGraphCapacity)])

/-- The value found at a patch location of a list of nodes. -/
def patchValue (nodes : List Bytes) (e : Nat) : Nat :=
  field (at' [] nodes (patchNode e)) (patchOffset e) (patchWidth e)

/-- The graph a source spells, at a base (R363 to R365). -/
def graphOf (src : Bytes) (base : Nat) : Graph :=
  let nodes := tab (field src 6 2) fun i => slice src (0xC0 + 64 * i) 64
  let ps := tab (field src 8 1) fun j => field src (0x40 + 4 * j) 4
  { base := base, nodes := nodes, patches := ps, slots := ps.map (patchValue nodes) }

/-- STORE_GRAPH places the nodes and sets the staging copy (R365). -/
def startStoreGraph (j : Job) (d : Dev) : Dev :=
  let src := d.readOr j.env (j.desc.op 0x10 8) (j.desc.op 0x18 4)
  let base := (firstRun (d.graphList.map (·.2)) (field src 6 2)).getD 0
  (d.setGraph (j.desc.op 0x1C 2) (some (graphOf src base))).finishJob j.id 0

/-- The live launch frames of a graph (R369). -/
def Dev.framesOf (d : Dev) (g : Nat) : Nat := (d.launches.filter fun l => l.graph = g).length

/-- FREE_GRAPH's checks (R367, R372). -/
def checkFreeGraph (d : Dev) (x : Desc) : Verdict :=
  let g := x.op 0x10 2
  checks [(!x.onlyOps [(0x10, 2)], stDescriptorInvalid),
    ((d.graph g).isNone || 0 < d.framesOf g, stStateConflict)]

/-- FREE_GRAPH frees the memory and the ID (R367). -/
def startFreeGraph (j : Job) (d : Dev) : Dev := (d.setGraph (j.desc.op 0x10 2) none).finishJob j.id 0

/-- PATCH_GRAPH's operand rules (R368). -/
def patchGraphForm (x : Desc) : Bool :=
  let first := x.op 0x12 1
  let n := x.op 0x13 1
  let mem := x.op 0x14 1 == 1
  x.onlyOps [(0x10, 2), (0x12, 1), (0x13, 1), (0x14, 1), (0x18, 24), (0x30, 8)] && x.op 0x14 1 ≤ 1 && first ≤ 31 &&
  1 ≤ n && first + n ≤ 32 && (if mem then n ≤ 32 && x.op 0x18 24 == 0 && x.op 0x30 8 % 8 == 0
    else n ≤ 3 && x.op 0x30 8 == 0 && x.op 0x18 24 / 2 ^ (64 * n) == 0)

/-- The values of a PATCH_GRAPH (R368). -/
def patchVals (d : Dev) (x : Desc) (env : Env) : List Nat :=
  if x.op 0x14 1 = 1 then wordsOf (d.readOr env (x.op 0x30 8) (8 * x.op 0x13 1))
  else tab (x.op 0x13 1) fun i => x.op (0x18 + 8 * i) 8

/-- PATCH_GRAPH's checks (R368, R372). -/
def checkPatchGraph (d : Dev) (x : Desc) (env : Env) : Verdict :=
  let first := x.op 0x12 1
  let n := x.op 0x13 1
  let mem := x.op 0x14 1 == 1
  match d.graph (x.op 0x10 2) with
  | none => checks [(!patchGraphForm x, stDescriptorInvalid), (true, stStateConflict)]
  | some g =>
    (checks [(!patchGraphForm x, stDescriptorInvalid), (g.patches.length < first + n, stGraphInvalid),
      (mem && !d.addrOk .read false (x.op 0x30 8) (8 * n), stAddressInvalid)]).andThen
    (fun _ => match (if mem then d.readFail env (x.op 0x30 8) (8 * n) else none) with
     | some e => .fail e
     | none => checks [(!((List.range n).all fun i =>
         patchFits (at' 0 g.patches (first + i)) (at' 0 (patchVals d x env) i)), stGraphInvalid)])

/-- PATCH_GRAPH writes the staging copy (R368). -/
def startPatchGraph (j : Job) (d : Dev) : Dev :=
  let x := j.desc
  let g := x.op 0x10 2
  let vs := patchVals d x j.env
  match d.graph g with
  | none => d.finishJob j.id stStateConflict
  | some gr =>
    let slots := (tab gr.slots.length id).map fun k =>
      if x.op 0x12 1 ≤ k && k < x.op 0x12 1 + x.op 0x13 1 then at' 0 vs (k - x.op 0x12 1) else at' 0 gr.slots k
    (d.setGraph g (some { gr with slots := slots })).finishJob j.id 0

/-- LAUNCH_GRAPH's checks: it waits while all 8 frames are live (R369, R372). -/
def checkLaunchGraph (d : Dev) (x : Desc) : Verdict :=
  let g := x.op 0x10 2
  (checks [(!x.onlyOps [(0x10, 2)], stDescriptorInvalid), ((d.graph g).isNone, stStateConflict)]).andThen
  (fun _ => if d.framesOf g < 8 then Verdict.go else Verdict.wait .frame)

/-- A node with a slot value at its location (R364, R371). -/
def patchNodeAt (nodes : List Bytes) (e v : Nat) : List Bytes :=
  setAt nodes (patchNode e) (overlay (at' [] nodes (patchNode e)) (patchOffset e) (toLe (patchWidth e) v))

/-- The nodes of a launch: the graph's with the frame's values (R371). -/
def framedNodes (g : Graph) (vals : List Nat) : List Bytes :=
  ((tab g.patches.length id).foldl (fun ns j => patchNodeAt ns (at' 0 g.patches j) (at' 0 vals j)) g.nodes)

/-- The launch constant block that the next LAUNCH_GRAPH of a privileged channel uses (R370). -/
def constBlock (c : Chan) : List Nat :=
  wordsOf (Tbl.getRange 0 c.consts (256 * (c.constTaken.toNat % 8)) 256)

/-- LAUNCH_GRAPH takes a frame and writes the slot values into it; its channel then dispatches the nodes (R369 to
R371). -/
def startLaunchGraph (j : Job) (d : Dev) : Dev :=
  let gid := j.desc.op 0x10 2
  match d.graph gid with
  | none => d.finishJob j.id stStateConflict
  | some g =>
    let vals := if j.chan < 4 then constBlock (d.chan j.chan) else g.slots
    let l : Launch :=
      { id := j.id, chan := j.chan, seq := j.seq, desc := j.desc, graph := gid, nodes := framedNodes g vals, next := 0
        stopped := false, status := 0, statusNode := 0xFFFFFFFF, nflags := 0 }
    { d with launches := d.launches ++ [l],
             graphLaunches := Tbl.upd 0 gid (· + 1) d.graphLaunches }.updChan j.chan fun c => { c with launch := some j.id }

/-- A constant block is taken, at a LAUNCH_GRAPH's dispatch or rejection (R370). -/
def takeConst (d : Dev) (c : Nat) (x : Desc) : Dev :=
  if x.code = 0x71 && c < 4 then d.updChan c fun ch => { ch with constTaken := ch.constTaken + 1 } else d

/-- The status of a launch takes a node's nonzero status where the node's index is lower (R371). -/
def Launch.noteStatus (l : Launch) (node : Nat) (st : Status) (nf : NFlags) : Launch :=
  let l := { l with nflags := l.nflags ||| nf }
  if st ≠ 0 && node < l.statusNode then { l with status := st, statusNode := node } else l

end Sys2Proof.Machine
end

