-- ==== Sys2Proof/Machine/Completion.lean ====
section
/-! DEFINITION. Completion records and words, the undelivered-completion store, blocked channels, peer signals and
flushes (R388 to R408). -/
namespace Sys2Proof.Machine

/-- The records the undelivered-completion store holds (R408). -/
def ucsCapacity : Nat := 16384

/-- A range of host addresses whose write fails translation or is answered in error; with ATS disabled no failure is
seen (R403, R404, R407). -/
def hostDenied (d : Dev) (env : Env) (a n : Nat) : Bool := d.host.ats && env.deny.any fun p => overlaps p.1 p.2 a n

/-- The slots of the completion ring that are written and not consumed (R389). -/
def Chan.cqUsed (c : Chan) : Nat := (c.cqWritten - c.cqConsumed).toNat

/-- The ring has a free slot for one more entry and every record owed (R390). -/
def Chan.cqRoom (c : Chan) : Bool := c.cqLog2 == 0 || c.cqUsed + c.owed + 1 ≤ 2 ^ c.cqLog2.toNat

/-- The completion word takes every sequence number that follows it without a gap, `fuel` of them at most (R393). -/
def advanceWord : Nat → Chan → Chan
  | 0, c => c
  | n + 1, c =>
    let next := (c.cw + 1).toNat
    if c.cwDone.contains next then advanceWord n { c with cw := c.cw + 1, cwDone := c.cwDone.filter (· ≠ next) } else c

/-- A record written, or discarded where there is no ring, for the word (R393). -/
def Chan.noteDone (c : Chan) (seq : Nat) : Chan := advanceWord (c.cwDone.length + 1) { c with cwDone := c.cwDone ++ [seq] }

/-- The 28 bytes of a completion record before its CRC, PHASE and FROM_STORE clear (R391). -/
def recordFields (seq tag : Nat) (st : Status) (nf : NFlags) (rflags detail0 detail1 : Nat) : Bytes :=
  toLe 8 seq ++ toLe 4 tag ++ toLe 2 st.toNat ++ toLe 1 nf.toNat ++ toLe 1 rflags ++ toLe 8 detail0 ++ toLe 4 detail1

/-- The 32 bytes of a record at a ring position, with PHASE and FROM_STORE (R389, R391). -/
def recordBytes (c : Chan) (fields : Bytes) (stored : Bool) : Bytes :=
  let phase := if bit c.cqWritten.toNat c.cqLog2.toNat then 0 else 1
  let rf := (field fields 0x0F 1) + phase + (if stored then 32 else 0)
  let b := overlay fields 0x0F (toLe 1 rf)
  b ++ toLe 4 (crc32c b)

/-- The host address of the next completion slot (R389). -/
def Chan.slotAddr (c : Chan) : Nat := c.cqBase.toNat + 32 * (c.cqWritten.toNat % 2 ^ c.cqLog2.toNat)

/-- A record written into its slot, or discarded where the channel has no ring, and counted in the word (R390). -/
def writeRecord (d : Dev) (c seq : Nat) (fields : Bytes) (stored : Bool) : Dev :=
  let ch := d.chan c
  let d := if ch.cqLog2 = 0 then d else d.toHost (.write ch.slotAddr (recordBytes ch fields stored))
  d.updChan c fun ch =>
    ({ ch with cqWritten := if ch.cqLog2 = 0 then ch.cqWritten else ch.cqWritten + 1, owed := ch.owed - 1 }).noteDone seq

/-- The completion word written to host memory (R393). -/
def writeWord (d : Dev) (c : Nat) : Dev :=
  let ch := d.chan c
  if ch.cwAddr = 0 then d
  else d.toHost (.write ch.cwAddr.toNat (toLe 8 ch.cw.toNat))

/-- A completion-address write of channel `c` failed (R404): the first failure is captured, the channel blocks from
RUNNING or WAITING, an error record is made and the error vector fires. -/
def blockChannel (d : Dev) (c kind addr seq : Nat) : Dev :=
  let d := d.updChan c fun ch =>
    let ch := if ch.blocked then ch else { ch with blocked := true, blockKind := kind, blockAddr := BitVec.ofNat 64 addr }
    match ch.state with
    | .running => { ch with before := .running, state := .blocked }
    | .waiting => { ch with before := .waiting, state := .blocked }
    | _ => ch
  let r := errRec stCompletionBlocked 10 4 6 c
  (d.report { r with chan := c, addrHost := true, address := addr, descSeq := seq, detail := toLe 1 kind }).errVector

/-- A record enters the undelivered-completion store (R404, R408). -/
def storeRecord (d : Dev) (c seq : Nat) (fields : Bytes) : Dev :=
  let h := d.host
  let ucs := h.ucs ++ [⟨c, seq, fields, 0⟩]
  let high := if h.ucsHigh.toNat < ucs.length then BitVec.ofNat 15 ucs.length else h.ucsHigh
  { d with host := { h with ucs := ucs, ucsHigh := high } }

/-- The records of channel `c` in the store. -/
def Dev.storedOf (d : Dev) (c : Nat) : List Stored := d.host.ucs.filter fun r => r.chan = c

/-- Step 4 to 5 of R394: the record into its slot and the word if it advanced, or the record into the store. -/
def deliverRecord (d : Dev) (env : Env) (c seq : Nat) (fields : Bytes) : Dev :=
  let ch := d.chan c
  if ch.cqLog2 ≠ 0 && (ch.blocked || d.host.held) then storeRecord d c seq fields
  else if ch.cqLog2 ≠ 0 && hostDenied d env ch.slotAddr 32 then
    blockChannel (storeRecord d c seq fields) c 0 ch.slotAddr seq
  else
    let d := writeRecord d c seq fields false
    if (d.chan c).cw = ch.cw then d
    else if ch.blocked || d.host.held then d
    else if ch.cwAddr ≠ 0 && hostDenied d env ch.cwAddr.toNat 8 then
      blockChannel d c 1 ch.cwAddr.toNat seq
    else writeWord d c

/-- FLUSH_BEFORE_COMPLETE is in force for a descriptor (R400). -/
def flushInForce (x : Desc) : Bool :=
  let copyHost := x.code == 0x60 && bit (x.op 0x29 1) 1
  let soft := bit (x.op 0x29 1) 2 || bit (x.op 0x29 1) 3
  let peer := x.code == 0x60 && bit (x.op 0x29 1) 4
  !peer && (x.flush == 1 || (x.flush == 0 && copyHost && soft))

/-- The traffic classes that an engine used for host writes, with the last address it wrote on each (R400). -/
def Engine.flushAddrs (e : Engine) : List (Nat × Nat) := e.last.filterMap fun p => p.2.map fun a => (p.1, a)

/-- Zero-length reads, each of an address on a traffic class (R400). -/
def flushReads (d : Dev) (l : List (Nat × Nat)) : Dev := l.foldl (fun d p => (d.hostRead p.2 1).emit (.zeroRead p.2 p.1)) d

/-- The zero-length reads of a descriptor (R400): those of its copy engine, or, for a result ring's or an input log's writes, one on
traffic class 0 (R399, R450). -/
def flushAddrs (d : Dev) (j : Job) : List (Nat × Nat) :=
  match j.engine with
  | some e => (d.engine e).flushAddrs
  | none => j.lastHost.toList.map fun a => (0, a)

/-- The last host address that a descriptor without a copy engine had written for it (R400). -/
def noteLast (d : Dev) (job a : Nat) : Dev := d.updJob job fun j => { j with lastHost := some a }

/-- The host address of the entry of a step (R450). -/
def Survive.logAddr (s : Survive) (step : Nat) : Nat := s.logBase.toNat + 128 * (step % 2 ^ s.logLog2.toNat)

/-- An input-log entry written to host memory (R450). -/
def writeLog (d : Dev) (j : Job) (a : Nat) (b : Bytes) : Dev := noteLast (d.toHost (.data a b false 0 j.id)) j.id (a + b.length - 1)

/-- The link in progress has ended, and its zero-length reads are to be made (R394, R400). -/
def flushDue (d : Dev) (j : Job) : Bool := j.ended && flushInForce j.desc && !j.flushDone && !(flushAddrs d j).isEmpty

/-- A host access fault reported on a channel is counted (R413). -/
def Dev.countAccessFault (d : Dev) (c : Nat) (st : Status) : Dev :=
  if st = stHostAccessFault then d.updChan c fun ch => { ch with hostCnt := laneBump ch.hostCnt 0 } else d

/-- A descriptor ended by a host access that failed (R406). -/
def accessFault (d : Dev) (j : Job) : Dev := (d.countAccessFault j.chan stHostAccessFault).abortJob j.id stHostAccessFault

/-- Step 2 of R394 for the link in progress: its zero-length reads, up to one that fails, which ends the descriptor (R400, R403,
R406). -/
def flushStep (d : Dev) (env : Env) (j : Job) : Dev :=
  if flushDue d j then
    let l := flushAddrs d j
    let ok := l.takeWhile fun p => !hostDenied d env p.2 1
    let d := (flushReads d ok).updJob j.id fun j => { j with flushDone := true, flushed := j.flushed || !ok.isEmpty }
    if ok.length < l.length then accessFault d j else d
  else d

/-- Step 7 of R394: the peer signal (R396), dropped and counted where its write fails translation. -/
def peerSignal (d : Dev) (env : Env) (c seq : Nat) (cf : BitVec 16) (st : Status) : Dev :=
  let ch := d.chan c
  let v := if ch.peerMode then seq % 2 ^ 32 else ch.peerValue.toNat
  if cf.getLsbD 4 && st.cls = 0 && ch.peerAddr ≠ 0 then
    if hostDenied d env ch.peerAddr.toNat 4 then d.updChan c fun ch => { ch with hostCnt := laneBump ch.hostCnt 1 }
    else d.toHost (.peer c ch.peerAddr.toNat v)
  else d

/-- Steps 6 and 7 of R394: the interrupt and the peer signal. -/
def signals (d : Dev) (env : Env) (c seq : Nat) (cf : BitVec 16) (st : Status) : Dev :=
  let d := if cf.getLsbD 1 then d.msix ((d.chan c).vector c) else d
  peerSignal d env c seq cf st

/-- DETAIL0 and DETAIL1 of a completed descriptor (R391): a chain carries its links, a launch its graph and node, the
others what their engines set. -/
def details (d : Dev) (j : Job) : Nat × Nat :=
  match d.launchOf j.id with
  | some l => (l.graph, if l.status = 0 then 0xFFFFFFFF else l.statusNode)
  | none =>
    if j.firstOp = 0x60 then (j.detail0, j.links) else if j.chain then (0, j.links) else (j.detail0, j.detail1)

/-- RFLAGS but for PHASE and FROM_STORE (R391). -/
def rflagsOf (d : Dev) (j : Job) (st : Status) : Nat :=
  2 * b2n j.chain + 4 * b2n (d.launchOf j.id).isSome + 8 * b2n j.flushed +
  16 * b2n (j.cflags.getLsbD 4 && st.cls == 0 && (d.chan j.chan).peerAddr != 0)

/-- The status and flags a descriptor completes with. -/
def finalStatus (d : Dev) (j : Job) : Status × NFlags :=
  match d.launchOf j.id with
  | some l => (l.status, l.nflags)
  | none => (j.chainStatus, j.nflags)

/-- A descriptor removed from those dispatched, with its launch. -/
def Dev.dropJob (d : Dev) (id : Nat) : Dev :=
  { d with jobs := d.jobs.filter (fun j => j.id ≠ id), launches := d.launches.filter fun l => l.id ≠ id }

/-- A channel after a descriptor of it completed with a status: FAULTED of its next input-log entry, unless one has taken it already
(R449). -/
def Chan.noteStatus (c : Chan) (noted : Bool) (st : Status) : Chan := if st.cls = 4 && !noted then { c with faulted := true } else c

/-- The completion of a ring entry, valid, stale or rejected (R388, R394): one descriptor retired, its record, the
word, the interrupt and the peer signal. -/
def completeEntry (d : Dev) (env : Env) (j : Job) : Dev :=
  let (st, nf) := finalStatus d j
  let (d0, d1) := details d j
  let fields := recordFields j.seq j.userTag st nf (rflagsOf d j st) d0 d1
  let d := (d.dropJob j.id).updChan j.chan fun c => { c.noteStatus j.noted st with progress := c.progress + 1 }
  signals (deliverRecord d env j.chan j.seq fields) env j.chan j.seq j.cflags st

/-- The completion of a graph node: no record; its status goes to its launch (R371, R388). -/
def completeNode (d : Dev) (env : Env) (j : Job) (l : Nat) : Dev :=
  let d := { d with launches := d.launches.map fun (x : Launch) => if x.id = l then x.noteStatus j.node j.chainStatus j.nflags else x }
  let d := (d.dropJob j.id).updChan j.chan fun c => c.noteStatus j.noted j.chainStatus
  signals d env j.chan j.seq j.cflags j.chainStatus

/-- The store is full, and a descriptor has a record that would have to enter it if its channel took none (R390, R408). -/
def storeFull (d : Dev) (j : Job) : Bool :=
  j.launch.isNone && (d.chan j.chan).cqLog2 != 0 && decide (ucsCapacity ≤ d.host.ucs.length)

/-- A full store keeps the completion of a descriptor (R408). -/
def keepsCompletion (d : Dev) (j : Job) : Bool :=
  d.jobComplete j && storeFull d j && ((d.chan j.chan).blocked || d.host.held)

/-- A completion cannot go on: a stop of host requests keeps a flush or held host writes waiting (R409), and a full
store keeps the engine's completion (R408). -/
def completionHeld (d : Dev) (j : Job) : Bool :=
  (d.host.held && (j.hostHeld || flushDue d j)) || keepsCompletion d j || d.fatal

/-- The completion of a ring entry whose record the host refuses while the store is full: the channel blocks, and the completion is
kept (R404, R408). -/
def recordOrKeep (d : Dev) (env : Env) (j : Job) : Dev :=
  let a := (d.chan j.chan).slotAddr
  if storeFull d j && hostDenied d env a 32 then blockChannel d j.chan 0 a j.seq else completeEntry d env j

/-- The completion of one descriptor, when it is complete (R394). -/
def completeJob (job : Nat) (env : Env) (d : Dev) : Dev :=
  match d.job job with
  | none => d
  | some j =>
    if d.jobComplete j && !completionHeld d j then
      let d := flushStep d env j
      match d.job job, j.launch with
      | some j, some l => completeNode d env j l
      | some j, none => recordOrKeep d env j
      | none, _ => d
    else d

/-- The engine of a descriptor takes no further work: the work in progress has not ended, a hold keeps its host writes, or a full
store keeps its completion (R408, R409). -/
def occupies (d : Dev) (j : Job) : Bool := !j.ended || j.hostHeld || keepsCompletion d j

/-- A copy engine has a descriptor in progress, a chain between two links too (R357, R414). -/
def Dev.onEngine (d : Dev) (e : Nat) (j : Job) : Bool := j.engine == some e && (occupies d j || j.linkDue)

/-- A channel counts a rejection with a class 1 status, and halts under HALT_ON_REJECT (R353, R385). -/
def Chan.noteReject (ch : Chan) : Chan :=
  let ch := ch.event 0
  if ch.haltOnReject && ch.state == .running then { ch with state := .halted } else ch

/-- A descriptor rejected at its dispatch (R353): it becomes a completed one with the status, the rejection counted,
the channel halted under HALT_ON_REJECT. A rejected node stops its launch (R371). -/
def rejectEntry (d : Dev) (c seq : Nat) (x : Desc) (env : Env) (st : Status) (launch : Option Nat) (node : Nat) : Dev :=
  let (d, j) := d.addJob c seq x env launch node
  let d := (d.finishJob j.id st).updJob j.id fun j => { j with desc := { j.desc with next := 0 }, links := 0, chain := false }
  let d := (takeConst d c x).updChan c Chan.noteReject
  match launch with
  | none => d
  | some l =>
    { d with launches := d.launches.map fun (y : Launch) => if y.id = l then { y with stopped := true } else y }.updChan c
      fun ch => { ch with launch := none }

end Sys2Proof.Machine
end

