-- ==== Sys2Proof/Machine/Rows.lean ====
section
/-! DEFINITION. Row accesses of the table engines: home engines, the row cache, and what an unreadable row, entity,
residual or operand reports (R93 to R95, R318, R319, R419). -/
namespace Sys2Proof.Machine

/-- The cluster whose HBM holds a local address. -/
def clusterOf (a : Nat) : Nat := addrLocal a / hbmBytes

/-- The device-wide number of the home engine that serves an access (R318): one of its cluster's four (log 7). -/
def homeOf (a : Nat) : Nat := 4 * (clusterOf a % 4) + Config.homeEngine a % 4

/-- An uncorrectable error in a cluster's row cache, the 24 MiB after the replay buffer (R29, R419). -/
def cacheBad (env : Env) (k : Nat) : Bool :=
  env.ecc.any fun p => overlaps p.1 p.2 (0xF100000000 + k * 0x4000000 + 0x1000000) 0x1800000

/-- The cached row at an address. -/
def RowCache.find (r : RowCache) (a : Nat) : Option Bytes := (r.rows.find? fun p => p.1 = a).map (·.2)

/-- The rows of a cache, newest first, that `room` bytes hold. -/
def keepRows : Nat → List (Nat × Bytes) → List (Nat × Bytes)
  | _, [] => []
  | room, p :: ps => if p.2.length ≤ room then p :: keepRows (room - p.2.length) ps else []

/-- The size of a cluster's table-engine row cache (R29). -/
def cacheBytes : Nat := 24 * 2 ^ 20

/-- A row put into its cluster's cache, in place of an older copy; the oldest rows that no longer fit leave (R29, R319;
log 7). -/
def Dev.cacheRow (d : Dev) (a : Nat) (b : Bytes) : Dev :=
  if addrDevice a = d.deviceId then
    d.updCache (clusterOf a) fun r => { r with rows := keepRows cacheBytes ((a, b) :: r.rows.filter fun p => p.1 ≠ a) }
  else d

/-- The row accesses that `n` bytes take (R333). -/
def accesses (n : Nat) : Word := BitVec.ofNat 64 ((n + 255) / 256)

/-- Row accesses of a home engine, served from the row cache or from HBM (R51, R342). -/
def Dev.countAccess (d : Dev) (a : Nat) (k : Word) (hit : Bool) : Dev :=
  (d.updCache (clusterOf a) fun r => if hit then { r with hits := r.hits + k } else { r with misses := r.misses + k }).updTab
    (homeOf a) fun t => { t with progress := t.progress + k }

/-- A row that its home engine could not read is counted (R342). -/
def Dev.countUnreadable (d : Dev) (a : Nat) : Dev :=
  d.updTab (homeOf a) fun t => let (st, cnt) := event t.status t.cnt 1; { t with status := st, cnt := cnt }

/-- A key that names no row is counted by the engine that met it (R342). -/
def Dev.countKeyRange (d : Dev) (e : Nat) : Dev :=
  d.updTab e fun t => let (st, cnt) := event t.status t.cnt 0; { t with status := st, cnt := cnt }

/-- A row served from HBM by its home engine. -/
def Dev.rowMiss (d : Dev) (env : Env) (a n : Nat) : Dev × Except ReadFail Bytes :=
  let d := d.countAccess a (accesses n) false
  match d.readG env a n with
  | .ok b => (d, .ok b)
  | .error e => (d.countUnreadable a, .error e)

/-- A cache line with an uncorrectable error is dropped and counted (R419). -/
def Dev.dropLine (d : Dev) (a : Nat) : Dev :=
  let d := d.updCache (clusterOf a) fun r => { r with rows := r.rows.filter fun p => p.1 ≠ a }
  { d with err := { d.err with status := setBit d.err.status 4, cnt := laneBump d.err.cnt 3 } }

/-- One access to `n` bytes of a row by its home engine (R318, R319, R419). For a row of another device the request is
forwarded, and the row is what that device returned; a lost route makes it a row not read (R342). -/
def Dev.rowRead (d : Dev) (env : Env) (a n : Nat) : Dev × Except ReadFail Bytes :=
  if addrDevice a ≠ d.deviceId then
    match d.readG env a n with
    | .ok b => (d.askRead a n, .ok b)
    | .error e => ((d.askRead a n).countUnreadable a, .error e)
  else
    match (d.cache (clusterOf a)).find a with
    | none => d.rowMiss env a n
    | some b =>
      let kept := Config.cacheKept d.free a && n ≤ b.length
      let d := { d with free := d.free + 1 }
      if !kept then d.rowMiss env a n
      else if cacheBad env (clusterOf a) then (d.dropLine a).rowMiss env a n
      else (d.countAccess a (accesses n) true, .ok (b.take n))

/-- The error record of data that an engine could not read for an uncorrectable error (R95, R194, R236, R324, R439);
a lost route has the record of its link (R473). VERSION is the active grove's of a plot that is known (DEDUCED, log 25). -/
def unreadable (d : Dev) (e : ReadFail) (st : Status) (kind unit plot : Nat) (rid : Option Nat) (j : Option Job) : Dev :=
  match e with
  | .lost => d
  | .ecc a =>
    let v := ((d.plot plot).map fun p => versionOf p.activeGrove).getD 0
    d.report { errRec st 11 0 kind unit with
      plot := plot, address := a, recordId := rid, version := v, chan := (j.map (·.chan)).getD 0xFF
      descSeq := (j.map (·.seq)).getD 0 }

end Sys2Proof.Machine
end

