-- ==== Sys2Proof/Machine/Faults.lean ====
section
/-! DEFINITION. Faults that the steps of a core meet: what a completion detector or an SRAM macro reports, the capture of
a descent fault, and the core's stop until the FEC fences it (R34, R35, R154 to R158, R416). -/
namespace Sys2Proof
namespace Machine

/-- An illegal 1-of-4 code: more than one wire high (R34). -/
def illegalCode (w : BitVec 4) : Bool :=
  decide (1 < b2n (w.getLsbD 0) + b2n (w.getLsbD 1) + b2n (w.getLsbD 2) + b2n (w.getLsbD 3))

/-- A fault reported for a core: it waits for the FEC (R416). -/
def Dev.detect (d : Dev) (n : Nat) (st : Status) (source : Nat) (detail : Bytes) (rid : Option Nat) : Dev :=
  { d with detected := d.detected ++ [⟨n, st, source, detail, rid, 0⟩] }

/-- A core takes no further step: it is fenced, or a fault of it waits for the FEC (R35, R154; log 8). -/
def Dev.stopped (d : Dev) (n : Nat) : Bool := (d.core n).fenced || d.detected.any fun f => f.core = n

end Machine

open Machine

/-- What a physical fault of a whole step is (R35, R416): a code violation, or an uncorrectable error in a memory of the
core. -/
def Upset.stepFault : Upset → Option (Status × Nat × Bytes)
  | .code w _ => if illegalCode w then some (stCodeViolation, 1, []) else none
  | .ecc m => if m.val < 5 then some (stEcc, 4, toLe 1 m.val) else none
  | _ => none

/-- The uncorrectable errors alone, for a step that places its code violations itself. -/
def Upset.eccOnly : Upset → Upset
  | .ecc m => .ecc m
  | _ => .clean

/-- An uncorrectable error in the chain buffers (R419). -/
def Upset.chainBuffer : Upset → Bool
  | .ecc m => m.val == 5
  | _ => false

/-- Bytes read under a flip: the mask is laid over them from byte `read`. -/
def Upset.flipBytes : Upset → Bytes → Bytes
  | .flip o m, b => (overlay b o (toLe 8 (field b o 8 ^^^ m.toNat))).take b.length
  | _, b => b

/-- A 64-bit word read as number `i` of a step. -/
def Upset.flipWord : Upset → Nat → Nat → Nat
  | .flip o m, i, w => if o = i then w ^^^ m.toNat else w
  | _, _, w => w

/-- A completion detector sees an illegal code at read `i` of a step. -/
def Upset.codeAt : Upset → Nat → Bool
  | .code w o, i => o == i && illegalCode w
  | _, _ => false

namespace Machine

/-- A fault of a step of core `n` reported before the step has any effect; else the step. -/
def guarded (d : Dev) (n : Nat) (u : Upset) (rid : Option Nat) (f : Dev → Dev) : Dev :=
  match u.stepFault with
  | some (st, src, det) => d.detect n st src det rid
  | none => f d

/-- What a lane captures of a fault of descent (R169): KIND 1 path check, 2 node check, 3 code violation. -/
structure DescFault where
  kind : Nat
  path : Nat
  slot : Nat
  depth : Nat
  stage : Nat
  computed : Nat
  found : Nat
  index : Nat
deriving DecidableEq, Repr

/-- CORE_DESCENT_FAULT_A of a fault (R169). -/
def DescFault.wordA (f : DescFault) (bank : Nat) : Nat :=
  f.path % 2 ^ 16 + f.slot % 4096 * 2 ^ 16 + f.depth % 32 * 2 ^ 28 + f.stage % 16 * 2 ^ 33 + f.kind % 4 * 2 ^ 37 + bank % 2 * 2 ^ 39

/-- CORE_DESCENT_FAULT_B of a fault (R169). -/
def DescFault.wordB (f : DescFault) : Nat := f.computed % 2 ^ 16 + f.found % 2 ^ 16 * 2 ^ 16 + f.index % 2 ^ 17 * 2 ^ 32

/-- The first fault of descent is captured, later ones are not (R158). -/
def Core.capture (c : Core) (f : DescFault) (bank : Nat) : Core :=
  if c.regs.descFaultA = 0 then
    let r := { c.regs with descFaultA := BitVec.ofNat 64 (f.wordA bank), descFaultB := BitVec.ofNat 64 f.wordB }
    { c with regs := r }
  else c

/-- A fault of descent: captured in the core, and reported with its status (R154, R157, R158, R416). -/
def descentFault (d : Dev) (n bank : Nat) (f : DescFault) (rid : Nat) : Dev :=
  let st := if f.kind = 1 then stPathCheck else if f.kind = 2 then stNodeCheck else stCodeViolation
  let src := if f.kind = 1 then 2 else if f.kind = 2 then 3 else 1
  (d.updCore n fun c => c.capture f bank).detect n st src [] (some rid)

/-- A plot that a fault from another device or a chain buffer restarts (R418, R419): the record says so, and the plot
waits for its restart. -/
def askRestart (d : Dev) (pid : Nat) (st : Status) (source kind unit : Nat) (detail : Bytes) : Dev :=
  let v := ((d.plot pid).map fun p => versionOf p.activeGrove).getD 0
  let d := d.report { errRec st source 1 kind unit with plot := pid, version := v, detail := detail }
  if d.restartWait.contains pid then d else { d with restartWait := d.restartWait ++ [pid] }

end Machine
end Sys2Proof
end

