-- ==== Sys2Proof/Machine/LinkRx.lean ====
section
/-! DEFINITION. Units received over chain links and waiting to be taken: who takes them, and the credit that their frames
return (R469, R470). -/
namespace Sys2Proof.Machine

/-- The first unit of a kind in a port's receive buffer. -/
def Port.rxOf (p : Port) (kind : Nat) : Option RxUnit := p.rx.find? fun u => u.kind = kind

/-- A list without its first element that satisfies a test. -/
def dropFirst {α : Type} (p : α → Bool) : List α → List α
  | [] => []
  | a :: as => if p a then as else a :: dropFirst p as

/-- A unit taken out of the receive buffer: with the last unit of its frame the frame's blocks are freed (R470). -/
def Port.take (p : Port) (u : RxUnit) : Port :=
  let rest := dropFirst (· == u) p.rx
  if rest.any (fun v => v.frame = u.frame) then { p with rx := rest }
  else { p with rx := rest, freed := setAt p.freed u.cls ((at' 0 p.freed u.cls + u.blocks) % 65536) }

/-- A unit taken from port `pn`; freed blocks are reported to the other side (R470). -/
def Dev.takeUnit (d : Dev) (pn : Nat) (u : RxUnit) : Dev :=
  let d' := d.updPort pn fun p => p.take u
  if (d'.port pn).freed = (d.port pn).freed then d' else sendReport d' pn 1

/-- The first unit of a kind for a plot in any port, with the port. -/
def Dev.findUnit (d : Dev) (kind plot : Nat) : Option (Nat × RxUnit) :=
  (List.range 16).findSome? fun i => ((d.port i).rx.find? fun u => u.kind = kind && u.plot = plot).map fun u => (i, u)

/-- The packet that a bin-vector unit's bytes spell (R105). -/
def parseBins (b : Bytes) : BinPacket :=
  let f := field b 0x0C 2
  let dense := 0x18 + alignUp (2 * f) 8
  { recordId := field b 0 8, ecv := field b 8 4, sflags := BitVec.ofNat 8 (field b 0x0E 1), nflags := BitVec.ofNat 8 (field b 0x0F 1)
    status := BitVec.ofNat 16 (field b 0x10 2), bins := tab f fun i => field b (0x18 + 2 * i) 2
    dense := tab (field b 0x12 2) fun i => field b (dense + 4 * i) 4 }

/-- The stream of a record from another device, by its RECORD_ID (R477; log 15). -/
def chainStream (rid : Nat) : Nat := Config.tagStream (rid / 2 ^ 32) % 64

/-- A core's lane holds a marker of the same version and graft (R269): one sent again after a restart is the same marker. -/
def Core.hasMark (c : Core) (b : Bytes) : Bool :=
  c.binLane.any fun m => match m with | .marker x _ _ => field x 8 8 == field b 8 8 | .bins _ _ _ _ _ => false

/-- A unit of chain traffic as the first core of its plot takes it into a lane (R13, R195, R209, R269). -/
def Core.takeChain (c : Core) (u : RxUnit) : Core :=
  match u.kind with
  | 1 => { c with binLane := c.binLane ++ [.bins (parseBins u.body) (.task 256) (chainStream (field u.body 0 8)) 0 256] }
  | 2 => if c.hasMark u.body then c else { c with binLane := c.binLane ++ [.marker u.body true 256] }
  | 4 => { c with sumLane := c.sumLane ++ [⟨false, u.body, true, 256, false⟩] }
  | _ => { c with sumLane := c.sumLane ++ [⟨true, u.body, true, 256, false⟩] }

/-- The core that takes a unit of chain traffic. -/
def Dev.chainCore (d : Dev) (u : RxUnit) : Option Nat :=
  if u.kind = 1 || u.kind = 2 || u.kind = 4 || u.kind = 5 then (d.plot u.plot).bind (·.first) else none

/-- The units of chain traffic that wait in a port go to their cores in order while the cores' lanes have room (R18, R29,
R470); bin vectors and markers stay behind a Restart unit of their plot that is not yet taken (R477). `stopped` names the
plots, with bit 0 for the sum lane, that nothing more goes to. -/
def deliverChain (pn : Nat) : List RxUnit → List Nat → Dev → Dev
  | [], _, d => d
  | u :: us, stopped, d =>
    let lane := 2 * u.plot + (if u.kind ≤ 3 then 0 else 1)
    if u.kind = 3 then deliverChain pn us (lane :: stopped) d
    else match d.chainCore u with
      | none => deliverChain pn us stopped d
      | some n =>
        if stopped.contains lane then deliverChain pn us stopped d
        else if d.laneRoom n 256 (u.kind ≤ 2) u.body.length then
          deliverChain pn us stopped ((d.takeUnit pn u).updCore n fun c => c.takeChain u)
        else deliverChain pn us (lane :: stopped) d

/-- Every unit of chain traffic in a port that can go on. -/
def Dev.deliverPort (d : Dev) (pn : Nat) : Dev := deliverChain pn (d.port pn).rx [] d

/-- A lane whose message from another device was taken has room again: the units that waited in the ports go on (R470). -/
def Dev.refill (d : Dev) (sender : Nat) : Dev :=
  if sender < 256 then d else (d.ports.map (·.1)).foldl (fun d pn => d.deliverPort pn) d

end Sys2Proof.Machine
end

