-- ==== Sys2Proof/Machine/Heads.lean ====
section
/-! DEFINITION. The sieve heads and the first core's intake: rows, look-ups, binning, bin-vector packets (R20, R21, R81,
R90 to R110, R182, R417, R540). -/
namespace Sys2Proof.Machine

/-! ### Rows of accumulator memory for contexts -/

/-- The row ranges that an entry of the tile table reserves, its total tile's too (R181, R186). -/
def Tile.rowRanges (t : Tile) : List (Nat × Nat) :=
  let rng (w : Nat) : Nat × Nat := (bits w 8 12, bits w 20 13)
  rng t.word :: (match t.total with | some w => [rng w] | none => [])

/-- A row is reserved for a tile (R181). -/
def Core.rowReserved (c : Core) (r : Nat) : Bool := c.tiles.any fun t => t.rowRanges.any fun p => p.1 ≤ r && r < p.1 + p.2

/-- A row can take a record context (R182). -/
def Core.rowFree (c : Core) (r : Nat) : Bool := r < 4096 && !c.rowReserved r && !c.ctxs.any fun x => x.row = r

/-- The lowest free row (R21): it is row 0 or follows a row in use. Which free row a context takes is not specified
(log 9). -/
def Core.freeRow (c : Core) : Option Nat :=
  let ends := 0 :: c.ctxs.map (fun x => x.row + 1) ++ c.tiles.flatMap fun t => t.rowRanges.map fun p => p.1 + p.2
  (ends.filter c.rowFree).foldl (fun m r => match m with | none => some r | some a => some (min a r)) none

/-- A record context as allocated for a record: flags clear (R73). -/
def Ctx.fresh (rid : Nat) (src : Src) (stream q ecv row : Nat) : Ctx :=
  { recordId := rid, src := src, stream := stream, q := q, ecv := ecv, row := row, hasBins := false, bins := [], dense := []
    sflags := 0, binFlags := 0, nflags := 0, status := 0, notScored := false, pair := 0, inSum := none, admitted := false
    issued := 0, added := 0, rounds := [], keys := [], keysSent := false, pruned := none, sent := false, acked := false
    packed := false, result := none }

/-- A context is that of a record. -/
def Ctx.isFor (x : Ctx) (rid : Nat) (src : Src) (stream : Nat) : Bool :=
  x.recordId == rid && x.src == src && x.stream == stream

/-! ### Step 1 -/

/-- The status a record has as a head takes it: its own when the ingress unit completed it (R540), or RECORD_SHORT. -/
def takeStatus (t : SieveTable) (r : Rec) : Status :=
  if r.status ≠ 0 then r.status else if r.payload.length < t.payloadMin then stRecordShort else 0

/-- A head takes the record at the front of its input into a free row (R21, R90 step 1). -/
def headTake (n : Nat) (u : Upset) (d : Dev) : Dev :=
  let c := d.core n
  if d.stopped n then d
  else match c.headQueue, c.sieveActive, c.freeRow with
  | .record r :: rest, some (_, t), some row =>
    guarded d n u (some r.id) fun d => d.updCore n fun c =>
      let w : HeadWork := { record := { r with payload := u.flipBytes r.payload }, row := row, rows := [], sflags := 0
                            nflags := 0, status := takeStatus (parseSieve t) r }
      { c with headQueue := rest, headWork := c.headWork ++ [w]
               ctxs := c.ctxs ++ [Ctx.fresh r.id r.src r.stream r.q r.ecv row] }
  | _, _, _ => d

/-- HEAD_TAKE_RECORD (R90). -/
def execHeadTakeRecord (core : Fin 256) (u : Upset) (s : State) : Host.Outcome State Fault Refusal :=
  onDev (headTake core.val u) s

/-! ### Steps 2 and 3 -/

/-- What a look-up gives: the row of a hit, a miss (and whether the probes ran out), or a failed read with its
address. -/
inductive LookUp where
  | hit (row : Bytes)
  | miss (exhausted : Bool)
  | failed (e : ReadFail) (a : Nat)
deriving DecidableEq, Repr

/-- One slot of an entity table probed (R91, R92, R333): its key and row, as one row access; only a hit's row is then
cached (R93). -/
def probeSlot (d : Dev) (env : Env) (e : Entity) (k a : Nat) : Dev × Option LookUp :=
  match d.rowRead env a (8 + e.rowBytes) with
  | (d, .error f) => (d, some (.failed f a))
  | (d, .ok b) =>
    if field b 0 8 = k then (d.cacheRow a b, some (.hit (slice b 8 e.rowBytes)))
    else if field b 0 8 = 2 ^ 64 - 1 then (d, some (.miss false)) else (d, none)

/-- The probing of R92 from slot `i`, with `fuel` slots left. -/
def probe (env : Env) (e : Entity) (k : Nat) : Nat → Nat → Dev → Dev × LookUp
  | 0, _, d => (d, .miss true)
  | fuel + 1, i, d =>
    match probeSlot d env e k (e.slotAddr i) with
    | (d, some r) => (d, r)
    | (d, none) => probe env e k fuel ((i + 1) % 2 ^ e.slotLog2) d

/-- A look-up of a key (R92). -/
def lookUp (d : Dev) (env : Env) (e : Entity) (k : Nat) : Dev × LookUp :=
  if k = 2 ^ 64 - 1 then (d, .miss false) else probe env e k e.probeLimit (e.home k) d

/-- A head's work on one record after a look-up returned a row (R93). -/
def HeadWork.withRow (w : HeadWork) (b : Bytes) (sf : SFlags) : HeadWork :=
  { w with rows := w.rows ++ [b], sflags := w.sflags ||| sf }

/-- One look-up of a head's work (R93, R95). Answers the work and whether a read failed, with its address. -/
def doLookUp (d : Dev) (env : Env) (e : Entity) (k : Nat) (w : HeadWork) : Dev × HeadWork × Option (ReadFail × Nat) :=
  let bad : HeadWork := { w with status := stEntityUnreadable }
  match lookUp d env e k with
  | (d, .failed f a) => (d, bad, some (f, a))
  | (d, .hit b) => (d, w.withRow b 0, none)
  | (d, .miss ex) =>
    match d.readG env e.defaultRow e.rowBytes with
    | .ok b => (d.askRead e.defaultRow e.rowBytes, w.withRow b (if ex then sfMiss ||| sfProbe else sfMiss), none)
    | .error f => (d.askRead e.defaultRow e.rowBytes, bad, some (f, e.defaultRow))

/-- The look-up that a head's work needs next, with its key (R90 step 2). -/
def HeadWork.needs (t : SieveTable) (w : HeadWork) : Option (Entity × Nat) :=
  if w.status ≠ 0 then none
  else (t.entities[w.rows.length]?).map fun e =>
    (e, field (if e.keyArea = 0 then w.record.payload else at' [] w.rows (e.keyArea - 1)) e.keyOffset 8)

/-- The first element of a list that satisfies a test, replaced. -/
def replaceFirst {α : Type} (p : α → Bool) (a : α) : List α → List α
  | [] => []
  | x :: xs => if p x then a :: xs else x :: replaceFirst p a xs

/-- The next look-up of a head (R92 to R95). -/
def entityLookup (n : Nat) (env : Env) (d : Dev) : Dev :=
  let c := d.core n
  if d.stopped n then d
  else match c.sieveActive with
  | none => d
  | some (_, tb) =>
    let t := parseSieve tb
    match c.headWork.find? fun w => (w.needs t).isSome with
    | none => d
    | some w =>
      match w.needs t with
      | none => d
      | some (e, k) =>
        let (d, w', bad) := doLookUp d env e k w
        let d := d.updCore n fun c => { c with headWork := replaceFirst (fun x => (x.needs t).isSome) w' c.headWork }
        match bad with
        | none => d
        | some (f, a) =>
          unreadable d f stEntityUnreadable 1 (homeOf a) ((d.plotOf n).elim 0xFFFF (·.1)) (some w.record.id) none

/-! ### Step 4 -/

/-- A work has what step 4 needs (R90). -/
def HeadWork.ready (t : SieveTable) (w : HeadWork) : Bool := w.status != 0 || t.entities.length ≤ w.rows.length

/-- What the sieve makes of a head's work (R90 step 4): nothing more once it is not scored. -/
def HeadWork.binned (t : SieveTable) (w : HeadWork) : Binned :=
  if w.status ≠ 0 then ⟨[], [], w.sflags, w.nflags, w.status⟩
  else sieveRun t w.record.payload w.rows w.sflags w.nflags

/-- The bin-vector packet of a binned record (R105): no bins and no dense vector when it is not scored. -/
def packetOf (t : SieveTable) (r : Rec) (b : Binned) : BinPacket :=
  { recordId := r.id, ecv := r.ecv, sflags := b.sflags, nflags := b.nflags, status := b.status
    bins := if b.status = 0 then b.bins else []
    dense := if b.status = 0 then tab t.denseCount fun i => Tbl.get 0 i b.dense else [] }

/-- The sieve's status bits and counters after a record (R110): each condition the record reports. -/
def sieveCount (r : CoreRegs) (sf : SFlags) (st : Status) : CoreRegs :=
  let on (b : Bool) (bit lane : Nat) (x : Word × Word) : Word × Word := if b then (setBit x.1 bit, laneBump x.2 lane) else x
  let has (m : SFlags) : Bool := sf &&& m != 0#8
  let a := on (has sfRange) 1 3 (on (st == stInputRange) 1 2 (on (has sfNan) 0 1 (on (st == stNanInput) 0 0
    (r.sieveStatus, r.sieveCntA))))
  let b := on (st == stEntityUnreadable) 5 3 (on (st == stRecordShort) 4 2 (on (has sfProbe) 3 1 (on (has sfMiss) 2 0
    (a.1, r.sieveCntB))))
  { r with sieveStatus := b.1, sieveCntA := a.2, sieveCntB := b.2 }

/-- The head's context of a record takes the sieve's flags (R73). -/
def Ctx.sieved (x : Ctx) (row : Nat) (nf : NFlags) : Ctx := if x.row = row then { x with nflags := x.nflags ||| nf } else x

/-- A head bins the record at the front of its work (R90 step 4, R417), when its output has room (R21): a payload whose
CRC-32C differs from the ECV is a check-value fault of the head. -/
def sieveBin (n : Nat) (u : Upset) (d : Dev) : Dev :=
  let c := d.core n
  if d.stopped n then d
  else match c.headWork, c.sieveActive with
  | w :: rest, some (_, tb) =>
    let t := parseSieve tb
    let w := { w with record := { w.record with payload := u.flipBytes w.record.payload } }
    if !w.ready t || !laneFree c.headOut.length then d
    else guarded d n u (some w.record.id) fun d =>
      if (w.status == 0#16) && crc32c w.record.payload != w.record.ecv then
        d.detect n stCheckValue 5 [] (some w.record.id)
      else
        let b := w.binned t
        d.updCore n fun c =>
          let c := c.raise 0 b.nflags
          { c with regs := sieveCount c.regs b.sflags b.status, headWork := rest
                   ctxs := c.ctxs.map fun x => x.sieved w.row b.nflags
                   headOut := c.headOut ++ [.bins (packetOf t w.record b) w.record.src w.record.stream w.record.q n] }
  | _, _ => d

/-- SIEVE_BIN (R97). -/
def execSieveBin (core : Fin 256) (u : Upset) (s : State) : Host.Outcome State Fault Refusal := onDev (sieveBin core.val u) s

/-! ### Step 5 -/

/-- A bin-lane message is a graft marker. -/
def BinMsg.isMarker : BinMsg → Bool
  | .marker _ _ _ => true
  | .bins _ _ _ _ _ => false

/-- The first core of a chain accepts the packet of the head whose turn it is (R81), when its lane has room (R15, R21) and no
marker waits there to be forwarded (R271); the head counts it (R51, R110). -/
def acceptPacket (n : Nat) (d : Dev) : Dev :=
  match d.plotOf n with
  | none => d
  | some (pid, p) =>
    if !(p.startsHere && p.first == some n) || d.stopped n then d
    else match p.heads[p.rotAccept]? with
    | none => d
    | some h =>
      match (d.core h).headOut with
      | .bins b src st q _ :: rest =>
        let m : BinMsg := .bins b src st q h
        if d.stopped h || (d.core n).binLane.any BinMsg.isMarker || !d.laneRoom n h true m.size then d
        else
          let d := d.updCore h fun c =>
            let r := { c.regs with sieveRecords := c.regs.sieveRecords + 1 }
            { c with headOut := rest, regs := r }.work 1
          let d := d.updCore n fun c => { c with binLane := c.binLane ++ [m] }
          d.updPlot pid fun p => { p with rotAccept := (p.rotAccept + 1) % max 1 p.heads.length }
      | _ => d

/-- BIN_VECTOR_PACKET (R81). -/
def execBinVectorPacket (core : Fin 256) (s : State) : Host.Outcome State Fault Refusal := onDev (acceptPacket core.val) s

end Sys2Proof.Machine
end

