-- ==== Sys2Proof/Machine/Acc.lean ====
section
/-! DEFINITION. Accumulator rows: clearing, chunked 16-bit columns, leaf values, and local sums (R160, R171 to R174, R187,
R193, R197). -/
namespace Sys2Proof.Machine

/-- A record row set to zero with its chunk counters (R193). -/
def Core.clearRow (c : Core) (row : Nat) : Core :=
  { c.accWrite (256 * row) (List.replicate 256 0#8) with chunk := c.chunk.filter fun p => p.1 / 256 ≠ row }

/-- A total that 16-bit columns are promoted into: its byte address, FP32 or FX48, and its scale (R173, R186). -/
structure Total where
  addr : Nat
  fx : Bool
  scale : Int
deriving DecidableEq, Repr

/-- The promotion of a column (R187 steps 2 and 3). -/
def Core.promote (c : Core) (fmt : Fmt) (col : Nat) (t : Total) : Core × NFlags :=
  let v := le (c.accRead col 2)
  let c := { c.accWrite col [0, 0] with chunk := Tbl.del col c.chunk }
  if t.fx then
    let (w, f) := convert fmt 0 .fx48 t.scale .rne v
    (c.accWrite t.addr (toLe 8 (fxAdd (le (c.accRead t.addr 8)) w)), f)
  else
    let (w, f1) := convert fmt 0 .fp32 0 .rne v
    let (s, f2) := fAdd .fp32 .rne (le (c.accRead t.addr 4)) w
    (c.accWrite t.addr (toLe 4 s), f1 ||| f2)

/-- The addition of a 16-bit value into a chunked column (R187 steps 1 and 2). -/
def Core.chunkAdd (c : Core) (fmt : Fmt) (md : Mode) (col : Nat) (t : Total) (len v : Nat) : Core × NFlags :=
  let (s, f1) := fAdd fmt md (le (c.accRead col 2)) v
  let k := Tbl.get 0 col c.chunk + 1
  let c := { c.accWrite col (toLe 2 s) with chunk := Tbl.set 0 col k c.chunk }
  if k = len then let (c, f2) := c.promote fmt col t; (c, f1 ||| f2) else (c, f1)

/-- A column whose counter is nonzero is promoted (R187 step 4). -/
def Core.flushCol (c : Core) (fmt : Fmt) (col : Nat) (t : Total) : Core × NFlags :=
  if Tbl.get 0 col c.chunk = 0 then (c, 0) else c.promote fmt col t

/-- A fold of core updates that raise flags. -/
def foldFlags {α : Type} (l : List α) (c : Core) (f : Core → α → Core × NFlags) : Core × NFlags :=
  l.foldl (fun a x => let (c, g) := f a.1 x; (c, a.2 ||| g)) (c, 0)

/-- The 16-bit format of a pair VALUE_FMT (R117). -/
def pairFmt (valueFmt : Nat) : Fmt := if valueFmt = 2 then .bf16 else .fp16

/-- The chunk column and total of output `j` of a record row (R173). -/
def recordTotal (g : GroveInfo) (row j : Nat) : Nat × Total :=
  (256 * row + 2 * j, { addr := 256 * row + (sumColumn g j).1, fx := false, scale := 0 })

/-- One output of one leaf added into a record row (R160). -/
def addValue (g : GroveInfo) (leaf : Nat → Nat) (row : Nat) (c : Core) (j : Nat) : Core × NFlags :=
  match g.valueFmt with
  | 0 => let (s, f) := fAdd .fp32 .rne (readSum c g row j) (leafValue (leaf j)); (writeSum c g row j s, f)
  | 1 => (writeSum c g row j (fxAdd (readSum c g row j) (ofInt 64 (sext 32 (leafValue (leaf j))))), 0)
  | vf =>
    let (col, t) := recordTotal g row j
    c.chunkAdd (pairFmt vf) .rne col t 16 (bits (leafValue (leaf (j / 2))) (16 * (j % 2)) 16)

/-- A leaf's values added into a record row, output by output; `leaf i` is record `i` of the leaf (R156, R160). -/
def addLeaf (g : GroveInfo) (leaf : Nat → Nat) (row : Nat) (c : Core) : Core × NFlags :=
  foldFlags (List.range g.outputs) c (addValue g leaf row)

/-- The chunks of a record row flushed before its sum leaves the core (R187 step 4). -/
def flushRow (g : GroveInfo) (row : Nat) (c : Core) : Core × NFlags :=
  if g.valueFmt ≤ 1 then (c, 0)
  else foldFlags (List.range g.outputs) c fun c j =>
    let (col, t) := recordTotal g row j
    c.flushCol (pairFmt g.valueFmt) col t

/-- The local sums of a record (R197). -/
def localSums (c : Core) (g : GroveInfo) (row : Nat) : List Nat := tab g.outputs (readSum c g row)

/-- The record's sums as it leaves a core (R197): the local sums, or the incoming ones with the local ones added. -/
def outSums (g : GroveInfo) (ins : Option (List Nat)) (ls : List Nat) : List Nat × NFlags :=
  match ins with
  | none => (ls, 0)
  | some xs =>
    let rs := tab g.outputs fun j => sumAdd g (at' 0 xs j) (at' 0 ls j)
    (rs.map (·.1), rs.foldl (fun a r => a ||| r.2) 0)

/-! ### Preloads -/

/-- What a preload found: the slots, the flags, and the first value that could not be read. -/
structure PreVals where
  vals : List Nat
  flags : NFlags
  bad : Option ReadFail
deriving DecidableEq, Repr

/-- One residual value (R191, R193): the constant, or what its address holds. -/
def Armed.read (a : Armed) (d : Dev) (env : Env) (q j : Nat) : Except ReadFail Nat :=
  let w := (elemFmt a.fmt).size
  match a.const with
  | some v => .ok v
  | none =>
    let x := a.addr + q * a.stride + j * w
    match d.readG env x w with | .ok b => .ok (le b) | .error e => .error e

/-- Read units sent for row `q` of an armed residual or operand of `n` values in another device (R24, R469; log 5). -/
def Armed.ask (a : Armed) (q n : Nat) (d : Dev) : Dev :=
  if a.const.isSome || (a.operand && a.opndKind = 1) then d
  else d.askRead (a.addr + q * a.stride) (n * (elemFmt a.fmt).size)

/-- One output of the preload of R193. -/
def preStep (d : Dev) (env : Env) (g : GroveInfo) (res : Option Armed) (q : Nat) (st : PreVals) (j : Nat) : PreVals :=
  let b := at' 0 (g.base.getD []) j
  match res with
  | some a =>
    if j < a.count && st.bad.isNone then
      match a.read d env q j with
      | .error e => { st with vals := st.vals ++ [b], bad := some e }
      | .ok v =>
        let (x, f1) := convert (elemFmt a.fmt) a.scale g.sumFmt g.fxScale .rne v
        let (s, f2) := sumAdd g b x
        { st with vals := st.vals ++ [s], flags := st.flags ||| f1 ||| f2 }
    else { st with vals := st.vals ++ [b] }
  | none => { st with vals := st.vals ++ [b] }

/-- The preload of the first core for a record (R193, R194). -/
def preload (d : Dev) (env : Env) (g : GroveInfo) (res : Option Armed) (q : Nat) : PreVals :=
  (List.range g.outputs).foldl (preStep d env g res q) ⟨[], 0, none⟩

/-- A preload written into a record's row. -/
def writePre (g : GroveInfo) (row : Nat) (vals : List Nat) (c : Core) : Core :=
  (List.range g.outputs).foldl (fun c j => writeSum c g row j (at' 0 vals j)) (c.clearRow row)

/-! ### Sum packets -/

/-- PFLAGS bits (R196). -/
def pfPruned : Nat := 0
/-- PFLAGS.DECISION. -/
def pfDecision : Nat := 1
/-- PFLAGS.NOT_SCORED. -/
def pfNotScored : Nat := 2
/-- PFLAGS.TRUNCATED. -/
def pfTruncated : Nat := 3

/-- The bytes of a sum packet (R195). -/
def SumPacket.bytes (p : SumPacket) : Bytes :=
  let b := toLe 8 p.recordId ++ toLe 4 p.ecv ++ toLe 4 p.version ++ toLe 2 p.status.toNat ++ toLe 1 p.sflags.toNat ++
    toLe 1 p.nflags.toNat ++ toLe 1 p.pflags ++ toLe 1 p.k ++ toLe 1 p.sumFmt ++ toLe 1 p.fxScale ++ toLe 8 p.boundLo ++
    toLe 8 p.boundHi ++ p.sums.flatMap (toLe 8)
  b ++ toLe 4 (crc32c b) ++ toLe 4 0

/-- The sum packet that bytes spell (R195). -/
def parseSum (b : Bytes) : SumPacket :=
  { recordId := field b 0 8, ecv := field b 8 4, version := field b 0xC 4, status := BitVec.ofNat 16 (field b 0x10 2)
    sflags := BitVec.ofNat 8 (field b 0x12 1), nflags := BitVec.ofNat 8 (field b 0x13 1), pflags := field b 0x14 1
    k := field b 0x15 1, sumFmt := field b 0x16 1, fxScale := field b 0x17 1, boundLo := field b 0x18 8
    boundHi := field b 0x20 8, sums := tab (field b 0x15 1) fun j => field b (0x28 + 8 * j) 8 }

/-- PACKET_CRC is correct (R195, R199 check 1). -/
def sumCrcOk (b : Bytes) : Bool :=
  let n := 0x28 + 8 * field b 0x15 1
  b.length == n + 8 && field b n 4 == crc32c (b.take n)

/-- SUM_FMT and FX_SCALE of a grove's packets (R195). -/
def GroveInfo.fmtCode (g : GroveInfo) : Nat × Nat := if g.valueFmt = 1 then (1, ofInt 8 g.fxScale) else (0, 0)

/-- The checks of R199 on a packet for a context under a bank pair. -/
def sumChecks (g : GroveInfo) (x : Ctx) (b : Bytes) : Bool :=
  let p := parseSum b
  sumCrcOk b && p.recordId == x.recordId && p.version == g.version && p.k == g.outputs && (p.sumFmt, p.fxScale) == g.fmtCode &&
  p.ecv == x.ecv

/-- The incoming packet says pruned or not scored (R247, R166). -/
def SumPacket.passes (p : SumPacket) : Bool := bit p.pflags pfPruned || bit p.pflags pfNotScored

end Sys2Proof.Machine
end

