-- ==== Sys2Proof/Machine/Descent.lean ====
section
/-! DEFINITION. A record in a core: its context, its incoming sum, admission, rounds, leaves, leaf keys, pruning and the
packet it leaves by (R147 to R165, R192 to R199, R240 to R256). -/
namespace Sys2Proof.Machine

/-! ### Where a core stands -/

/-- The core is the first of its plot's whole chain. -/
def Plot.isFirst (p : Plot) (n : Nat) : Bool := p.startsHere && p.first == some n
/-- The core is the plot's finisher tail. -/
def Plot.isTail (p : Plot) (n : Nat) : Bool := p.endsHere && p.last == some n

/-- The rounds of a slice (R148). -/
def Pair.rounds (pr : Pair) : Nat := roundsOf pr.info.fold pr.slice.slots

/-- The bank pair of a context (R155). -/
def Core.pairOf (c : Core) (x : Ctx) : Option Pair := c.pair x.pair

/-- The record was pruned upstream (R247). -/
def Ctx.prunedUp (x : Ctx) : Bool := x.inSum.any fun p => bit p.pflags pfPruned

/-- The record takes no further round in this core (R166, R247, R250). -/
def Ctx.skips (x : Ctx) : Bool := x.notScored || x.pruned.isSome || x.inSum.any SumPacket.passes

/-- All the record's rounds in this core have drained (R161, R166). -/
def Ctx.over (x : Ctx) (n : Nat) : Bool := x.admitted && x.rounds.isEmpty && (x.skips || n ≤ x.issued)

/-- The record may leave the core: its rounds have drained, or it was pruned upstream and its squashed rounds hold only its row
(R197, R247, R256, R258). -/
def Ctx.through (x : Ctx) (n : Nat) : Bool := x.over n || (x.admitted && x.prunedUp)

/-- CORE_DESCENT_RECORDS counts a record whose rounds have all drained (R169). -/
def Core.noteOver (c : Core) (x y : Ctx) (n : Nat) : Core :=
  if !x.over n && y.over n then
    let r := { c.regs with descRecords := c.regs.descRecords + 1 }
    { c with regs := r }
  else c

/-- A context replaced, by its row, and counted when it is through. -/
def Core.putCtx (c : Core) (x y : Ctx) (n : Nat) : Core := (c.updCtx x.row fun _ => y).noteOver x y n

/-! ### Contexts -/

/-- The row a record's context takes: the one its head allocated, or a free one (R21, R82). -/
def Core.ctxRow (c : Core) (rid : Nat) (src : Src) (stream : Nat) : Option Nat :=
  match c.ctxs.find? fun x => !x.hasBins && x.isFor rid src stream with
  | some x => some x.row
  | none => c.freeRow

/-- A bin-vector packet or a marker handed to the next core of the chain, over a link where the chain leaves the device
(R198). -/
def forwardBins (d : Dev) (pid : Nat) (p : Plot) (n : Nat) (m : BinMsg) (bytes : Bytes) (kind : Nat) : Dev :=
  match p.after n with
  | some k => d.updCore k fun c => { c with binLane := c.binLane ++ [m] }
  | none => if p.endsHere then d else sendUnit d p.lay.nextDevice kind pid bytes (.bins n)

/-- The packet of a record that its first core found not scored: no bins, no dense vector (R105, R194, R256). -/
def BinPacket.unscored (b : BinPacket) (st : Status) : BinPacket := { b with status := st, bins := [], dense := [] }

/-- A context as its bins arrive (R21, R73, R107). -/
def Ctx.arrive (x : Ctx) (b : BinPacket) (pair : Nat) (keys : Bool) : Ctx :=
  { x with hasBins := true, bins := b.bins, dense := b.dense, sflags := b.sflags, binFlags := b.nflags,
           notScored := b.status != 0, status := if b.status ≠ 0 then b.status else sieveStatus b.sflags, pair := pair,
           keysSent := !keys }

/-- The residual that applies to a source's records (R191). -/
def residualOf (d : Dev) (src : Src) : Option Armed := (d.feed src).bind (·.residual)

/-- A record's context allocated in a core, preloaded in the first core of the chain, and its bins forwarded (R21, R193,
R198). Where the residual cannot be read the record is not scored, whatever its status was (R194). -/
def allocate (d : Dev) (env : Env) (pid : Nat) (p : Plot) (n : Nat) (g : GroveInfo) (row : Nat) (b : BinPacket) (src : Src)
    (stream q : Nat) : Dev :=
  let c := d.core n
  let pre := if p.isFirst n then preload d env g (residualOf d src) q else ⟨List.replicate g.outputs 0, 0, none⟩
  let lost := pre.bad.isSome
  let b := if lost then b.unscored stResidualUnreadable else b
  let old := (c.ctxs.find? fun x => !x.hasBins && x.isFor b.recordId src stream).getD
    (Ctx.fresh b.recordId src stream q b.ecv row)
  let x := old.arrive b c.active g.leafToId
  let x := { x with nflags := x.nflags ||| pre.flags }
  let d := d.updCore n fun c =>
    let c := (writePre g row pre.vals c).raise old.nflags pre.flags
    let r := if lost then
        let (st, cnt) := (setBit c.regs.accStatus 2, laneBump c.regs.accCnt 2)
        { c.regs with accStatus := st, accCnt := cnt }
      else c.regs
    { c with regs := r, binLane := c.binLane.drop 1, ctxs := (c.ctxs.filter fun y => y.row ≠ row) ++ [x] }
  let d := forwardBins d pid p n (.bins b src stream q n) b.bytes 1
  let d := if p.isFirst n then (residualOf d src).elim d fun a => a.ask q a.count d else d
  match lost, pre.bad with
  | true, some e => unreadable d e stResidualUnreadable 0 n pid (some b.recordId) none
  | _, _ => d

/-- An uncorrectable error in a cluster's chain buffers, the last 8 MiB of its SRAM (R29, R419). -/
def chainBad (env : Env) (k : Nat) : Bool :=
  env.ecc.any fun p => overlaps p.1 p.2 (0xF100000000 + k * 0x4000000 + 0x2800000) 0x800000

/-- The bins at the front of a core's bin lane take a context, when a row is free and the next lane has room for them; else
their acknowledgement is withheld (R15, R21). An uncorrectable error in the chain buffers restarts the plot (R419). -/
def contextAllocate (n : Nat) (env : Env) (d : Dev) : Dev :=
  let c := d.core n
  if d.stopped n then d
  else match d.plotOf n, c.binLane, c.activePair with
  | some (pid, p), .bins b src st q sender :: _, some pr =>
    if sender / 64 ≠ n / 64 && chainBad env (n / 64) then askRestart d pid stEcc 4 3 (n / 64) (toLe 1 5)
    else match c.ctxRow b.recordId src st with
    | some row =>
      if d.nextRoom p n true (BinMsg.bins b src st q n).size then (allocate d env pid p n pr.info row b src st q).refill sender
      else d
    | none => d
  | _, _, _ => d

/-- CONTEXT_ALLOCATE (R21). -/
def execContextAllocate (core : Fin 256) (env : Env) (s : State) : Host.Outcome State Fault Refusal :=
  onDev (contextAllocate core.val env) s

/-- A context whose row can be freed: its rounds have drained, its packet or result is acknowledged, its keys are taken
(R22, R164). -/
def Core.done (c : Core) (x : Ctx) : Bool := x.acked && x.keysSent && (c.pairOf x).any fun pr => x.over pr.rounds

/-- The row of the oldest finished context freed (R22). -/
def contextFree (n : Nat) (d : Dev) : Dev :=
  if d.stopped n then d
  else d.updCore n fun c =>
    match c.ctxs.find? c.done with
    | some x => { c with ctxs := c.ctxs.filter fun y => y.row ≠ x.row }
    | none => c

/-- CONTEXT_FREE (R22). -/
def execContextFree (core : Fin 256) (s : State) : Host.Outcome State Fault Refusal := onDev (contextFree core.val) s

/-! ### The pruning test -/

/-- The interval of a test point (R240): lo rounded down, hi rounded up, or exact. -/
def interval (g : GroveInfo) (s : Nat) (b : Nat × Nat) : Nat × Nat × NFlags :=
  if g.valueFmt = 1 then (fxAdd s b.1, fxAdd s b.2, 0)
  else
    let (lo, f1) := fAdd .fp32 .rdn s b.1
    let (hi, f2) := fAdd .fp32 .rup s b.2
    (lo, hi, f1 ||| f2)

/-- One running-sum slot is below another, and not below it (R241): signed 64-bit, or FP32 by R69 and R70. -/
def slotLt (g : GroveInfo) (a b : Nat) : Bool :=
  if g.valueFmt = 1 then sext 64 a < sext 64 b else Val.lt (floatVal .fp32 a) (floatVal .fp32 b)

/-- One running-sum slot is at most another (R241). -/
def slotLe (g : GroveInfo) (a b : Nat) : Bool :=
  if g.valueFmt = 1 then sext 64 a ≤ sext 64 b else Val.le (floatVal .fp32 a) (floatVal .fp32 b)

/-- A slot is NaN. -/
def slotNan (g : GroveInfo) (a : Nat) : Bool := g.valueFmt != 1 && (floatVal .fp32 a).isNan

/-- The rule of R241: the decision, when the test is decisive. -/
def decisive (g : GroveInfo) (s lo hi : Nat) (b : Nat × Nat) : Option Bool :=
  if slotNan g s || slotNan g lo || slotNan g hi || slotLt g b.2 b.1 then none
  else if g.sense = 0 then
    (if slotLt g g.threshold lo then some true else if slotLe g hi g.threshold then some false else none)
  else if slotLe g g.threshold lo then some true
  else if slotLt g hi g.threshold then some false else none

/-- S_r of a record in its core (R240), with the flags of its addition. -/
def pointSum (c : Core) (g : GroveInfo) (x : Ctx) : Nat × NFlags :=
  let l := readSum c g x.row 0
  match x.inSum with
  | none => (l, 0)
  | some p => sumAdd g (at' 0 p.sums 0) l

/-- The core makes the test at point `r` of a record (R242, R254): PRUNE is set, the incoming sum is known, nothing
pruned the record, and it is not the tail's last point. -/
def testable (pr : Pair) (first tail : Bool) (x : Ctx) (r : Nat) : Bool :=
  pr.info.prune && !x.skips && (first || x.inSum.isSome) && !(tail && r == pr.rounds)

/-- The rounds of a context that are still in flight squashed (R250, R256). -/
def Ctx.squash (x : Ctx) : Ctx := { x with rounds := x.rounds.map fun (r : Round) => { r with squashed := true } }

/-- A core's pruning counters after it pruned a record (R261). -/
def Core.notePruned (c : Core) (dec : Bool) : Core :=
  let r := { c.regs with pruneRecords := c.regs.pruneRecords + 1,
                         pruneDecisions := laneAdd32 c.regs.pruneDecisions (if dec then 0 else 1) 1 }
  { c with regs := r }

/-- The test at point `r` of a record: when it is decisive the record is pruned and its other rounds are squashed; only
then do the additions' flags stand (R240 to R242, R250). -/
def testPoint (pr : Pair) (first tail : Bool) (r : Nat) (c : Core) (x : Ctx) : Core × Ctx :=
  if !testable pr first tail x r then (c, x)
  else
    let (s, f1) := pointSum c pr.info x
    let b := at' (0, 0) pr.slice.bounds r
    let (lo, hi, f2) := interval pr.info s b
    match decisive pr.info s lo hi b with
    | none => (c, x)
    | some dec =>
      ((c.raise x.nflags (f1 ||| f2)).notePruned dec,
       { x with pruned := some ⟨dec, s, lo, hi⟩, nflags := x.nflags ||| f1 ||| f2 }.squash)

/-! ### Incoming sums -/

/-- The context a sum packet is for: the oldest that still awaits its incoming sum (R199). -/
def Core.awaiting (c : Core) : Option Ctx := c.ctxs.find? fun x => x.hasBins && x.inSum.isNone

/-- The sender's context of a packet acknowledged, and the packet counted as sent (R22, R212). -/
def ackSender (d : Dev) (n : Nat) : Dev :=
  d.updCore n fun c =>
    match c.ctxs.find? fun x => x.sent && !x.acked with
    | none => c
    | some x =>
      let r := { c.regs with sumsOut := c.regs.sumsOut + 1 }
      { c.updCtx x.row fun x => { x with acked := true } with regs := r }

/-- A packet that fails a check (R199, R418): counted here, and charged to the core that sent it, or to the plot where it
came over a chain link. -/
def sumCheckFailed (d : Dev) (n pid sender : Nat) (remote : Bool) (rid : Option Nat) : Dev :=
  let d := d.updCore n fun c =>
    let r := { c.regs with accStatus := setBit c.regs.accStatus 1, accCnt := laneBump c.regs.accCnt 1 }
    { c with regs := r }
  if remote then askRestart d pid stSumPacketCheck 6 0 0xFFFF []
  else d.detect sender stSumPacketCheck 6 [] rid

/-- A context after it took its incoming packet: work of a pruned record is discarded (R256), else point `added` is
tested (R253, R254). -/
def takeInto (pr : Pair) (tail : Bool) (p : SumPacket) (c : Core) (x : Ctx) : Core :=
  let y := { x with inSum := some p }
  if p.passes then
    let r := if bit p.pflags pfPruned then
        { c.regs with pruneDiscarded := c.regs.pruneDiscarded + BitVec.ofNat 64 x.added } else c.regs
    { c with regs := r }.putCtx x y.squash pr.rounds
  else
    let (c, y) := testPoint pr false tail x.added c y
    c.putCtx x y pr.rounds

/-- A core's sum lane with its first packet marked as one that failed a check (R199). -/
def Core.failSum (c : Core) : Core :=
  match c.sumLane with
  | m :: ms => { c with sumLane := { m with failed := true } :: ms }
  | [] => c

/-- A core takes the sum packet at the front of its sum lane, when the context it is for is there (R199). A packet that fails a
check stays there, is reported once, and nothing is ever taken from it. -/
def takeSum (n : Nat) (u : Upset) (d : Dev) (pid : Nat) (p : Plot) (m : SumMsg) : Dev :=
  let c := d.core n
  match c.awaiting with
  | none => d
  | some x =>
    match c.pairOf x with
    | none => d
    | some pr =>
      if m.failed then d
      else if u.chainBuffer then askRestart d pid stEcc 4 3 (n / 64) (toLe 1 5)
      else guarded d n u (some x.recordId) fun d =>
        let b := u.flipBytes m.bytes
        if !sumChecks pr.info x b then
          sumCheckFailed (d.updCore n Core.failSum) n pid m.sender m.remote (some x.recordId)
        else
          let d := d.updCore n fun c =>
            let r := { c.regs with sumsIn := c.regs.sumsIn + 1 }
            takeInto pr (p.isTail n) (parseSum b) { c with regs := r, sumLane := c.sumLane.drop 1 } x
          if m.remote then d.refill 256 else ackSender d m.sender

/-! ### Admission and rounds -/

/-- The records that hold a half of the bed replicas (R150): admitted, with rounds still to issue. A round's lanes leave the
beds as its node reads are made (log 26). -/
def Core.halvesUsed (c : Core) : Nat :=
  (c.ctxs.filter fun x => x.admitted && !x.skips && (c.pairOf x).any fun pr => x.issued < pr.rounds).length

/-- The next record is admitted in order (R149, R253, R254): in STRICT mode after its incoming sum, and into a free half
of the beds when it has rounds; the first core tests point 0. -/
def admitRecord (n : Nat) (d : Dev) : Dev :=
  match d.plotOf n with
  | none => d
  | some (_, p) =>
    if d.stopped n then d
    else d.updCore n fun c =>
      match c.ctxs.find? fun x => x.hasBins && !x.admitted with
      | none => c
      | some x =>
        match c.pairOf x with
        | none => c
        | some pr =>
          let first := p.isFirst n
          let y := { x with admitted := true }
          if !first && p.lay.chainMode == 0 && x.inSum.isNone then c
          else if !y.over pr.rounds && 2 ≤ c.halvesUsed then c
          else
            let (c, y) := if first then testPoint pr true (p.isTail n) 0 c y else (c, y)
            c.putCtx x y pr.rounds

/-- RECORD_ADMIT (R149). -/
def execRecordAdmit (core : Fin 256) (s : State) : Host.Outcome State Fault Refusal := onDev (admitRecord core.val) s

/-- A feature is in the feature map of the replica that serves a stage (R121, R154). -/
def inFeatureMap (fold : Nat) (sl : Slice) (k f : Nat) : Bool :=
  let s := (foldGS fold).2
  let stages := if fold = 0 then [at' [] sl.stages k] else tab s fun i => at' [] sl.stages (k / s * s + i)
  stages.any fun st => st.any fun e => let n := Node.ofWord e; !n.pad && n.feature == f

/-- The descent of one tree (R152 to R154) from entry `i` of stage `k`, after `rd` node reads of the step, with `fuel`
stages left: the lane, or the fault, and the reads so far. INDEX of a code violation is 0, which R169 leaves open (DESIGN
CHOICE, log 26). -/
def descendGo (fold stride : Nat) (sl : Slice) (bins : List Nat) (u : Upset) (t : Nat) :
    Nat → Nat → Nat → Nat → Nat → Nat → Except DescFault Lane × Nat
  | 0, k, i, dp, p, rd => (.error ⟨2, p, t, dp, k, 0, 0, i⟩, rd)
  | fuel + 1, k, i, dp, p, rd =>
    let e := u.flipWord rd (at' 0 (at' [] sl.stages k) i)
    let n := Node.ofWord e
    if u.codeAt rd then (.error ⟨3, p, t, dp, k, 0, 0, 0⟩, rd)
    else if nodeCrc e ≠ n.crc then (.error ⟨2, p, t, dp, k, 0, 0, i⟩, rd)
    else if n.pad then (.ok ⟨t, dp, p, n.left, k⟩, rd + 1)
    else if !inFeatureMap fold sl k n.feature then (.error ⟨2, p, t, dp, k, 0, 0, i⟩, rd)
    else
      let left := decide (at' 0 bins n.feature ≤ n.threshold) != n.invert
      let b := if left then 0 else 1
      if n.terminal then (.ok ⟨t, dp + 1, p + b * 2 ^ dp, n.left + b * stride, k⟩, rd + 1)
      else descendGo fold stride sl bins u t fuel (k + 1) (n.left + b) (dp + 1) (p + b * 2 ^ dp) (rd + 1)

/-- The slots of a round in ascending order (R147). -/
def roundSlots (fold slots r : Nat) : List Nat :=
  let g := (foldGS fold).1
  (tab (64 * g) fun i => 64 * g * r + i).filter (· < slots)

/-- The trees of a round, one after another until a fault. -/
def descendAll (fold stride : Nat) (sl : Slice) (bins : List Nat) (u : Upset) :
    List Nat → Nat → Except DescFault (List Lane)
  | [], _ => .ok []
  | t :: ts, rd =>
    let (g, s) := foldGS fold
    match descendGo fold stride sl bins u t s (t % g * s) (t / g) 0 0 rd with
    | (.error f, _) => .error f
    | (.ok l, rd) =>
      match descendAll fold stride sl bins u ts rd with
      | .error f => .error f
      | .ok ls => .ok (l :: ls)

/-- One more transfer of descent stage 0 (R54): a round is one, whether or not its lanes hold trees (DEDUCED, log 26). -/
def Core.countTransfer (c : Core) : Core :=
  let r := { c.regs with xfer := c.regs.xfer + 1 }
  { c with regs := r }

/-- The next round of the oldest record that has one to issue descends (R147 to R155). -/
def roundIssue (n : Nat) (u : Upset) (d : Dev) : Dev :=
  let c := d.core n
  let due (x : Ctx) : Bool := x.admitted && !x.skips && (c.pairOf x).any fun pr => x.issued < pr.rounds
  if d.stopped n then d
  else match c.ctxs.find? due with
  | none => d
  | some x =>
    match c.pairOf x with
    | none => d
    | some pr =>
      let g := pr.info
      guarded d n u.eccOnly (some x.recordId) fun d =>
        match descendAll g.fold (strideOf g.valueFmt g.outputs) pr.slice x.bins u (roundSlots g.fold pr.slice.slots x.issued) 0 with
        | .error f => descentFault d n x.pair f x.recordId
        | .ok ls =>
          d.updCore n fun c => c.countTransfer.updCtx x.row fun x =>
            { x with issued := x.issued + 1, rounds := x.rounds ++ [⟨ls, false⟩] }

/-- ROUND_ISSUE (R152). -/
def execRoundIssue (core : Fin 256) (u : Upset) (s : State) : Host.Outcome State Fault Refusal := onDev (roundIssue core.val u) s

/-- The leaf records of a round as its leaf stage reads them: record `i` of the lane's leaf, at read `rd`. -/
def leafAt (sl : Slice) (u : Upset) (rd : Nat) (l : Lane) (i : Nat) : Nat := u.flipWord (rd + i) (at' 0 sl.leaves (l.leaf + i))

/-- The first leaf record whose signature is not that of the path, or a code violation (R156, R157). A code violation met on a
leaf read has no node stage: its STAGE is that where the path ended (DESIGN CHOICE, log 26). -/
def leafCheck (stride : Nat) (sl : Slice) (u : Upset) (rd : Nat) (l : Lane) : Option DescFault :=
  let sig := pathSignature l.slot l.depth l.path
  (List.range stride).findSome? fun i =>
    let w := leafAt sl u rd l i
    if u.codeAt (rd + i) then some ⟨3, l.path, l.slot, l.depth, l.stage, 0, 0, 0⟩
    else if leafSig w ≠ sig then some ⟨1, l.path, l.slot, l.depth, l.stage, sig, leafSig w, l.leaf + i⟩ else none

/-- The first fault of a round's leaf checks, in slot order. -/
def leafChecks (stride : Nat) (sl : Slice) (u : Upset) : List Lane → Nat → Option DescFault
  | [], _ => none
  | l :: ls, rd =>
    match leafCheck stride sl u rd l with
    | some f => some f
    | none => leafChecks stride sl u ls (rd + stride)

/-- The key of a lane's slot, when the grove emits one (R162). -/
def leafKey (pr : Pair) (u : Upset) (rd : Nat) (l : Lane) : Option Nat :=
  let b := at' (2 ^ 64 - 1) pr.slice.keybase l.slot
  if pr.info.leafToId && b != 2 ^ 64 - 1 then some ((b + leafTag (leafAt pr.slice u rd l 0)) % 2 ^ 64) else none

/-- A round's lanes added into the row in slot order, with their keys (R160, R162). -/
def addLanes (pr : Pair) (u : Upset) (row : Nat) : List Lane → Nat → Core → Core × NFlags × List Nat
  | [], _, c => (c, 0, [])
  | l :: ls, rd, c =>
    let (c, f) := addLeaf pr.info (leafAt pr.slice u rd l) row c
    let (c, g, ks) := addLanes pr u row ls (rd + strideOf pr.info.valueFmt pr.info.outputs) c
    (c, f ||| g, (leafKey pr u rd l).toList ++ ks)

/-- A round drained and counted (R161). -/
def Core.countRound (c : Core) : Core :=
  let r := { c.regs with descRounds := c.regs.descRounds + 1 }
  { c with regs := r }.work 1

/-- A squashed round leaves the pipeline (R250). -/
def drainSquashed (pr : Pair) (x : Ctx) (c : Core) : Core :=
  let r := { c.regs with pruneSquashed := c.regs.pruneSquashed + 1 }
  ({ c with regs := r }.countRound).putCtx x { x with rounds := x.rounds.drop 1 } pr.rounds

/-- A round whose leaf checks passed is added to the row, and the next point is tested (R160 to R162, R242, R249). -/
def drainRound (pr : Pair) (first tail : Bool) (u : Upset) (r : Round) (x : Ctx) (c : Core) : Core :=
  let (c, f, ks) := addLanes pr u x.row r.lanes 0 c
  let y := { x with rounds := x.rounds.drop 1, added := x.added + 1, nflags := x.nflags ||| f, keys := x.keys ++ ks }
  let (c, y) := testPoint pr first tail y.added (c.raise x.nflags f).countRound y
  c.putCtx x y pr.rounds

/-- A round's leaf stage: its leaf checks, and where they pass what comes after (R156, R157). -/
def leafStage (pr : Pair) (n : Nat) (u : Upset) (r : Round) (x : Ctx) (after : Dev → Dev) (d : Dev) : Dev :=
  guarded d n u.eccOnly (some x.recordId) fun d =>
    match leafChecks (strideOf pr.info.valueFmt pr.info.outputs) pr.slice u r.lanes 0 with
    | some f => descentFault d n x.pair f x.recordId
    | none => after d

/-- The oldest round in flight drains (R156 to R161, R165). A squashed one that stood at the gate has made its leaf checks, and
a fault of them is one; one that had not come to the leaf stage makes none (R251). Which of the two it is, is a free value. -/
def roundDrain (n : Nat) (u : Upset) (d : Dev) : Dev :=
  let c := d.core n
  if d.stopped n then d
  else match d.plotOf n, c.ctxs.find? fun x => !x.rounds.isEmpty with
  | some (_, p), some x =>
    match c.pairOf x, x.rounds with
    | some pr, r :: _ =>
      if !r.squashed then leafStage pr n u r x (fun d => d.updCore n (drainRound pr (p.isFirst n) (p.isTail n) u r x)) d
      else
        let go (d : Dev) : Dev := d.updCore n (drainSquashed pr x)
        let held := Config.atGate d.free
        let d := { d with free := d.free + 1 }
        if held then leafStage pr n u r x go d else go d
    | _, _ => d
  | _, _ => d

/-- ROUND_DRAIN (R161). -/
def execRoundDrain (core : Fin 256) (u : Upset) (s : State) : Host.Outcome State Fault Refusal := onDev (roundDrain core.val u) s

/-! ### Leaf keys -/

/-- The leaf-key block of a record (R163, R248). -/
def keyBlockBytes (x : Ctx) : Bytes :=
  let ks := if x.prunedUp then [] else x.keys
  let tr := x.prunedUp || x.pruned.isSome
  toLe 8 x.recordId ++ toLe 4 x.ecv ++ toLe 2 ks.length ++ toLe 1 (b2n tr) ++ toLe 1 0 ++ ks.flatMap (toLe 8)

/-- The table engines take the leaf-key block of the oldest record whose keys are not sent (R163, R164). -/
def leafKeyBlock (n : Nat) (d : Dev) : Dev :=
  match d.plotOf n with
  | none => d
  | some (_, p) =>
    if d.stopped n then d
    else d.updCore n fun c =>
      match c.ctxs.find? fun x => x.hasBins && !x.keysSent with
      | none => c
      | some x =>
        if (c.pairOf x).any (fun pr => x.over pr.rounds) && (p.isFirst n || x.inSum.isSome) then
          let b := keyBlockBytes x
          let r := { c.regs with descKeys := c.regs.descKeys + BitVec.ofNat 64 (field b 0xC 2) }
          { c.updCtx x.row fun x => { x with keysSent := true } with
            regs := r, keyBlocks := c.keyBlocks ++ [⟨x.src, x.q, b⟩] }
        else c

/-- LEAF_KEY_BLOCK (R163). -/
def execLeafKeyBlock (core : Fin 256) (s : State) : Host.Outcome State Fault Refusal := onDev (leafKeyBlock core.val) s

/-! ### The packet a record leaves by -/

/-- What a record leaves a core with (R195 to R197, R245 to R247): the core with its chunks flushed, and the packet. A
pruned or unscored record's sums pass unchanged; only a pruned one's bounds do (R246, R247). -/
def finalPacket (pr : Pair) (first : Bool) (x : Ctx) (c : Core) : Core × SumPacket :=
  let g := pr.info
  let ups := x.inSum.any SumPacket.passes
  let (c, f1) := if x.skips then (c, (0 : NFlags)) else flushRow g x.row c
  let ls := localSums c g x.row
  let ins := x.inSum.map (·.sums)
  let (sums, f2) := if ups || (x.notScored && !first) then (ins.getD ls, (0 : NFlags)) else outSums g ins ls
  let fl := if x.pruned.isSome then 0 else f1 ||| f2
  let c := c.raise x.nflags fl
  let inPf := (x.inSum.map (·.pflags)).getD 0
  let st := match x.inSum with
    | some p => if bit p.pflags pfNotScored then p.status else x.status
    | none => x.status
  let (lo, hi, _) := if g.prune then interval g (at' 0 sums 0) (at' (0, 0) pr.slice.bounds pr.rounds) else (0, 0, 0)
  let (lo, hi) := if x.prunedUp then ((x.inSum.map (·.boundLo)).getD 0, (x.inSum.map (·.boundHi)).getD 0) else (lo, hi)
  let pf := b2n (bit inPf pfPruned) + 2 * b2n (bit inPf pfDecision) + 4 * b2n (x.notScored || bit inPf pfNotScored) +
    8 * b2n (bit inPf pfTruncated)
  let p : SumPacket :=
    { recordId := x.recordId, ecv := x.ecv, version := g.version, status := st, sflags := x.sflags
      nflags := x.nflags ||| fl ||| x.binFlags ||| (x.inSum.map (·.nflags)).getD 0, pflags := pf, k := g.outputs
      sumFmt := g.fmtCode.1, fxScale := g.fmtCode.2, boundLo := lo, boundHi := hi, sums := sums }
  match x.pruned with
  | none => (c, p)
  | some z =>
    (c, { p with sums := [z.sum], boundLo := z.lo, boundHi := z.hi,
                 pflags := 1 + 2 * b2n z.decision + 8 * b2n g.leafToId })

/-- A sum or reduction packet handed to the next core, over a link where the chain leaves the device (R198). -/
def sendSum (d : Dev) (pid : Nat) (p : Plot) (n : Nat) (reduction : Bool) (b : Bytes) (sender : TxSender) : Dev :=
  match p.after n with
  | some k => d.updCore k fun c => { c with sumLane := c.sumLane ++ [⟨reduction, b, false, n, false⟩] }
  | none => sendUnit d p.lay.nextDevice (if reduction then 5 else 4) pid b sender

/-- A core's packet or result marked sent: it waits for its acknowledgement (R22). -/
def noteSent (x : Ctx) (c : Core) : Core :=
  let r := { c.regs with prunePassed := if x.prunedUp then c.regs.prunePassed + 1 else c.regs.prunePassed }
  { c.updCtx x.row fun x => { x with sent := true, acked := false } with regs := r }

/-- The bytes of a core's sum packet (R195). -/
def sumSize (g : GroveInfo) : Nat := 0x30 + 8 * g.outputs

/-- The oldest record not yet sent leaves the core in a sum packet, when the lane or link has room for it (R165, R195 to R198,
R200). -/
def sumPacketSend (n : Nat) (d : Dev) : Dev :=
  let c := d.core n
  match d.plotOf n, c.ctxs.find? fun x => x.hasBins && !x.sent with
  | some (pid, p), some x =>
    match c.pairOf x with
    | none => d
    | some pr =>
      if d.stopped n || p.isTail n || !x.through pr.rounds || !(p.isFirst n || x.inSum.isSome) ||
          !d.nextRoom p n false (sumSize pr.info) then d
      else
        let (c, pk) := finalPacket pr (p.isFirst n) x c
        let d := d.setCore n (noteSent x c)
        sendSum d pid p n false pk.bytes (.sum n)
  | _, _ => d

/-- SUM_PACKET_SEND (R197). -/
def execSumPacketSend (core : Fin 256) (s : State) : Host.Outcome State Fault Refusal := onDev (sumPacketSend core.val) s

end Sys2Proof.Machine
end

