-- ==== Sys2Proof/Machine/Tiles.lean ====
section
/-! DEFINITION. Tiles of accumulator memory: tile words, allocation, preloads and releases, armed residuals (R175 to R192,
R210). -/
namespace Sys2Proof.Machine

/-- TILE_INVALID (R213). -/
def stTileInvalid : Status := 0x1040
/-- TILE_UNALLOCATED. -/
def stTileUnallocated : Status := 0x1041
/-- TILE_OVERLAP. -/
def stTileOverlap : Status := 0x1042
/-- TILE_TABLE_FULL. -/
def stTileTableFull : Status := 0x1043
/-- INDEX_RANGE. -/
def stIndexRange : Status := 0x1044
/-- TILE_SHAPE. -/
def stTileShape : Status := 0x1045

/-! ### Tile words -/

/-- The fields of a tile word (R175). -/
def TileWord.of (w : Nat) : TileWord :=
  { core := bits w 0 8, row0 := bits w 8 12, rows := bits w 20 13, col0 := bits w 33 7, cols := bits w 40 8
    mode := bits w 48 3, scale := sext 8 (bits w 52 8) }

/-- The format of a tile MODE (R175). -/
def modeFmt (m : Nat) : Fmt :=
  match m with | 0 => .fp32 | 1 => .int32 | 2 => .bf16 | 3 => .fp16 | _ => .fx48

/-- A MODE is one of the two 16-bit formats. -/
def mode16 (m : Nat) : Bool := m == 2 || m == 3

namespace TileWord

/-- The width of the tile's elements (R171). -/
def width (t : TileWord) : Nat := (modeFmt t.mode).size
/-- The format of the tile's elements. -/
def fmt (t : TileWord) : Fmt := modeFmt t.mode
/-- The byte address of an element in the core's accumulator memory (R171, R175). -/
def addr (t : TileWord) (r c : Nat) : Nat := 256 * (t.row0 + r) + (t.col0 + c) * t.width

end TileWord

/-- A tile word breaks R176, its scale range apart. -/
def tileBad (w : Nat) : Bool :=
  let t := TileWord.of w
  4 < t.mode || bit w 51 || bits w 60 4 != 0 || t.rows == 0 || t.cols == 0 || 4096 < t.row0 + t.rows ||
  t.col0 * t.width % 8 != 0 || t.cols * t.width % 8 != 0 || 256 < (t.col0 + t.cols) * t.width ||
  (t.scale != 0 && t.mode != 4)

/-- The checks of a tile word that need no state (R176). -/
def tileForm (w : Nat) : List (Bool × Status) :=
  [(tileBad w, stTileInvalid), (!scaleOk (TileWord.of w).scale, stFxScaleInvalid)]

/-- A tile word without its SCALE. -/
def noScale (w : Nat) : Nat := w - bits w 52 8 * 2 ^ 52

/-- The entry of an allocated tile (R177). -/
def Core.tile (c : Core) (w : Nat) : Option Tile := c.tiles.find? fun t => t.word = w

/-- A tile of the table overlaps a word, by itself or by its total tile (R177, R186). -/
def Tile.overlaps (t : Tile) (w : Nat) : Bool := Dev.tileOverlap t.word w || t.total.any fun v => Dev.tileOverlap v w

/-- The rejection of a word that names no allocated tile (R177, R62). -/
def Core.allocCheck (c : Core) (w : Nat) : Option Status :=
  if (c.tile w).isSome then none
  else if c.tiles.any (fun t => t.word ≠ w && noScale t.word = noScale w) then some stFxScaleMismatch
  else if c.tiles.any (·.overlaps w) then some stTileOverlap else some stTileUnallocated

/-- A core that no tile word may name: fenced, retired, or in no plot in force (R176). -/
def Dev.badCore (d : Dev) (n : Nat) : Bool := (d.core n).fenced || (d.core n).retired || (d.plotOf n).isNone

/-- A persistent task holds a tile that overlaps a word (R184). -/
def Core.tileHeld (c : Core) (w : Nat) : Bool := c.tiles.any fun t => t.heldBy.isSome && t.overlaps w

/-- The state checks of a word that must name an allocated tile (R176, R177, R184). -/
def tileState (d : Dev) (w : Nat) : List (Bool × Status) :=
  let n := bits w 0 8
  [(d.badCore n, stStateConflict), ((d.core n).tileHeld w, stTileHeld)] ++
  (match (d.core n).allocCheck w with | some s => [(true, s)] | none => [])

/-- The entries of the tile table that a tile takes: two when it is promoted (R178). -/
def Tile.entries (t : Tile) : Nat := if t.total.isSome then 2 else 1

/-- The entries of the tile table in use (R178). -/
def Core.tileEntries (c : Core) : Nat := (c.tiles.map Tile.entries).sum

/-- The entries whose tiles a persistent task holds (R212). -/
def Core.heldEntries (c : Core) : Nat := ((c.tiles.filter fun t => t.heldBy.isSome).map Tile.entries).sum

/-! ### Elements -/

/-- The word an operation reads a tile through: a promoted tile's totals (R187). -/
def Tile.readWord (t : Tile) : Nat := t.total.getD t.word

/-- An element of a tile. -/
def Core.elem (c : Core) (t : TileWord) (r k : Nat) : Nat := le (c.accRead (t.addr r k) t.width)

/-- An element of a tile written. -/
def Core.setElem (c : Core) (t : TileWord) (r k v : Nat) : Core := c.accWrite (t.addr r k) (toLe t.width v)

/-- The positions of a tile, row by row. -/
def TileWord.cells (t : TileWord) : List (Nat × Nat) := (List.range t.rows).flatMap fun r => (List.range t.cols).map fun k => (r, k)

/-- The total of a promoted tile's column (R186). -/
def totalOf (v : TileWord) (r k : Nat) : Total := { addr := v.addr r k, fx := v.mode == 4, scale := v.scale }

/-- A tile's flags with more ORed in, counted in the core where they are new (R73, R75). -/
def Core.flagTile (c : Core) (w : Nat) (f : NFlags) : Core :=
  match c.tile w with
  | none => c
  | some t =>
    { c.raise t.nflags f with tiles := c.tiles.map fun x => if x.word = w then { x with nflags := x.nflags ||| f } else x }

/-- A promoted tile flushed before an operation reads it (R187 steps 4 and 5). -/
def Core.flushTile (c : Core) (w : Nat) : Core × NFlags :=
  match (c.tile w).bind (·.total) with
  | none => (c, 0)
  | some v =>
    let t := TileWord.of w
    let (c, f) := foldFlags t.cells c fun c p => c.flushCol t.fmt (t.addr p.1 p.2) (totalOf (TileWord.of v) p.1 p.2)
    (c.flagTile w f, f)

/-- The tile word through which a named tile is read. -/
def Core.readWord (c : Core) (w : Nat) : TileWord := TileWord.of (((c.tile w).map Tile.readWord).getD w)

/-- A value added into an element of a tile in its format (R59, R63, R187): a promoted tile counts its column. -/
def Core.addElem (c : Core) (w : Nat) (r k : Nat) (md : Mode) (v : Nat) : Core × NFlags :=
  let t := TileWord.of w
  match (c.tile w).bind (·.total) with
  | some tot => c.chunkAdd t.fmt md (t.addr r k) (totalOf (TileWord.of tot) r k) (((c.tile w).map (·.chunk)).getD 16) v
  | none =>
    match t.fmt with
    | .int32 => let (s, f) := satAdd 32 (c.elem t r k) v; (c.setElem t r k s, f)
    | .fx48 => (c.setElem t r k (fxAdd (c.elem t r k) v), 0)
    | fm => let (s, f) := fAdd fm md (c.elem t r k) v; (c.setElem t r k s, f)

/-! ### Dispatch of operations on tiles -/

/-- A descriptor names its tiles and runs once every earlier operation on an overlapping tile has ended (R183);
after an ACC_RELEASE that it waited for it runs on the released tile (DEDUCED, log 48). -/
def runTiles (j : Job) (tiles : List Nat) (run : Dev → Dev) (d : Dev) : Dev :=
  let d := d.updJob j.id fun j => { j with tiles := tiles, phase := .queued }
  if d.tilesFree j.id tiles then run (d.updJob j.id fun j => { j with phase := .active }) else d

/-- A tile leaves its table (R179). -/
def Core.dropTile (c : Core) (w : Nat) : Core := { c with tiles := c.tiles.filter fun t => t.word ≠ w }

/-- A tile released where a descriptor's release flag says so. -/
def releaseIf (b : Bool) (w : Nat) (d : Dev) : Dev := if b then d.updCore (bits w 0 8) fun c => c.dropTile w else d

/-- ACC_RELEASE's checks (R210). -/
def checkRelease (d : Dev) (x : Desc) : Verdict :=
  let w := x.op 0x10 8
  checks ([(!x.onlyOps [(0x10, 8)], stDescriptorInvalid)] ++ tileForm w ++ tileState d w)

/-- ACC_RELEASE, in its place among overlapping operations (R179, R210). -/
def startRelease (j : Job) (d : Dev) : Dev :=
  runTiles j [j.desc.op 0x10 8] (fun d => (releaseIf true (j.desc.op 0x10 8) d).finishJob j.id 0) d

/-! ### ACC_PRELOAD with TARGET 0 -/

/-- The common operand rules of ACC_PRELOAD's source (R189): reserved and unused fields first. -/
def preloadSource (x : Desc) (const : Bool) : List (Bool × Status) :=
  let w := (elemFmt (x.op 0x24 1)).size
  [(16 ≤ x.op 0x27 1 || (if const then x.op 0x18 8 != 0 || x.op 0x20 4 != 0 || 2 ^ (8 * w) ≤ x.op 0x28 8 else x.op 0x28 8 != 0) ||
     (x.op 0x24 1 != 7 && x.op 0x25 1 != 0), stTileInvalid),
   (7 < x.op 0x24 1, stTileInvalid), (!scaleOk (sbyte (x.op 0x25 1)), stFxScaleInvalid)]

/-- A TOTAL keeps R186 beside its 16-bit tile. -/
def totalOk (w v promote : Nat) : Bool :=
  let t := TileWord.of w
  let s := TileWord.of v
  !tileBad v && s.core == t.core && s.rows == t.rows && s.cols == t.cols && s.mode == (if promote = 1 then 0 else 4) &&
  !Dev.tileOverlap w v

/-- The entries an ACC_PRELOAD needs more than the tile has already (R178). -/
def Core.entriesNeeded (c : Core) (w : Nat) (promote : Bool) : Nat :=
  let new := if promote then 2 else 1
  match c.tile w with
  | none => new
  | some t => new - t.entries

/-- The preloads dispatched for a core and not yet written (R181). -/
def Dev.preloadsOf (d : Dev) (n : Nat) : List Desc :=
  (d.jobs.filter fun j => j.desc.code = 0x50 && j.desc.op 0x26 1 == 0 && j.phase == .active && bits (j.desc.op 0x10 8) 0 8 = n).map (·.desc)

/-- The table entries that preloads need beyond those in use once all of them are written, each tile counted once (R178). -/
def Core.entriesWanted (c : Core) (xs : List Desc) : Nat :=
  ((xs.map fun x => x.op 0x10 8).eraseDups.map fun w =>
    xs.foldl (fun m x => if x.op 0x10 8 = w then max m (c.entriesNeeded w (x.op 0x33 1 != 0)) else m) 0).sum

/-- The total tile an ACC_PRELOAD names. -/
def preloadTotal (x : Desc) : Option Nat := if x.op 0x33 1 = 0 then none else some (x.op 0x34 8)

/-- The tiles an ACC_PRELOAD names. -/
def preloadTiles (x : Desc) : List Nat := x.op 0x10 8 :: (preloadTotal x).toList

/-- The words that stand in a core beside those of one tile: allocated tiles with their totals, and what preloads not yet written
name (R177, R186). -/
def Core.otherWords (c : Core) (xs : List Desc) (w : Nat) : List Nat :=
  ((c.tiles.filter fun t => t.word ≠ w).flatMap fun t => t.word :: t.total.toList) ++
    (xs.filter fun x => x.op 0x10 8 ≠ w).flatMap preloadTiles

/-- The rejection of an ACC_PRELOAD whose tile or total meets another tile without equalling it (R177, R180, R186; DESIGN CHOICE,
log 48). -/
def Core.preloadClash (c : Core) (xs : List Desc) (x : Desc) : List (Bool × Status) :=
  let w := x.op 0x10 8
  let others := c.otherWords xs w
  [((c.tiles.any fun t => t.word != w && noScale t.word == noScale w), stFxScaleMismatch),
   ((preloadTiles x).any fun v => others.any fun o => Dev.tileOverlap o v, stTileOverlap)]

/-- The bytes that one source row takes (R190). -/
def preloadSpan (x : Desc) : Nat :=
  let t := TileWord.of (x.op 0x10 8)
  (t.rows - 1) * x.op 0x20 4 + t.cols * (elemFmt (x.op 0x24 1)).size

/-- ACC_PRELOAD's checks with TARGET 0 (R176 to R178, R184, R186, R189). -/
def checkPreload (d : Dev) (x : Desc) : Verdict :=
  let w := x.op 0x10 8
  let n := bits w 0 8
  let c := d.core n
  let t := TileWord.of w
  let const := bit (x.op 0x27 1) 0
  let promote := x.op 0x33 1
  let total := x.op 0x34 8
  checks ([(!x.onlyOps [(0x10, 8), (0x18, 8), (0x20, 4), (0x24, 1), (0x25, 1), (0x26, 1), (0x27, 1), (0x28, 8), (0x32, 1), (0x33, 1),
        (0x34, 8)] || bit (x.op 0x27 1) 3 || (promote == 0 && (total != 0 || x.op 0x32 1 != 0)), stTileInvalid)] ++
    preloadSource x const ++ tileForm w ++
    [(!const && x.op 0x20 4 < t.cols * (elemFmt (x.op 0x24 1)).size, stTileInvalid), (2 < promote, stTileInvalid),
     (promote != 0 && (!mode16 t.mode || !totalOk w total promote ||
       !(x.op 0x32 1 == 0 || (4 ≤ x.op 0x32 1 && x.op 0x32 1 ≤ 64))), stTileInvalid),
     (promote != 0 && !scaleOk (TileWord.of total).scale, stFxScaleInvalid),
     (d.badCore n, stStateConflict),
     (c.tileHeld w || (promote != 0 && c.tileHeld total), stTileHeld),
     (c.tiles.any (fun e => e.total = some w), stTileOverlap)] ++ c.preloadClash (d.preloadsOf n) x ++
    [(decide (1024 < c.tileEntries + c.entriesWanted (x :: d.preloadsOf n)), stTileTableFull),
     (!const && !d.addrOk .read false (x.op 0x18 8) (preloadSpan x), stAddressInvalid)])

/-- The entry that an ACC_PRELOAD enters for its tile (R181 step 2, R186): an entry of the same word is replaced. -/
def Core.enterTile (c : Core) (w : Nat) (total : Option Nat) (chunk : Nat) : Core :=
  let old := c.tile w
  let t : Tile := { word := w, nflags := (old.map (·.nflags)).getD 0, total := total, chunk := if chunk = 0 then 16 else chunk
                    heldBy := old.bind (·.heldBy) }
  { c with tiles := c.tiles.filter (fun e => e.word ≠ w) ++ [t] }

/-- ACC_PRELOAD enters its tile and reserves its rows, unless it is allocated; the preload is written when they are free
(R181 step 2). -/
def startPreload (j : Job) (d : Dev) : Dev :=
  let x := j.desc
  let w := x.op 0x10 8
  (d.updCore (bits w 0 8) fun c =>
    if (c.tile w).isSome then c else c.enterTile w (preloadTotal x) (x.op 0x32 1)).updJob j.id
    fun j => { j with tiles := preloadTiles x, phase := .active }

/-- The source code of element (r, k) of a preload (R190). -/
def preloadCode (d : Dev) (env : Env) (x : Desc) (r k : Nat) : Nat :=
  let w := (elemFmt (x.op 0x24 1)).size
  if bit (x.op 0x27 1) 0 then x.op 0x28 8
  else le (d.readOr env (x.op 0x18 8 + r * x.op 0x20 4 + k * w) w)

/-- One element preloaded (R190): into the total of a promoted tile, converted straight to its format and scale (DEDUCED, log 48). -/
def preloadCell (d : Dev) (env : Env) (x : Desc) (t : TileWord) (c : Core) (p : Nat × Nat) : Core × NFlags :=
  let (v, f) := convert (elemFmt (x.op 0x24 1)) (sbyte (x.op 0x25 1)) t.fmt t.scale (Mode.ofField (bits (x.op 0x27 1) 1 2))
    (preloadCode d env x p.1 p.2)
  (c.setElem t p.1 p.2 v, f)

/-- A 16-bit column and its chunk counter at zero (R190). -/
def Core.zeroCell (t : TileWord) (c : Core) (p : Nat × Nat) : Core :=
  { c.setElem t p.1 p.2 0 with chunk := Tbl.del (t.addr p.1 p.2) c.chunk }

/-- The flags of a tile cleared, then what its preload raises (R73, R181 step 3). -/
def Core.preloaded (c : Core) (w : Nat) (f : NFlags) : Core :=
  { c.raise 0 f with tiles := c.tiles.map fun t => if t.word = w then { t with nflags := f } else t }

/-- The whole preload of a tile in its core (R190, R212); TILE_ROWS counts ROWS once, for a promoted tile too (DEDUCED, log 48). -/
def preloadWrite (d : Dev) (env : Env) (x : Desc) (c : Core) : Core × NFlags :=
  let w := x.op 0x10 8
  let t := TileWord.of w
  let c := c.enterTile w (preloadTotal x) (x.op 0x32 1)
  let c := t.cells.foldl (Core.zeroCell t) c
  let dst := match preloadTotal x with | some v => TileWord.of v | none => t
  let (c, f) := foldFlags t.cells c (preloadCell d env x dst)
  let c := c.preloaded w f
  let r := { c.regs with accTileRows := c.regs.accTileRows + BitVec.ofNat 64 t.rows }
  ({ c with regs := r }, f)

/-- No record context stands in a row of a tile (R181 step 3). -/
def Core.rowsClear (c : Core) (w : Nat) : Bool :=
  let t := TileWord.of w
  !c.ctxs.any fun x => t.row0 ≤ x.row && x.row < t.row0 + t.rows

/-- An ACC_PRELOAD's write, once its rows are free of contexts and the earlier operations have ended (R181 step 3). -/
def tilePreloadWrite (job : Nat) (env : Env) (d : Dev) : Dev :=
  match d.job job with
  | none => d
  | some j =>
    let x := j.desc
    let n := bits (x.op 0x10 8) 0 8
    if x.code = 0x50 && x.op 0x26 1 == 0 && j.phase == .active && d.tilesFree job j.tiles &&
        j.tiles.all (fun w => (d.core n).rowsClear w) && !(d.core n).fenced then
      match (if bit (x.op 0x27 1) 0 then none else d.readFail env (x.op 0x18 8) (preloadSpan x)) with
      | some e => d.endRead j e
      | none =>
        let (c, f) := preloadWrite d env x (d.core n)
        (d.setCore n c).finishJob job 0 f
    else d

/-! ### ACC_PRELOAD with TARGET 1 -/

/-- The residual or operand that a channel has armed for a plot (R191, R236). -/
def Chan.armedFor (c : Chan) (plot : Nat) (operand : Bool) : Option Armed :=
  c.armed.find? fun a => a.plot = plot && a.operand = operand

/-- A channel's armed residual or operand for a plot removed (R192). -/
def Chan.disarm (c : Chan) (plot : Nat) (operand : Bool) : Chan :=
  { c with armed := c.armed.filter fun a => !(a.plot = plot && a.operand = operand) }

/-- ACC_PRELOAD's checks with TARGET 1 and DISARM (R192). -/
def checkDisarm (d : Dev) (x : Desc) : Verdict :=
  checks [(!x.onlyOps [(0x26, 1), (0x27, 1), (0x30, 2)] || x.op 0x27 1 != 8, stTileInvalid),
    ((d.plot (x.op 0x30 2)).isNone, stStateConflict)]

/-- ACC_PRELOAD's checks with TARGET 1 (R189, R191). -/
def checkArm (d : Dev) (ch : Chan) (x : Desc) : Verdict :=
  let const := bit (x.op 0x27 1) 0
  let n := x.op 0x32 1
  checks ([(!x.onlyOps [(0x18, 8), (0x20, 4), (0x24, 1), (0x25, 1), (0x26, 1), (0x27, 1), (0x28, 8), (0x30, 2), (0x32, 1)] ||
      bits (x.op 0x27 1) 1 2 != 0, stTileInvalid)] ++ preloadSource x const ++
    [(n == 0 || 64 < n || (!const && x.op 0x20 4 < n * (elemFmt (x.op 0x24 1)).size), stTileInvalid),
     ((d.plot (x.op 0x30 2)).isNone || (ch.armedFor (x.op 0x30 2) false).isSome, stStateConflict)])

/-- A residual armed (R191). -/
def armedOf (x : Desc) : Armed :=
  { plot := x.op 0x30 2, operand := false, addr := x.op 0x18 8, stride := x.op 0x20 4, fmt := x.op 0x24 1
    scale := sbyte (x.op 0x25 1), count := x.op 0x32 1, const := if bit (x.op 0x27 1) 0 then some (x.op 0x28 8) else none
    opndKind := 0 }

/-- ACC_PRELOAD with TARGET 1 arms a residual and completes (R191). -/
def startArm (j : Job) (d : Dev) : Dev :=
  (d.updChan j.chan fun c => { c with armed := c.armed ++ [armedOf j.desc] }).finishJob j.id 0

/-- ACC_PRELOAD with DISARM removes the armed residual and completes (R192). -/
def startDisarm (j : Job) (d : Dev) : Dev := (d.updChan j.chan fun c => c.disarm (j.desc.op 0x30 2) false).finishJob j.id 0

end Sys2Proof.Machine
end

