-- ==== Sys2Proof/Machine/Reduce.lean ====
section
/-! DEFINITION. ACC_REDUCE in one core and along a chain, reduction packets, and the taking of what stands at the front of
a sum lane (R199, R202 to R209, R476). -/
namespace Sys2Proof.Machine

/-- The fields of an ACC_REDUCE (R205). -/
structure RedOps where
  src : Nat
  dst : Nat
  op : Nat
  axis : Nat
  chain : Bool
  release : Bool
  md : Mode
  base : Nat
  plot : Nat
  stride : Nat
deriving DecidableEq, Repr

/-- The operands of an ACC_REDUCE. -/
def redOps (x : Desc) : RedOps :=
  { src := x.op 0x10 8, dst := x.op 0x18 8, op := x.op 0x20 1, axis := x.op 0x21 1, chain := x.op 0x22 1 == 1
    release := bit (x.op 0x23 1) 0, md := Mode.ofField (bits (x.op 0x23 1) 1 2), base := x.op 0x24 4, plot := x.op 0x28 2
    stride := x.op 0x2C 4 }

/-- The operand rules of R205 and R207 with R541: bytes that OP and SCOPE do not use are zero, and the CORE fields are zero
along a chain and equal in one core. -/
def redForm (x : Desc) : Bool :=
  let o := redOps x
  x.onlyOps [(0x10, 8), (0x18, 8), (0x20, 1), (0x21, 1), (0x22, 1), (0x23, 1), (0x24, 4), (0x28, 2), (0x2C, 4)] &&
  o.op ≤ 2 && o.axis ≤ 1 && x.op 0x22 1 ≤ 1 && x.op 0x23 1 < 8 && (o.chain || (o.plot == 0 && o.stride == 0)) &&
  (o.op != 0 || (o.base == 0 && o.stride == 0)) && bits o.src 0 8 == bits o.dst 0 8 && (!o.chain || bits o.src 0 8 == 0)

/-- DST has the shape and mode of R206; of a promoted source the mode is its 16-bit word's (DEDUCED, log 48). -/
def redShape (o : RedOps) : Bool :=
  let s := TileWord.of o.src
  let t := TileWord.of o.dst
  let n := if o.op = 0 then 1 else 2
  (if o.axis = 0 then t.rows == s.rows && t.cols == n else t.rows == n && t.cols == s.cols) &&
  (match s.mode with
   | 1 => t.mode == 1 || (o.op == 0 && t.mode == 4)
   | 4 => t.mode == 4
   | _ => t.mode == 0 || (o.op == 0 && t.mode == 4))

/-- The positions along the reduced axis, and the results. -/
def redSize (o : RedOps) : Nat × Nat :=
  let s := TileWord.of o.src
  if o.axis = 0 then (s.cols, s.rows) else (s.rows, s.cols)

/-- The word with a core's number in it (R207). -/
def atCore (w n : Nat) : Nat := w - bits w 0 8 + n

/-- The cores that an ACC_REDUCE reads. -/
def redCores (d : Dev) (o : RedOps) : List Nat :=
  if o.chain then (match d.plot o.plot with | some p => p.cores | none => []) else [bits o.src 0 8]

/-- The core that holds the destination, when this device holds it. -/
def redTail (d : Dev) (o : RedOps) : Option Nat :=
  if o.chain then (d.plot o.plot).bind fun p => if p.endsHere then p.last else none else some (bits o.src 0 8)

/-- The largest index an ACC_REDUCE could form (R208). -/
def redMax (d : Dev) (o : RedOps) : Nat :=
  o.base + ((redSize o).1 - 1) +
  (if o.chain then (((d.plot o.plot).map (·.lay.plotCores)).getD 1 - 1) * o.stride else 0)

/-- A promoted source whose FX48 totals have another scale than the FX48 destination (R206). -/
def redTotalScale (d : Dev) (o : RedOps) (n : Nat) : Bool :=
  let t := TileWord.of o.dst
  match ((d.core n).tile (atCore o.src n)).bind (·.total) with
  | some v => let s := TileWord.of v; s.mode == 4 && t.mode == 4 && s.scale != t.scale
  | none => false

/-- ACC_REDUCE's checks (R176, R177, R205 to R208, R476). -/
def checkReduce (d : Dev) (x : Desc) : Verdict :=
  let o := redOps x
  let spans := o.chain && (d.plot o.plot).any fun p => !(p.startsHere && p.endsHere)
  checks ([(!redForm x, stDescriptorInvalid)] ++ tileForm o.src ++ tileForm o.dst ++
    [(!redShape o, stTileShape),
     (o.op == 0 && spans && (TileWord.of o.dst).mode != 4, stChainSumFormat),
     ((TileWord.of o.src).mode == 4 && (TileWord.of o.src).scale != (TileWord.of o.dst).scale, stFxScaleMismatch),
     (o.op != 0 && 0xFFFFFFFF ≤ redMax d o, stIndexRange),
     (o.chain && (d.plot o.plot).isNone, stStateConflict)] ++
    (redCores d o).flatMap (fun n => tileState d (atCore o.src n)) ++
    (match redTail d o with | some n => tileState d (atCore o.dst n) | none => []) ++
    (redCores d o).map fun n => (redTotalScale d o n, stFxScaleMismatch))

/-! ### One core's results -/

/-- A result: the value's code in the destination's format, and its index. -/
abbrev RedVal := Nat × Nat

/-- The pair that loses to every other (R204). -/
def redNone (f : Fmt) : RedVal := (f.nanCode, 0xFFFFFFFF)

/-- The value of a result's code: an FX48 slot whole, as no value leaves FX48 in a comparison (R64, R203). -/
def redVal (f : Fmt) (v : Nat) : Val := if f = .fx48 then .ofInt (sext 64 v) 0 else (decodeVal f 0 v).1

/-- The better of two pairs (R203, R204). -/
def redBest (op : Nat) (f : Fmt) (a b : RedVal) : RedVal :=
  let va := redVal f a.1
  let vb := redVal f b.1
  if a.2 = 0xFFFFFFFF then b
  else if b.2 = 0xFFFFFFFF then a
  else
    let beats (x y : Val) : Bool := if op = 1 then Val.lt y x else Val.lt x y
    if beats va vb then a else if beats vb va then b else if a.2 ≤ b.2 then a else b

/-- The sum of two results (R197, R206): INT32 saturates, FX48 wraps, FP32 rounds in the mode. -/
def redAdd (f : Fmt) (md : Mode) (a b : Nat) : Nat × NFlags :=
  match f with
  | .int32 => satAdd 32 a b
  | .fx48 => (fxAdd a b, 0)
  | _ => fAdd .fp32 md a b

/-- An element of the source as the destination's format takes it (R206): MAX and MIN of FX48 slots keep them whole (R64). -/
def redElem (c : Core) (op : Nat) (s t : TileWord) (md : Mode) (r k : Nat) : Nat × NFlags :=
  if op ≠ 0 ∧ s.fmt = .fx48 ∧ t.fmt = .fx48 then (c.elem s r k, 0) else convert s.fmt s.scale t.fmt t.scale md (c.elem s r k)

/-- One result of a core's own tile: position `q` of the kept axis (R203 to R207). -/
def redOne (c : Core) (o : RedOps) (s t : TileWord) (first q : Nat) : RedVal × NFlags :=
  (List.range (redSize o).1).foldl (fun (a : RedVal × NFlags) i =>
    let (v, f) := if o.axis = 0 then redElem c o.op s t o.md q i else redElem c o.op s t o.md i q
    if o.op = 0 then
      let (z, g) := redAdd t.fmt o.md a.1.1 v
      ((z, 0), a.2 ||| f ||| g)
    else if (redVal t.fmt v).isNan then (a.1, a.2 ||| f ||| Fl.nan)
    else (redBest o.op t.fmt a.1 (v, first + i), a.2 ||| f))
    (if o.op = 0 then (0, 0) else redNone t.fmt, 0)

/-- A core's own results (R206, R207): a promoted source is flushed first. -/
def redOwn (c : Core) (o : RedOps) (n pos : Nat) : Core × List RedVal × NFlags :=
  let w := atCore o.src n
  let (c, f0) := c.flushTile w
  let s := c.readWord w
  let rs := tab (redSize o).2 (redOne c o s (TileWord.of o.dst) (o.base + pos * o.stride))
  let f := rs.foldl (fun a r => a ||| r.2) 0
  (c.flagTile w f, rs.map (·.1), f0 ||| f)

/-- Results of two cores combined (R207). -/
def redMerge (o : RedOps) (a b : List RedVal) : List RedVal × NFlags :=
  let t := TileWord.of o.dst
  let rs := tab b.length fun i =>
    if o.op = 0 then let (v, f) := redAdd t.fmt .rne (at' (0, 0) a i).1 (at' (0, 0) b i).1; ((v, 0), f)
    else (redBest o.op t.fmt (at' (0, 0) a i) (at' (0, 0) b i), (0 : NFlags))
  (rs.map (·.1), rs.foldl (fun a r => a ||| r.2) 0)

/-- Results written into the destination (R206). -/
def redWrite (o : RedOps) (w : Nat) (rs : List RedVal) (f : NFlags) (c : Core) : Core :=
  let t := TileWord.of w
  let put (i j v : Nat) (c : Core) : Core := if o.axis = 0 then c.setElem t i j v else c.setElem t j i v
  let c := (tab rs.length id).foldl (fun c i =>
    let r := at' (0, 0) rs i
    let c := put i 0 r.1 c
    if o.op = 0 then c else put i 1 r.2 c) c
  let g := { c.regs with accTileRows := c.regs.accTileRows + BitVec.ofNat 64 t.rows }
  { c with regs := g }.flagTile w f

/-! ### Reduction packets -/

/-- The bytes of a reduction packet (R209). -/
def redPacket (chan seq op mode scale : Nat) (rs : List RedVal) : Bytes :=
  let b := toLe 8 seq ++ toLe 1 chan ++ toLe 1 op ++ toLe 1 mode ++ toLe 1 scale ++ toLe 2 rs.length ++ toLe 2 0 ++
    rs.flatMap fun r => if op = 0 then toLe 8 r.1 else toLe 8 r.1 ++ toLe 4 r.2 ++ toLe 4 0
  b ++ toLe 4 (crc32c b) ++ toLe 4 0

/-- The results that a reduction packet carries. -/
def redResults (b : Bytes) : List RedVal :=
  let op := field b 9 1
  tab (field b 0xC 2) fun i => if op = 0 then (field b (0x10 + 8 * i) 8, 0) else (field b (0x10 + 16 * i) 8, field b (0x18 + 16 * i) 4)

/-- What one core does for an ACC_REDUCE (R207): its own results, combined with the incoming ones, written at the tail or
sent on. The descriptor ends as the tail has written it, or as the packet of the last core on this device is acknowledged. -/
def redCore (d : Dev) (j : Job) (n pos : Nat) (seq chan : Nat) (ins : Option (List RedVal)) : Dev :=
  let o := redOps j.desc
  let t := TileWord.of o.dst
  let (c, own, f) := redOwn (d.core n) o n pos
  let (rs, g) := match ins with | some a => redMerge o a own | none => (own, 0)
  let d := releaseIf o.release (atCore o.src n) (d.setCore n c)
  if redTail d o = some n then
    (d.updCore n (redWrite o (atCore o.dst n) rs (f ||| g))).finishJob j.id 0 (f ||| g)
  else
    match d.plot o.plot with
    | none => d
    | some p =>
      let d := d.updJob j.id fun j => { j with cursor := j.cursor + 1, nflags := j.nflags ||| f ||| g }
      if (p.after n).isNone && (d.routePort p.lay.nextDevice).isNone then d.abortJob j.id stLinkLost
      else sendSum d o.plot p n true (redPacket chan seq o.op t.mode (ofInt 8 t.scale) rs) (.reduction n j.id)

/-- The packet of an ACC_REDUCE's last core on this device acknowledged over the link: the descriptor's work here ends (R212,
R476). -/
def redAcked (d : Dev) (n job : Nat) : Dev :=
  (d.updCore n fun c =>
    let r := { c.regs with sumsOut := c.regs.sumsOut + 1 }
    { c with regs := r }).finishJob job 0

/-- Who sent a unit learns that its frame is acknowledged (R22, R212, R471, R476). -/
def senderAcked (d : Dev) : TxSender → Dev
  | .nobody => d
  | .bins _ => d
  | .sum n => ackSender d n
  | .reduction n j => redAcked d n j

/-- Who sent a unit learns that its frame is lost with its link (R473, R474): a reduction has no replay, and its descriptor
ends with LINK_LOST (DEDUCED, log 15). -/
def senderLost (d : Dev) : TxSender → Dev
  | .reduction _ j => d.abortJob j stLinkLost
  | _ => d

/-- The tiles that an ACC_REDUCE names (R183, R207). -/
def redTiles (d : Dev) (o : RedOps) : List Nat :=
  (redCores d o).map (atCore o.src) ++ (match redTail d o with | some n => [atCore o.dst n] | none => [])

/-- ACC_REDUCE (R205 to R207): the named core at once, or the first core of the chain; the others as packets reach them. -/
def startReduce (j : Job) (d : Dev) : Dev :=
  let o := redOps j.desc
  runTiles j (redTiles d o) (fun d =>
    if !o.chain then redCore d j (bits o.src 0 8) 0 j.seq j.chan none
    else match d.plot o.plot with
      | some p =>
        match p.first with
        | some n => if p.startsHere then redCore d j n p.lay.firstPosition j.seq j.chan none else d
        | none => d
      | none => d) d

end Sys2Proof.Machine
end

