-- ==== Sys2Proof/Machine/Finish.lean ====
section
/-! DEFINITION. The finisher: result records of a plot's tail, ACC_FINISH over tiles, and armed operands (R214 to R230,
R234 to R236). -/
namespace Sys2Proof.Machine

/-! ### Operands of ELEMWISE -/

/-- The operand format code that a tile MODE stands for (R222, R235). -/
def modeCode (m : Nat) : Nat := match m with | 0 => 0 | 1 => 4 | 2 => 1 | 3 => 2 | _ => 7

/-- A block whose operand is a tile: the tile's mode stands in for OPND_FMT (R235). -/
def FinBlock.withTile (f : FinBlock) (t : TileWord) : FinBlock := { f with opndFmt := modeCode t.mode, opndScale := t.scale }

/-- Operand codes of one row from memory: `k` values of the block's operand format (R235, R236). -/
def memOperand (d : Dev) (env : Env) (f : FinBlock) (a k : Nat) : Except ReadFail (List Nat) :=
  let w := (elemFmt f.opndFmt).size
  match d.readG env a (k * w) with
  | .ok b => .ok (tab k fun j => field b (j * w) w)
  | .error e => .error e

/-- Operand codes of one row of a tile. -/
def tileOperand (c : Core) (t : TileWord) (r k : Nat) : List Nat := tab k fun j => c.elem t r j

/-- What an ELEMWISE pass takes: the block as it applies, the codes, or the read that failed. -/
structure OpndVals where
  block : FinBlock
  codes : List Nat
  bad : Option ReadFail
deriving DecidableEq, Repr

/-- The operand of record `q` (R236): memory, or row `q` of a tile of the tail core. With none armed, as on the tail's device of a
plot that other devices head, no rule says what an ELEMWISE pass takes: free values (log 46). -/
def recordOperand (d : Dev) (env : Env) (c : Core) (f : FinBlock) (a : Option Armed) (k q : Nat) : OpndVals :=
  match a with
  | none => ⟨f, if f.mode = 1 then tab k fun i => (Config.freeValue (d.free + i)).toNat % 256 ^ (elemFmt f.opndFmt).size else [], none⟩
  | some a =>
    if f.mode ≠ 1 then ⟨f, [], none⟩
    else if a.opndKind = 1 then
      let t := c.readWord a.addr
      ⟨f.withTile t, tileOperand c t q k, none⟩
    else match memOperand d env f (a.addr + q * a.stride) k with
      | .ok cs => ⟨f, cs, none⟩
      | .error e => ⟨f, [], some e⟩

/-! ### Result records -/

/-- The output area (R228): codes in their width, then zeros. -/
def outArea (f : FinBlock) (n : Nat) (codes : List Nat) : Bytes :=
  let b := codes.flatMap (toLe (outWidth f.outFmt))
  b ++ List.replicate (n - b.length) 0#8

/-- The result of a record that no finisher step runs for: not scored, or pruned (R225, R228, R229). -/
def passedResult (g : GroveInfo) (f : FinBlock) (p : SumPacket) (st : Status) (notScored : Bool) : ResultRec :=
  let n := outBytes f g.outputs g.prune
  let pruned := bit p.pflags pfPruned && !notScored
  let area := if pruned then toLe 8 p.boundLo ++ toLe 8 p.boundHi ++ List.replicate (n - 16) 0#8 else List.replicate n 0#8
  let rf := if notScored then p.pflags % 16 / 8 * 8 + p.pflags % 4 + 4 else p.pflags % 16 + 16
  { recordId := p.recordId, ecv := p.ecv, version := p.version, status := st, sflags := p.sflags, nflags := p.nflags
    rflags := rf, outFmt := f.outFmt, winner := 0xFFFFFFFF, area := area }

/-- The result of a scored record (R224 to R229). -/
def scoredResult (g : GroveInfo) (f : FinBlock) (p : SumPacket) (o : FinOut) : ResultRec :=
  let (dec, yes) := if g.prune then decide' (g.valueFmt == 1) g.threshold g.sense (at' 0 p.sums 0) else (false, false)
  let st := if o.nan then stNanResult else if o.sat then stSaturated else p.status
  { recordId := p.recordId, ecv := p.ecv, version := p.version, status := st, sflags := p.sflags
    nflags := p.nflags ||| o.nflags
    rflags := p.pflags % 16 / 8 * 8 + 2 * b2n (dec && yes) + 16 * b2n dec + 32 * b2n (o.winner != 0xFFFFFFFF)
    outFmt := f.outFmt, winner := o.winner, area := outArea f (outBytes f g.outputs g.prune) o.codes }

/-- The finisher's status bits and counters after a result (R238). -/
def finCount (r : CoreRegs) (st : Status) : CoreRegs :=
  let i := if st = stNanResult then some 0 else if st = stSaturated then some 1 else if st = stPrunedResult then some 2 else none
  match i with
  | none => r
  | some i => { r with finStatus := setBit r.finStatus i, finCnt := laneBump r.finCnt i }

/-- The context of a record takes its result (R22, R232): egress acknowledges it. -/
def Core.giveResult (c : Core) (x : Ctx) (f : NFlags) (r : ResultRec) : Core :=
  let c := c.raise x.nflags f
  { c.updCtx x.row fun x => { x with nflags := x.nflags ||| f, result := some r, sent := true } with regs := finCount c.regs r.status }

/-- The finisher's pass over the oldest record of the tail that is through (R214 to R230). -/
def finishRecord (d : Dev) (env : Env) (n pid : Nat) (p : Plot) (pr : Pair) (f : FinBlock) (x : Ctx) : Dev :=
  let g := pr.info
  let (c, pk) := finalPacket pr (p.isFirst n) x (d.core n)
  let c := (noteSent x c)
  let done (c : Core) (f : NFlags) (r : ResultRec) : Dev := d.setCore n (c.giveResult x f r)
  if bit pk.pflags pfNotScored then done c 0 (passedResult g f pk pk.status true)
  else if bit pk.pflags pfPruned then done c 0 (passedResult g f pk stPrunedResult false)
  else
    let arm := (d.feed x.src).bind (·.operand)
    let (c, f0) := match arm with
      | some a => if a.opndKind = 1 then c.flushTile a.addr else (c, (0 : NFlags))
      | none => (c, 0)
    let o := recordOperand d env c f arm g.outputs x.q
    let used (d : Dev) : Dev := if f.mode ≠ 1 then d else match arm with
      | some a => { a with fmt := f.opndFmt }.ask x.q g.outputs d
      | none => { d with free := d.free + g.outputs }
    used <| match o.bad with
    | some e =>
      unreadable (done c f0 (passedResult g f pk stOperandUnreadable true)) e stOperandUnreadable 0 n pid (some x.recordId) none
    | none =>
      let out := finPass o.block (pk.sums.map fun s => ⟨g.sumFmt, g.fxScale, s⟩) o.codes
      done c (f0 ||| out.nflags) (scoredResult g f { pk with nflags := pk.nflags ||| f0 } out)

/-- The finisher takes the oldest record with no result yet (R14, R22, R214). -/
def finisherPass (n : Nat) (env : Env) (d : Dev) : Dev :=
  match d.plotOf n, (d.core n).ctxs.find? fun x => x.hasBins && x.result.isNone with
  | some (pid, p), some x =>
    match (d.core n).pairOf x with
    | none => d
    | some pr =>
      match pr.fin with
      | none => d
      | some f =>
        if d.stopped n || !p.isTail n || !x.through pr.rounds || !(p.isFirst n || x.inSum.isSome) then d
        else finishRecord d env n pid p pr f x
  | _, _ => d

/-- FINISHER_PASS (R215). -/
def execFinisherPass (core : Fin 256) (env : Env) (s : State) : Host.Outcome State Fault Refusal :=
  onDev (finisherPass core.val env) s

/-! ### ACC_FINISH with TARGET 0 -/

/-- The fields of an ACC_FINISH with TARGET 0 (R234). -/
structure FinOps where
  src : Nat
  dst : Nat
  stride : Nat
  release : Bool
  kind : Nat
  cfg : Nat
  opnd : Nat
  opndStride : Nat
deriving DecidableEq, Repr

/-- The operands of an ACC_FINISH. -/
def finOps (x : Desc) : FinOps :=
  { src := x.op 0x10 8, dst := x.op 0x18 8, stride := x.op 0x20 4, release := bit (x.op 0x25 1) 0, kind := bits (x.op 0x25 1) 1 2
    cfg := x.op 0x28 8, opnd := x.op 0x30 8, opndStride := x.op 0x38 4 }

/-- The operand rules of R234 for TARGET 0. -/
def accFinishForm (x : Desc) : Bool :=
  let o := finOps x
  x.onlyOps [(0x10, 8), (0x18, 8), (0x20, 4), (0x25, 1), (0x28, 8), (0x30, 8), (0x38, 4)] && x.op 0x25 1 < 8 && o.kind ≤ 2 &&
  o.dst % 8 == 0 && o.cfg % 64 == 0 && (o.kind != 0 || o.opnd == 0) && (o.kind == 2 || o.opndStride == 0)

/-- The bytes of one output row (R235). -/
def finRowBytes (f : FinBlock) (k : Nat) : Nat := k * outWidth f.outFmt + (if f.winner then 4 else 0)

/-- The checks of R223, R234 and R235 that need the block. -/
def accFinishBlock (d : Dev) (o : FinOps) (b : Bytes) : Verdict :=
  let t := TileWord.of o.src
  let f := parseFin b
  (Verdict.ofFail (finCheck b t.cols true)).andThen
    (fun _ => checks [((f.mode == 1) != (o.kind != 0), stFinishInvalid), (o.stride < finRowBytes f t.cols, stFinishInvalid),
      (!d.addrOk .write false o.dst ((t.rows - 1) * o.stride + finRowBytes f t.cols), stAddressInvalid),
      (o.kind == 2 && !d.addrOk .read false o.opnd ((t.rows - 1) * o.opndStride + t.cols * (elemFmt f.opndFmt).size),
        stAddressInvalid)])

/-- ACC_FINISH's checks with TARGET 0 (R234, R235). -/
def checkAccFinish (d : Dev) (x : Desc) (env : Env) : Verdict :=
  let o := finOps x
  let t := TileWord.of o.src
  let u := TileWord.of o.opnd
  let tile := o.kind == 1
  (checks ([(!accFinishForm x, stFinishInvalid)] ++ tileForm o.src ++ (if tile then tileForm o.opnd else []) ++
    [(tile && !(u.core == t.core && u.rows == t.rows && u.cols == t.cols), stTileShape)] ++ tileState d o.src ++
    (if tile then tileState d o.opnd else []) ++
    [(!d.addrOk .read false o.cfg 768, stAddressInvalid),
     (!d.addrOk .write false o.dst ((t.rows - 1) * o.stride + 1), stAddressInvalid),
     (o.kind == 2 && !d.addrOk .read false o.opnd ((t.rows - 1) * o.opndStride + 1), stAddressInvalid)])).andThen
  (fun _ => match d.readG env o.cfg 768 with
   | .error e => .fail e
   | .ok b => accFinishBlock d o b)

/-- One row of an ACC_FINISH (R235): its bytes and flags. -/
def finRow (d : Dev) (env : Env) (c : Core) (o : FinOps) (f : FinBlock) (r : Nat) : Bytes × NFlags :=
  let t := c.readWord o.src
  let u := c.readWord o.opnd
  let f := if o.kind = 1 then f.withTile u else f
  let codes := if o.kind = 1 then tileOperand c u r t.cols
    else if o.kind = 2 then (match memOperand d env f (o.opnd + r * o.opndStride) t.cols with | .ok cs => cs | .error _ => []) else []
  let out := finPass f (tab t.cols fun k => ⟨t.fmt, t.scale, c.elem t r k⟩) codes
  (out.codes.flatMap (toLe (outWidth f.outFmt)) ++ (if f.winner then toLe 4 out.winner else []), out.nflags)

/-- The first operand row of an ACC_FINISH that cannot be read. -/
def finBadRow (d : Dev) (env : Env) (o : FinOps) (f : FinBlock) : Option ReadFail :=
  let t := TileWord.of o.src
  if o.kind ≠ 2 then none
  else (List.range t.rows).findSome? fun r =>
    match memOperand d env f (o.opnd + r * o.opndStride) t.cols with | .ok _ => none | .error e => some e

/-- ACC_FINISH's work (R235): one pass a row, the outputs written, the source released after its last row. -/
def accFinishRun (j : Job) (d : Dev) : Dev :=
  let o := finOps j.desc
  let n := bits o.src 0 8
  let f := parseFin (d.blockOf j o.cfg 768)
  match finBadRow d j.env o f with
  | some e => (unreadable d e stOperandUnreadable 0 n 0xFFFF none (some j)).finishJob j.id stOperandUnreadable
  | none =>
    let (c, f0) := (d.core n).flushTile o.src
    let (c, f1) := if o.kind = 1 then c.flushTile o.opnd else (c, (0 : NFlags))
    let rows := (c.readWord o.src).rows
    let outs := tab rows (finRow d j.env c o f)
    let fl := outs.foldl (fun a r => a ||| r.2) (f0 ||| f1)
    let c := c.flagTile o.src fl
    let r := { c.regs with finTileRows := c.regs.finTileRows + BitVec.ofNat 64 rows }
    let d := d.setCore n { c with regs := r }
    let d := (tab rows id).foldl (fun d r => d.writeG j.id (o.dst + r * o.stride) (at' ([], 0) outs r).1) d
    (releaseIf o.release o.src d).finishJob j.id 0 fl

/-- ACC_FINISH, in its place among overlapping operations (R183, R234). -/
def startAccFinish (j : Job) (d : Dev) : Dev :=
  let o := finOps j.desc
  runTiles j (o.src :: (if o.kind = 1 then [o.opnd] else [])) (accFinishRun j) d

/-! ### ACC_FINISH with TARGET 1 -/

/-- ACC_FINISH's checks with TARGET 1 (R192, R236). -/
def checkArmOperand (d : Dev) (ch : Chan) (x : Desc) : Verdict :=
  let kind := bits (x.op 0x25 1) 1 2
  let pid := x.op 0x26 2
  if bit (x.op 0x25 1) 3 then
    checks [(!x.onlyOps [(0x24, 1), (0x25, 1), (0x26, 2)] || x.op 0x25 1 != 8, stFinishInvalid),
      ((d.plot pid).isNone, stStateConflict)]
  else
    checks ([(!x.onlyOps [(0x24, 1), (0x25, 1), (0x26, 2), (0x30, 8), (0x38, 4)] || 8 ≤ x.op 0x25 1 || bit (x.op 0x25 1) 0 ||
        kind == 0 || kind == 3 || (kind == 1 && x.op 0x38 4 != 0), stFinishInvalid)] ++
      (if kind = 1 then tileForm (x.op 0x30 8) else []) ++
      [((d.plot pid).isNone || (ch.armedFor pid true).isSome, stStateConflict)] ++
      (if kind = 1 then tileState d (x.op 0x30 8) else []))

/-- The operand that an ACC_FINISH arms (R236). -/
def armedOperand (x : Desc) : Armed :=
  { plot := x.op 0x26 2, operand := true, addr := x.op 0x30 8, stride := x.op 0x38 4, fmt := 0, scale := 0, count := 0
    const := none, opndKind := bits (x.op 0x25 1) 1 2 }

/-- ACC_FINISH with TARGET 1 arms or disarms an operand and completes (R192, R236). -/
def startArmOperand (j : Job) (d : Dev) : Dev :=
  let x := j.desc
  (d.updChan j.chan fun c =>
    if bit (x.op 0x25 1) 3 then c.disarm (x.op 0x26 2) true else { c with armed := c.armed ++ [armedOperand x] }).finishJob j.id 0

end Sys2Proof.Machine
end

