-- ==== Sys2Proof/Machine/Groves.lean ====
section
/-! DEFINITION. Loading and evicting layouts and groves (R128, R129, R134 to R145, R262, R263, R282). -/
namespace Sys2Proof.Machine

/-- An earlier image descriptor is in progress (R138). -/
def imageBusy (d : Dev) : Bool :=
  d.jobs.any fun j => [0x10, 0x11, 0x12, 0x13].contains j.desc.code && !j.ended

/-! ### Signatures -/

/-- The signature check of R129: keys and policy are the MC's (R128). -/
def signatureOk (mc : Mc) (img : Bytes) : Bool :=
  let dir := directory img
  match dir.find? (fun e => e.type = 0xF0) with
  | none => !mc.requireSigned
  | some e =>
    let s := slice img e.offset e.length
    let slot := field s 0 1
    let key := Tbl.get [] slot mc.keys
    slot ≤ 3 && key != [] && zeroFrom s 1 0x10 && zeroFrom s 0x70 128 &&
    ecdsaVerifies key (img.take e.offset) (field s 0x10 48) (field s 0x40 48)

/-! ### Checks of a grove image -/

/-- The largest OUTPUTS of a VALUE_FMT (R173). -/
def maxOutputs (valueFmt : Nat) : Nat := if valueFmt = 0 then 64 else if valueFmt = 1 then 32 else 42

/-- A sieve table larger than the memory of a head (R84); R139 names no rejection of one under ACTIVATE (DESIGN CHOICE, log 4). -/
def sieveBig (t : Bytes) : Bool := 512 * 1024 < t.length

/-- The checks of R141 on an image copy, then the path walk of R142, by a plot on this device. A sieve table that no head can hold
is refused as beyond capacity (R84; DESIGN CHOICE, log 4). -/
def groveCheck (mc : Mc) (d : Dev) (p : PlotRec) (img : Bytes) (bytes : Nat) : Option Status :=
  let g := parseGrove img
  let i := g.info
  firstFail ([(!groveRulesOk img bytes, stGroveInvalid)] ++
    (match finCheck i.finish i.outputs false with | some s => [(true, s)] | none => []) ++
    [(!sieveOk i.sieve, stSieveTableInvalid),
     (!(sieveRanges i.sieve).all (fun r => d.addrOk .read false r.1 r.2), stAddressInvalid),
     (i.valueFmt == 1 && !scaleOk i.fxScale, stFxScaleInvalid),
     (!signatureOk mc img, stSignatureInvalid),
     (!fitsPlot i p.fold p.plotCores p.firstPosition p.coreCount p.sumFmt, stGrovePlotMismatch),
     (!g.slices.all (capacityOk i.fold) || maxOutputs i.valueFmt < i.outputs || (p.entries.any (·.head) && sieveBig i.sieve),
       stGroveCapacity),
     (!g.slices.all (featuresOk i.fold), stStageFeatures),
     (!g.slices.all nodeCrcsOk, stNodeCrc),
     (!g.slices.all (walkOk i.fold (strideOf i.valueFmt i.outputs)), stGroveInvalid)])

/-- The cluster of a plot's first core on this device. -/
def Plot.cluster (p : Plot) : Nat := (p.first.getD 0) / 64

/-- The bytes of the image copies in a cluster's device region (R140). -/
def copiesIn (d : Dev) (k : Nat) : Nat :=
  (d.plotList.map fun (_, p) =>
    if p.cluster = k then (p.activeGrove.map (·.imageBytes)).getD 0 + (p.shadowGrove.map (·.imageBytes)).getD 0 else 0).sum

/-! ### Sieve-table memory -/

/-- The 4 KiB units of sieve-table memory. -/
def sieveUnits : Nat := 128

/-- A new table fits beside the active one of a head, or is byte-identical to it (R84, R263). -/
def sieveFits (c : Core) (t : Bytes) : Bool :=
  match c.sieveActive with
  | none => t.length ≤ sieveUnits * 4096
  | some (_, b) => b == t || b.length + t.length ≤ sieveUnits * 4096

/-- The place of a table (R84): at one end of the memory, and beside another table at the other end, so that two tables that fit
in size never overlap (DESIGN CHOICE, log 4). -/
def sieveBase (c : Core) (t : Bytes) : Nat :=
  let high := sieveUnits - t.length / 4096
  match c.sieveActive with
  | none => if Config.sieveHigh (t.length / 4096) then high else 0
  | some (a, b) => if b = t then a else if a = 0 then high else 0

/-- A head's shadow table written (R84); an identical table loads no second copy. -/
def Core.putSieve (c : Core) (t : Bytes) : Core := { c with sieveShadow := some (sieveBase c t, t) }

/-! ### Writing and activating the shadow pair -/

/-- The shadow bank pair of one core written with its slice and the grove-wide sections (R125, R139 step 5). -/
def Core.putPair (c : Core) (g : GroveInfo) (s : Slice) (tail derived : Bool) : Core :=
  c.setPair (1 - c.active) (some ⟨g, s, if tail then some (parseFin g.finish) else none, derived⟩)

/-- The shadow pair cleared, its sieve table too (R145). -/
def Core.clearShadow (c : Core) : Core := { c.setPair (1 - c.active) none with sieveShadow := none }

/-- The active pair cleared, its sieve table too (R145). -/
def Core.clearActive (c : Core) : Core := { c.setPair c.active none with sieveActive := none }

/-- The shadow pair made active, sieve tables swapped with it (R139 step 7). -/
def Core.swapPairs (c : Core) : Core :=
  { c with active := 1 - c.active, sieveActive := c.sieveShadow, sieveShadow := c.sieveActive }

/-- Every core of a plot changed. -/
def Dev.updCores (d : Dev) (p : Plot) (f : Core → Core) : Dev := p.cores.foldl (fun d n => d.updCore n f) d

/-- The shadow pair of a plot written: the slices in chain order, the sieve table in every head where `sieve` says so
(R139 step 5). -/
def writeShadow (d : Dev) (p : Plot) (g : Grove) (sieve derived : Bool) : Dev :=
  (tab p.lay.entries.length id).foldl (fun d i =>
    match p.lay.entries[i]? with
    | none => d
    | some e => d.updCore e.core fun c =>
        let c := c.putPair g.info (at' ⟨0, [], [], [], []⟩ g.slices i) e.tail derived
        if e.head && sieve then c.putSieve g.info.sieve else c) d

/-- The state of a plot whose grove slots are as given, at rest (R282). -/
def restState (active shadow : Bool) : GState :=
  if active then (if shadow then .ready else .active) else if shadow then .staged else .empty

/-- A plot's state follows its grove slots, unless it is re-forming or a core of it holds a marker in HELD (R282). -/
def Plot.settle (p : Plot) : Plot :=
  if p.state = .reforming || p.state = .held then p else { p with state := restState p.activeGrove.isSome p.shadowGrove.isSome }

/-- The shadow grove of a plot made active in every core at once (R139 step 7, R266). -/
def activate (d : Dev) (pid : Nat) : Dev :=
  match d.plot pid with
  | none => d
  | some p =>
    (d.updCores p Core.swapPairs).updPlot pid fun p =>
      ({ p with activeGrove := p.shadowGrove, shadowGrove := p.activeGrove }).settle

/-! ### LOAD_GROVE -/

/-- LOAD_GROVE's operand rules (R137). -/
def loadGroveForm (x : Desc) : Bool :=
  x.onlyOps [(0x10, 8), (0x18, 4), (0x1C, 2), (0x1E, 2)] && x.op 0x10 8 % 64 == 0 && x.op 0x1E 2 < 4

/-- LOAD_GROVE's checks: operands, plot state, copies, address, and then the copy (R139 to R142, R263). -/
def checkLoadGrove (mc : Mc) (d : Dev) (x : Desc) (env : Env) : Verdict :=
  let a := x.op 0x10 8
  let n := x.op 0x18 4
  let act := bit (x.op 0x1E 2) 0
  let only := bit (x.op 0x1E 2) 1
  if !loadGroveForm x then .reject stDescriptorInvalid
  else match d.plot (x.op 0x1C 2) with
  | none => .reject stStateConflict
  | some p =>
    (checks [(p.shadowGrove.isSome || (act && p.activeGrove.isSome) || (act && only), stStateConflict),
      (2 ^ 30 < copiesIn d p.cluster + n, stGroveCapacity), (!d.addrOk .read false a n, stAddressInvalid)]).andThen
    (fun _ => match d.readG env a n with
     | .error e => .fail e
     | .ok img =>
       (Verdict.ofFail (groveCheck mc d p.lay img n)).andThen
       (fun _ => checks [(p.activeGrove.any (fun g => g.info.version = (parseGrove img).info.version), stVersionConflict),
         (!act && !p.heads.all (fun h => sieveFits (d.core h) (parseGrove img).info.sieve), stGroveCapacity)]))

/-- A grove put into a plot's shadow pair. -/
def stageGrove (d : Dev) (pid : Nat) (g : Grove) (sieve : Bool) : Dev :=
  match d.plot pid with
  | none => d
  | some p => (writeShadow d p g sieve false).updPlot pid fun p => { p with shadowGrove := some g }

/-- LOAD_GROVE's work once its checks pass (R139 steps 4 to 7). A fence before the descriptor completes still ends it (R143). -/
def startLoadGrove (j : Job) (d : Dev) : Dev :=
  let x := j.desc
  let g := parseGrove (d.readOr j.env (x.op 0x10 8) (x.op 0x18 4))
  let pid := x.op 0x1C 2
  let d :=
    if bit (x.op 0x1E 2) 1 then d
    else
      let d := stageGrove d pid g true
      if bit (x.op 0x1E 2) 0 then activate d pid else d.updPlot pid Plot.settle
  (d.updJob j.id fun y => { y with plot := some pid }).finishJob j.id 0

/-! ### EVICT_GROVE -/

/-- The opcodes of scoring and training descriptors. -/
def worksPlot (op : Nat) : Bool := [0x20, 0x30, 0x31, 0x32, 0x33, 0x55].contains op

/-- A persistent task is bound to a plot, or a scoring or training descriptor that names it is in progress (R145). -/
def plotInUse (d : Dev) (pid : Nat) : Bool :=
  d.feeds.any (fun f => f.plot = pid && (match f.src with | .task _ => true | _ => false)) ||
  d.jobs.any fun j => worksPlot j.desc.code && j.plot = some pid && !j.ended

/-- EVICT_GROVE's checks (R137, R145). -/
def checkEvict (d : Dev) (x : Desc) : Verdict :=
  let pid := x.op 0x10 2
  let b := x.op 0x12 1
  match d.plot pid with
  | none => checks [(!x.onlyOps [(0x10, 2), (0x12, 1)] || b == 0 || 3 < b, stDescriptorInvalid), (true, stStateConflict)]
  | some p => checks [(!x.onlyOps [(0x10, 2), (0x12, 1)] || b == 0 || 3 < b, stDescriptorInvalid),
      (p.graft.isSome || (2 ≤ b && plotInUse d pid), stStateConflict)]

/-- A plot's shadow grove evicted, its image copy freed (R145). -/
def evictShadow (d : Dev) (pid : Nat) : Dev :=
  match d.plot pid with
  | none => d
  | some p => (d.updCores p Core.clearShadow).updPlot pid fun p => { p with shadowGrove := none }

/-- A plot's active grove evicted (R145). -/
def evictActive (d : Dev) (pid : Nat) : Dev :=
  match d.plot pid with
  | none => d
  | some p => (d.updCores p Core.clearActive).updPlot pid fun p => { p with activeGrove := none, lastMark := none }

/-- EVICT_GROVE's work (R145, R192, R282): after a failed re-placement, BANKS 3 empties the plot. -/
def startEvict (j : Job) (d : Dev) : Dev :=
  let pid := j.desc.op 0x10 2
  let b := j.desc.op 0x12 1
  let d := if bit b 0 then evictShadow d pid else d
  let held := (d.plot pid).any fun p => p.activeGrove.isSome
  let d := if bit b 1 then (if held then disarmPlots (evictActive d pid) (· = pid) else evictActive d pid) else d
  let d := d.updPlot pid fun p =>
    if p.state = .reforming then
      (if b = 3 && p.restart = .failed then { p with state := .empty, restart := .none, held := false } else p)
    else p.settle
  d.finishJob j.id 0

/-! ### LOAD_LAYOUT -/

/-- Two plot records with their core entries are identical (R135). -/
def samePlot (a b : PlotRec) : Bool := a == b

/-- The device is idle but for one descriptor (R135): no grove loaded, no other descriptor in progress. -/
def idleBut (d : Dev) (others : Bool) : Bool :=
  d.plotList.all (fun (_, p) => p.activeGrove.isNone && p.shadowGrove.isNone) && !others

/-- A taken descriptor waits for an event, a frame or a stream number. -/
def Held.inProgress (h : Held) : Bool := [Wait.event, .frame, .stream].contains h.wait

/-- A descriptor is in progress: dispatched and not complete, or waiting on an event, a frame or a stream number. -/
def anyInProgress (d : Dev) : Bool :=
  d.jobs.any (fun j => !d.jobComplete j) || d.chans.any (fun (p : Nat × Chan) => p.2.held.any (·.inProgress))

/-- The rule of R135 on the plots in force and the device ID. -/
def layoutStateOk (d : Dev) (l : Layout) : Bool :=
  d.plotList.all (fun (_, p) =>
    l.plots.any (samePlot p.lay) || (p.activeGrove.isNone && p.shadowGrove.isNone)) &&
  (l.deviceId == d.deviceId || idleBut d (anyInProgress d))

/-- LOAD_LAYOUT's checks (R137, R144). -/
def checkLoadLayout (d : Dev) (x : Desc) (env : Env) : Verdict :=
  let a := x.op 0x10 8
  let n := x.op 0x18 4
  (checks [(!x.onlyOps [(0x10, 8), (0x18, 4)] || x.op 0x10 8 % 64 != 0, stDescriptorInvalid),
    (!d.addrOk .read false a n, stAddressInvalid)]).andThen
  (fun _ => match d.readG env a n with
   | .error e => .fail e
   | .ok img =>
     (Verdict.ofFail (layoutCheck img n fun k => (d.core k).fenced || (d.core k).retired)).andThen
     (fun _ => checks [(!layoutStateOk d (parseLayout img), stStateConflict)]))

/-- The plot of a new layout: the one in force where its record is identical, else a fresh one (R135, R373). -/
def plotFor (d : Dev) (r : PlotRec) : Plot :=
  match d.plot r.plotId with
  | some p => if samePlot p.lay r then p else { lay := r }
  | none => { lay := r }

/-- A layout applied whole (R135, R136, R144). -/
def applyLayout (d : Dev) (img : Bytes) : Dev :=
  let l := parseLayout img
  { d with layout := some l, layoutImage := img, deviceId := l.deviceId,
           plots := l.plots.foldl (fun t r => Tbl.set none r.plotId (some (plotFor d r)) t) [] }

/-- A layout in force keeps a plot (R135). -/
def keeps (d : Dev) (l : Layout) (pid : Nat) : Bool :=
  (d.plot pid).any fun p => l.plots.any fun r => r.plotId = pid && samePlot p.lay r

/-- A core admitted to a plot by a layout load: its descent capture is cleared (R158). -/
def Core.clearCapture (c : Core) : Core :=
  let r := { c.regs with descFaultA := 0, descFaultB := 0 }
  { c with regs := r }

/-- The cores of the plots that a new layout does not keep are admitted (R135, R158). -/
def admitCores (d : Dev) (l : Layout) : Dev :=
  (l.plots.filter fun r => !keeps d l r.plotId).foldl
    (fun d r => (r.entries.map (·.core)).foldl (fun d n => d.updCore n Core.clearCapture) d) d

/-- A core that a layout names has a fault that no FENCE has taken up (R144, R416). -/
def faultWaits (d : Dev) (l : Layout) : Bool :=
  l.plots.any fun r => r.entries.any fun e => d.detected.any fun f => f.core = e.core

/-- LOAD_LAYOUT's work; a plot that it does not keep loses what channels armed for it (R192). Where a named core's fault waits, its
fence may come before the application: then the load fails and the previous layout stays (R144; log 56). -/
def startLoadLayout (j : Job) (d : Dev) : Dev :=
  let img := d.readOr j.env (j.desc.op 0x10 8) (j.desc.op 0x18 4)
  if faultWaits d (parseLayout img) && Config.fenceFirst d.free then { d with free := d.free + 1 }.finishJob j.id stCoreFenced
  else
  let d := admitCores d (parseLayout img)
  (applyLayout (disarmPlots d fun p => !keeps d (parseLayout img) p) img).finishJob j.id 0

end Sys2Proof.Machine
end

