-- ==== Sys2Proof/Machine/Ingress.lean ====
section
/-! DEFINITION. The ingress unit and the plot-entry arbiter: frames, check values, record IDs, the replay buffer and
the rotation over the heads (R76 to R81, R373, R374, R378, R380, R419). -/
namespace Sys2Proof.Machine

/-- The error record of an uncorrectable error in HBM met in a batch's frames (R374, R419). -/
def frameError (d : Dev) (f : Feed) (a : Nat) : Dev :=
  let j := match f.src with | .job id => d.job id | .task _ => none
  d.hbmError a ((j.map (·.chan)).getD 0xFF) ((j.map (·.seq)).getD 0)

/-- A feed has a whole header ready (R77, R380). -/
def Feed.ready (f : Feed) : Bool :=
  !f.ended && !f.gated && f.stream.isSome && f.stopping.isNone &&
  (match f.src with
   | .job _ => f.pos + 16 ≤ f.stop
   | .task _ => match f.queue with | (b, _) :: _ => f.pos + 16 ≤ b.length | [] => false)

/-- The header of a feed's next frame, and the bytes from it to the container's end. -/
def frameHeader (d : Dev) (env : Env) (f : Feed) : Except ReadFail (Bytes × Nat) :=
  match f.src with
  | .job _ => match d.readG env f.pos 16 with | .error e => .error e | .ok h => .ok (h, f.stop - f.pos)
  | .task _ => match f.queue with | (b, _) :: _ => .ok (slice b f.pos 16, b.length - f.pos) | [] => .error .lost

/-- `n` payload bytes of a feed's next frame. -/
def framePayload (d : Dev) (env : Env) (f : Feed) (n : Nat) : Except ReadFail Bytes :=
  match f.src with
  | .job _ => d.readG env (f.pos + 16) n
  | .task _ => match f.queue with | (b, _) :: _ => .ok (slice b (f.pos + 16) n) | [] => .error .lost

/-- The frame's bytes with its padding (R76). -/
def frameBytes (len : Nat) : Nat := 16 + alignUp len 8

/-- A frame header breaks R77, given the bytes from it to the container's end. A frame whose payload fits but whose padding runs
past the end is taken as one that runs past the end (DESIGN CHOICE, log 50). -/
def frameInvalid (h : Bytes) (room : Nat) : Bool :=
  let len := field h 2 2
  field h 0 2 != 1 || 4064 < len || 2 ≤ field h 12 2 || field h 14 2 != 0 || room < frameBytes len

/-- The status the ingress unit gives a record (R77, R80). -/
def frameStatus (h payload : Bytes) (room : Nat) : Status :=
  if frameInvalid h room then stFrameInvalid
  else if bit (field h 12 2) 0 && field h 8 4 != crc32c payload then stEntryCheck else 0

/-- The bytes a replay-buffer entry takes: its record frame (R29). -/
def Rec.bytes (r : Rec) : Nat := frameBytes r.payload.length

/-- The replay-buffer bytes in use in a cluster (R29, R30). -/
def replayUsed (d : Dev) (k : Nat) : Nat :=
  (d.plotList.map fun (_, p) => if (p.first.getD 0) / 64 = k then (p.replay.map Rec.bytes).sum else 0).sum

/-- The size of a cluster's ingress replay buffer (R29). -/
def replaySize : Nat := 2 ^ 24

/-- A channel charged for one record (R378): each 4,096 records add one to DEBT, which stops at 65,535. -/
def Chan.chargeRecord (c : Chan) : Chan :=
  if c.records.toNat = 4095 then { c with records := 0, debt := if c.debt.toNat = 65535 then c.debt else c.debt + 1 }
  else { c with records := c.records + 1 }

/-- The channel's counters of frames taken (R385): rings and batches count frames, all sources count conditions. -/
def Chan.countFrame (c : Chan) (counted : Bool) (st : Status) (discarded : Nat) : Chan :=
  let c := if counted then { c with inFrames := c.inFrames + 1 } else c
  let c := if st = stFrameInvalid then { c with inCnt := laneBump c.inCnt 0 }
    else if st = stEntryCheck then { c with inCnt := laneBump c.inCnt 1 } else c
  { c with inCnt := laneAdd32 c.inCnt 1 discarded }

/-- A stream number freed at a plot's entry (R373): its counter stays, and a turn of it is over (R380). -/
def Plot.freeStream (p : Plot) (n : Nat) : Plot :=
  { p with streams := Tbl.upd {} n (fun s => { s with src := none, slice := 4096 }) p.streams
           arbLeft := if p.arbStream = n then 0 else p.arbLeft }

/-- A plot's entry takes records (R142, R268, R277, R382, R426): it starts here, holds a grove, and nothing stops
intake. -/
def Plot.open' (p : Plot) : Bool :=
  p.startsHere && p.activeGrove.isSome && p.restart == .none && !p.held && p.state != .reforming &&
  (match p.graft with | some g => !(g.drain && g.placed && !g.released) | none => true)

/-- The feeds of a plot with a stream number, ready. -/
def readyStream (d : Dev) (pid n : Nat) : Option Feed :=
  d.feeds.find? fun f => f.plot = pid && f.stream = some n && f.ready

/-- The stream whose turn it is and the records left in its turn (R380). -/
def arbitrate (d : Dev) (pid : Nat) (p : Plot) : Option (Feed × Nat) :=
  match (if 0 < p.arbLeft then readyStream d pid p.arbStream else none) with
  | some f => some (f, p.arbLeft)
  | none =>
    ((tab 64 fun i => (p.arbStream + 1 + i) % 64).findSome? (readyStream d pid)).map fun f => (f, f.entrySlice)

/-- The container of a feed after `n` of its bytes are consumed: what is left is discarded when it holds no header
(R77). Answers the feed, the bytes discarded, and whether the container is finished. -/
def Feed.consume (f : Feed) (n : Nat) : Feed × Nat × Bool :=
  match f.src with
  | .job _ =>
    let pos := min (f.pos + n) f.stop
    if pos + 16 ≤ f.stop then ({ f with pos := pos }, 0, false)
    else ({ f with pos := f.stop, ended := true }, f.stop - pos, true)
  | .task _ =>
    match f.queue with
    | [] => (f, 0, false)
    | (b, _) :: rest =>
      let pos := min (f.pos + n) b.length
      if pos + 16 ≤ b.length then ({ f with pos := pos }, 0, false)
      else ({ f with pos := 0, queue := rest }, b.length - pos, true)

/-- A record passed into a plot's entry: it takes its place in the replay buffer and in the input of the head whose
turn it is (R81). -/
def enterRecord (d : Dev) (pid : Nat) (r : Rec) : Dev :=
  match d.plot pid with
  | none => d
  | some p =>
    let hs := p.heads
    let d := d.setPlot pid { p with replay := p.replay ++ [r], rotHead := (p.rotHead + 1) % max 1 hs.length }
    match hs[p.rotHead]? with
    | none => d
    | some h => d.updCore h fun c => { c with headQueue := c.headQueue ++ [.record r] }

/-- Intake of a feed ends: a batch gives its stream number back (R373, R374). -/
def endIntake (d : Dev) (f : Feed) : Dev :=
  match f.src, f.stream with
  | .job _, some n => (d.updPlot f.plot fun p => p.freeStream n).updFeed f.src fun x => { x with ended := true, stream := none }
  | _, _ => d.updFeed f.src fun x => { x with ended := true }

/-- A frame of a feed becomes a record of the plot (R77 to R81). `st`, `payload` and `ecv` are what the ingress unit
found. -/
def passFrame (d : Dev) (pid : Nat) (f : Feed) (left : Nat) (h : Bytes) (room : Nat) (st : Status) (payload : Bytes)
    (ecv : Nat) : Dev :=
  match d.plot pid, f.stream with
  | some p, some n =>
    let s := Tbl.get {} n p.streams
    let (f', lost, spent) := f.consume (min room (frameBytes (field h 2 2)))
    let ring := match f.src, f.queue with | .task _, (_, 1) :: _ => true | _, _ => false
    let batch := match f.src with | .job _ => true | _ => false
    let r : Rec :=
      { src := f.src, stream := n, seq := s.next, tag := field h 4 4, ecv := ecv, status := st, payload := payload
        q := (s.next + 2 ^ 32 - f.firstSeq) % 2 ^ 32 }
    let d := d.setPlot pid { p with streams := Tbl.set {} n { s with next := (s.next + 1) % 2 ^ 32 } p.streams,
                                    arbStream := n, arbLeft := left - 1 }
    let d := d.updFeed f.src fun _ => { f' with taken := f.taken + 1 }
    let d := d.updChan f.chan fun c =>
      let c := (c.countFrame (ring || batch) st lost).chargeRecord
      if spent && ring then { c with inHead := BitVec.ofNat 16 ((c.inHead.toNat + 1) % 2 ^ c.inLog2.toNat) } else c
    let d := enterRecord d pid r
    if f'.ended then (match d.feed f.src with | some g => endIntake d g | none => d) else d
  | _, _ => d

/-- The ECV of a frame whose payload cannot be read: the spec states none, so it is a free value (log 6). -/
def freeEcv (d : Dev) : Nat := (Config.freeValue d.free).toNat % 2 ^ 32

/-- An uncorrectable error in a cluster's replay buffer, met as the record passes to its head (R419). -/
def replayBufferBad (env : Env) (k : Nat) : Bool :=
  env.ecc.any fun p => overlaps p.1 p.2 (0xF100000000 + k * 0x4000000) replaySize

/-- The error record of a replay-buffer error names the cluster, and the record (R419, R438). -/
def replayError (d : Dev) (pid k rid : Nat) : Dev :=
  let r := errRec stEcc 4 0 3 k
  d.report { r with plot := pid, recordId := some rid, detail := toLe 1 5 }

/-- The first datagram of a port for a UDP port, and the others (R480). -/
def takeDgram (udp : Nat) : List (Nat × Bytes) → Option (Bytes × List (Nat × Bytes))
  | [] => none
  | (u, b) :: t =>
    if u = udp then some (b, t) else match takeDgram udp t with | some (x, r) => some (x, (u, b) :: r) | none => none

/-- A task fed by a record port takes its next datagram from the port's receive buffer once it has none (R480, R481); one
too short for a header is discarded and counted (R77). -/
def refill (d : Dev) (f : Feed) : Dev :=
  match f.src with
  | .job _ => d
  | .task _ =>
    if 16 ≤ f.port || !f.queue.isEmpty || f.stopping.isSome then d
    else match takeDgram f.udp (d.port f.port).dgrams with
      | none => d
      | some (b, rest) =>
        let d := d.updPort f.port fun p => { p with dgrams := rest }
        if b.length < 16 then d.updChan f.chan fun c => { c with inCnt := laneAdd32 c.inCnt 1 b.length }
        else d.updFeed f.src fun x => { x with queue := [(b, 0)], pos := 0 }

/-- Every task of a plot that a record port feeds takes a datagram where it has none. -/
def refillPlot (d : Dev) (pid : Nat) : Dev := (d.feeds.filter fun f => f.plot = pid).foldl refill d

/-- A read of a batch's frames failed on a lost route: its intake ends (R474). -/
def frameLost (d : Dev) (f : Feed) : Dev :=
  endIntake (d.updFeed f.src fun x => { x with linkLost := true }) { f with linkLost := true }

/-- The record ID of a feed's next frame (R78). -/
def nextId (d : Dev) (pid : Nat) (f : Feed) (h : Bytes) : Nat :=
  match d.plot pid, f.stream with
  | some p, some n =>
    field h 4 4 * 2 ^ 32 + (Tbl.get {} n p.streams).next
  | _, _ => 0

/-- The next frame of a feed taken, with `left` records in its turn (R76 to R80, R374, R419). `bound` says whether it must
find room in the replay buffer. -/
def takeFrame (d : Dev) (env : Env) (pid k : Nat) (f : Feed) (left : Nat) (bound : Bool) : Dev :=
  match frameHeader d env f with
  | .error (.ecc a) =>
    frameError (endIntake (d.updFeed f.src fun x => { x with eccHeader := true }) { f with eccHeader := true }) f a
  | .error .lost => frameLost d f
  | .ok (h, room) =>
    let len := if room < frameBytes (field h 2 2) then room - 16 else field h 2 2
    if bound && decide (replaySize < replayUsed d k + frameBytes len) then d
    else match framePayload d env f len with
    | .error .lost => frameLost d f
    | .error (.ecc a) =>
      let d := { frameError d f a with free := d.free + 1 }
      passFrame d pid f left h room stEcc (List.replicate len 0#8) (freeEcv d)
    | .ok b =>
      if bound && replayBufferBad env k then
        passFrame (replayError d pid k (nextId d pid f h)) pid f left h room stEcc b (crc32c b)
      else passFrame d pid f left h room (frameStatus h b room) b (crc32c b)

/-- The turn at a plot's entry ends early where its stream has no header ready (R380). -/
def endTurn (d : Dev) (pid : Nat) : Dev :=
  match d.plot pid with
  | none => d
  | some p => if p.arbLeft ≠ 0 && (readyStream d pid p.arbStream).isNone then d.setPlot pid { p with arbLeft := 0 } else d

/-- The head whose turn it is has room for a record; else the ingress unit waits (R15, R21, R81). -/
def headRoom (d : Dev) (p : Plot) : Bool := (p.heads[p.rotHead]?).all fun h => laneFree (d.core h).headQueue.length

/-- One frame of a plot enters, when the head whose turn it is has room (R21, R76 to R81, R374, R380). -/
def ingressFrame (pid : Nat) (env : Env) (d0 : Dev) : Dev :=
  let d := if (d0.plot pid).any (·.open') then endTurn (refillPlot d0 pid) pid else d0
  match d.plot pid with
  | none => d
  | some p =>
    if !p.open' || !headRoom d p then d
    else match arbitrate d pid p with
    | none => d
    | some (f, left) => takeFrame d env pid ((p.first.getD 0) / 64) f left true

/-- INGRESS_FRAME (R77). -/
def execIngressFrame (plot : Fin 256) (env : Env) (s : State) : Host.Outcome State Fault Refusal :=
  onDev (ingressFrame plot.val env) s

end Sys2Proof.Machine
end

