-- ==== Sys2Proof/Machine/Tables.lean ====
section
/-! DEFINITION. The table engines: GATHER, UPDATE, TABLE_SYNC, and the bags of leaf keys (R317 to R332, R453, R455,
R457). -/
namespace Sys2Proof.Machine

/-- SNAPSHOT_INVALID (R463). -/
def stSnapshotInvalid : Status := 0x10C0

/-! ### Blocks in memory -/

/-- The table block at an address, checked for a use of its rows, or what its checks answer (R317). -/
def tableAt (d : Dev) (env : Env) (use : Use) (a : Nat) : Except Verdict Table :=
  if a % 64 ≠ 0 then .error (.reject stTableInvalid)
  else if !d.addrOk .read false a 64 then .error (.reject stAddressInvalid)
  else match d.readG env a 64 with
    | .error e => .error (.fail e)
    | .ok h =>
      let n := tableBytes h
      if 64 + 8 * 4096 < n then .error (.reject stTableInvalid)
      else if !d.addrOk .read false a n then .error (.reject stAddressInvalid)
      else match d.readG env a n with
        | .error e => .error (.fail e)
        | .ok b =>
          let t := parseTable b
          if !tableOk b then .error (.reject stTableInvalid)
          else if !t.shards.all (fun s => d.addrOk use false s.1 s.2) then .error (.reject stAddressInvalid) else .ok t

/-- What an answer decides: the checks that follow it, or its verdict. -/
def within {α : Type} (r : Except Verdict α) (f : α → Verdict) : Verdict := match r with | .error v => v | .ok a => f a

/-- The table block of a dispatched descriptor (R317). -/
def tableNow (d : Dev) (j : Job) (a : Nat) : Table := parseTable (d.blockOf j a (tableBytes (d.blockOf j a 64)))

/-! ### Pooling -/

/-- A pooling in progress (R323): the device, the sums, how many keys entered, the flags, whether a key was out of range,
and the first row that could not be read. -/
structure PoolSt where
  dev : Dev
  acc : List Nat
  n : Nat
  flags : NFlags
  range : Bool
  bad : Option (ReadFail × Nat)

/-- The larger of two FP32 values as R203 and R204 order them: NaN is excluded, and the earlier wins a tie. -/
def larger (a x : Nat) : FV :=
  let va := floatVal .fp32 a
  let vx := floatVal .fp32 x
  if va.isNan then (x, Fl.nan) else if vx.isNan then (a, Fl.nan) else if Val.lt va vx then (x, 0) else (a, 0)

/-- One row pooled into the sums (R323). -/
def poolRow (kind n : Nat) (acc xs : List Nat) : List Nat × NFlags :=
  let l := tab acc.length fun i =>
    let a := at' 0 acc i
    let x := at' 0 xs i
    if kind = 2 then (if n = 0 then (x, (0 : NFlags)) else larger a x) else FV.add (.c a) (.c x)
  (l.map (·.1), FV.flags l)

/-- One key of a bag (R315, R323, R324): counted by the engine that met it where it names no row. -/
def poolKey (env : Env) (t : Table) (kind cluster : Nat) (s : PoolSt) (k : Nat) : PoolSt :=
  if s.bad.isSome then s
  else match t.rowOf k with
    | none => { s with dev := s.dev.countKeyRange (4 * cluster + Config.homeEngine k % 4), range := true }
    | some r =>
      let a := t.addr r
      match s.dev.rowRead env a t.valueBytes with
      | (d, .error e) => { s with dev := d, bad := some (e, a) }
      | (d, .ok b) =>
        let d := if ((d.cache (clusterOf a)).find a).isSome then d else d.cacheRow a b
        let (xs, f) := rowValues t b
        let (acc, g) := poolRow kind s.n s.acc xs
        { s with dev := d, acc := acc, n := s.n + 1, flags := s.flags ||| f ||| g }

/-- A bag pooled and converted (R323, R324): the device, the codes, the flags, and what was met; an unreadable row makes
every element +0, and is reported. -/
def poolBag (d : Dev) (env : Env) (t : Table) (kind outFmt cluster plot : Nat) (j : Option Job) (keys : List Nat) :
    Dev × List Nat × NFlags × Bool × Bool :=
  let s := keys.foldl (poolKey env t kind cluster) ⟨d, List.replicate t.dim 0, 0, 0, false, none⟩
  match s.bad with
  | some (e, a) =>
    (unreadable s.dev e stRowUnreadable 1 (homeOf a) plot none j, List.replicate t.dim 0, s.flags,
      s.range, true)
  | none =>
    let m := if kind = 1 && s.n ≠ 0 then s.acc.map fun x => FV.divNat (.c x) s.n else s.acc.map FV.c
    let o := m.map fun x => convert .fp32 0 (poolFmt outFmt) 0 .rne x.1
    (s.dev, o.map (·.1), s.flags ||| FV.flags m ||| FV.flags o, s.range, false)

/-- The bytes of pooled codes. -/
def poolBytes (outFmt : Nat) (codes : List Nat) : Bytes := codes.flatMap (toLe (poolFmt outFmt).size)

/-- Pooled codes written into a row of a tile. -/
def poolTileRow (t : TileWord) (r : Nat) (codes : List Nat) (c : Core) : Core :=
  (List.range codes.length).foldl (fun c k => c.setElem t r k (at' 0 codes k)) c

/-! ### GATHER -/

/-- The operands of a GATHER (R322). -/
structure GatherOps where
  table : Nat
  keys : Nat
  offs : Nat
  dst : Nat
  bags : Nat
  stride : Nat
  pool : Nat
  tile : Bool
  outFmt : Nat
deriving DecidableEq, Repr

/-- The operand fields of a GATHER. -/
def gatherOps (x : Desc) : GatherOps :=
  { table := x.op 0x10 8, keys := x.op 0x18 8, offs := x.op 0x20 8, dst := x.op 0x28 8, bags := x.op 0x30 4
    stride := x.op 0x34 4, pool := x.op 0x38 1, tile := bit (x.op 0x39 1) 0, outFmt := bits (x.op 0x39 1) 1 2 }

/-- The cluster whose engines run an operation on a tile or a memory range (R322, R328). -/
def engineCluster (d : Dev) (tile : Bool) (a : Nat) : Nat :=
  if tile then bits a 0 8 / 64 else if addrDevice a = d.deviceId then clusterOf a % 4 else 0

/-- The offsets of a GATHER's bags. -/
def gatherOffs (d : Dev) (env : Env) (o : GatherOps) : List Nat :=
  let b := d.readOr env o.offs (4 * (o.bags + 1))
  tab (o.bags + 1) fun i => field b (4 * i) 4

/-- A list in ascending order; equal neighbours make an empty bag. -/
def risingFrom : Nat → List Nat → Bool
  | _, [] => true
  | a, x :: xs => decide (a ≤ x) && risingFrom x xs

/-- The operand rules of R322 that need no memory. -/
def gatherForm (x : Desc) : List (Bool × Status) :=
  let o := gatherOps x
  [(!x.onlyOps [(0x10, 8), (0x18, 8), (0x20, 8), (0x28, 8), (0x30, 4), (0x34, 4), (0x38, 1), (0x39, 1)], stDescriptorInvalid),
   (2 < o.pool || 8 ≤ x.op 0x39 1 || o.outFmt == 3 || o.keys % 8 != 0 || o.bags == 0 || (o.tile && o.stride != 0), stTableInvalid)]

/-- GATHER's checks on the data it reads (R317, R322). -/
def gatherData (d : Dev) (env : Env) (o : GatherOps) : Verdict :=
  within (tableAt d env .read o.table) fun t =>
    match d.readG env o.offs (4 * (o.bags + 1)) with
    | .error e => .fail e
    | .ok _ =>
      let os := gatherOffs d env o
      let w := TileWord.of o.dst
      let row := t.dim * (poolFmt o.outFmt).size
      checks [(!risingFrom 0 os, stTableInvalid), (!o.tile && o.stride < row, stTableInvalid),
        (o.tile && !(w.cols == t.dim && w.mode == poolMode o.outFmt && o.bags ≤ w.rows), stTableInvalid),
        (!d.addrOk .read false (o.keys + 8 * at' 0 os 0) (8 * (at' 0 os o.bags - at' 0 os 0)), stAddressInvalid),
        (!o.tile && !d.addrOk .write false o.dst ((o.bags - 1) * o.stride + row), stAddressInvalid)]

/-- GATHER's checks (R322). -/
def checkGather (d : Dev) (x : Desc) (env : Env) : Verdict :=
  let o := gatherOps x
  (checks (gatherForm x ++ (if o.tile then tileForm o.dst ++ tileState d o.dst else []) ++
    [(!d.addrOk .read false o.offs (4 * (o.bags + 1)), stAddressInvalid)])).andThen (fun _ => gatherData d env o)

/-- The status of a table operation (R324, R332). -/
def tableStatus (range bad : Bool) : Status := if bad then stRowUnreadable else if range then stKeyRange else 0

/-- A table operation's descriptor in progress: the device, the flags and what was met. -/
structure TabSt where
  dev : Dev
  flags : NFlags
  range : Bool
  bad : Bool

/-- One bag of a GATHER pooled and written (R323). -/
def gatherBag (j : Job) (o : GatherOps) (t : Table) (os : List Nat) (s : TabSt) (b : Nat) : TabSt :=
  let lo := at' 0 os b
  let keys := tab (at' 0 os (b + 1) - lo) fun i => le (s.dev.readOr j.env (o.keys + 8 * (lo + i)) 8)
  let (d, codes, f, range, bad) := poolBag s.dev j.env t o.pool o.outFmt (engineCluster s.dev o.tile o.dst) 0xFFFF (some j) keys
  let d :=
    if o.tile then d.updCore (bits o.dst 0 8) fun c => (poolTileRow (TileWord.of o.dst) b codes c).flagTile o.dst f
    else d.writeG j.id (o.dst + b * o.stride) (poolBytes o.outFmt codes)
  ⟨d, s.flags ||| f, s.range || range, s.bad || bad⟩

/-- GATHER's work (R323, R324). -/
def gatherRun (j : Job) (d : Dev) : Dev :=
  let o := gatherOps j.desc
  let os := gatherOffs d j.env o
  match d.readG j.env (o.keys + 8 * at' 0 os 0) (8 * (at' 0 os o.bags - at' 0 os 0)) with
  | .error e => d.endRead j e
  | .ok _ =>
    let s := (List.range o.bags).foldl (gatherBag j o (tableNow d j o.table) os) ⟨d, 0, false, false⟩
    s.dev.finishJob j.id (tableStatus s.range s.bad) s.flags

/-! ### UPDATE -/

/-- The operands of an UPDATE (R328). -/
structure UpdateOps where
  table : Nat
  keys : Nat
  grad : Nat
  count : Nat
  stride : Nat
  hyper : Nat
  plot : Nat
  tile : Bool
  sround : Bool
  mirror : Bool
deriving DecidableEq, Repr

/-- The operand fields of an UPDATE. -/
def updateOps (x : Desc) : UpdateOps :=
  { table := x.op 0x10 8, keys := x.op 0x18 8, grad := x.op 0x20 8, count := x.op 0x28 4, stride := x.op 0x2C 4
    hyper := x.op 0x30 8, plot := x.op 0x38 2, tile := bit (x.op 0x3A 1) 0, sround := bit (x.op 0x3A 1) 1
    mirror := bit (x.op 0x3A 1) 2 }

/-- The cluster whose engines run a table descriptor; TABLE_SYNC runs on any (R321, R322, R328). -/
def tableCluster (d : Dev) (x : Desc) : Option Nat :=
  match x.code with
  | 0x40 => some (engineCluster d (gatherOps x).tile (gatherOps x).dst)
  | 0x41 => some (engineCluster d (updateOps x).tile (updateOps x).grad)
  | _ => none

/-- A table descriptor is the work of a cluster's engines. -/
def onCluster (d : Dev) (k : Nat) (j : Job) : Bool := (tableCluster d j.desc).all (· == k)

/-- The partner record of a plot (R132, R133). -/
def Dev.partnerOf (d : Dev) (pid : Nat) : Option Partner :=
  (d.plot pid).bind fun p => d.layout.bind fun l => l.partners[p.lay.partner]?

/-- A plot's partner is not the bound one (R453). -/
def Dev.otherPartner (d : Dev) (pid : Nat) : Bool := d.surv.bound.isSome && d.surv.bound != d.partnerOf pid

/-- The mirror window of this device: its first local offset and its bytes (R453). -/
def Survive.window (s : Survive) : Nat × Nat := (4096 * s.windowStart.toNat, 4096 * s.windowPages.toNat)

/-- A range lies wholly inside the mirror window (R453). -/
def Dev.inWindow (d : Dev) (r : Nat × Nat) : Bool :=
  let (w, n) := d.surv.window
  addrDevice r.1 == d.deviceId && w ≤ addrLocal r.1 && addrLocal r.1 + r.2 ≤ w + n

/-- The operand rules of R328 that need no memory. -/
def updateForm (d : Dev) (x : Desc) : List (Bool × Status) :=
  let o := updateOps x
  [(!x.onlyOps [(0x10, 8), (0x18, 8), (0x20, 8), (0x28, 4), (0x2C, 4), (0x30, 8), (0x38, 2), (0x3A, 1)], stDescriptorInvalid),
   (8 ≤ x.op 0x3A 1 || o.keys % 8 != 0 || o.hyper % 8 != 0 || o.count == 0 || (o.tile && o.stride != 0) ||
     (o.mirror && (d.partnerOf o.plot).isNone), stTableInvalid)]

/-- UPDATE's checks on the data it reads (R317, R328, R453). -/
def updateData (d : Dev) (env : Env) (o : UpdateOps) : Verdict :=
  within (tableAt d env .write o.table) fun t =>
    match d.readG env o.hyper 32 with
    | .error e => .fail e
    | .ok h =>
      let w := TileWord.of o.grad
      checks [(t.opt == 0 || !hyperOk t.opt h, stTableInvalid),
        (if o.tile then !(w.mode == 0 && w.cols == t.dim && o.count ≤ w.rows) else o.stride < 4 * t.dim, stTableInvalid),
        (!o.tile && !d.addrOk .read false o.grad ((o.count - 1) * o.stride + 4 * t.dim), stAddressInvalid),
        (o.mirror && !t.shards.all d.inWindow, stSnapshotInvalid)]

/-- UPDATE's checks (R328, R453). -/
def checkUpdate (d : Dev) (x : Desc) (env : Env) : Verdict :=
  let o := updateOps x
  (checks (updateForm d x ++ (if o.tile then tileForm o.grad ++ tileState d o.grad else []) ++
    [(o.mirror && d.otherPartner o.plot, stSnapshotInvalid), (!d.addrOk .read false o.keys (8 * o.count), stAddressInvalid),
     (!d.addrOk .read false o.hyper 32, stAddressInvalid)])).andThen (fun _ => updateData d env o)

/-- The mirror copy is lost (R457): VALID falls, and where the copy stood until now an error record says so. -/
def Dev.mirrorFails (d : Dev) (plot : Nat) : Dev :=
  let v := d.surv.valid
  let d := { d with surv := { d.surv with valid := false, lost := true } }
  if v then d.report { errRec stMirrorLost 12 0 8 0xFFFF with plot := plot } else d

/-- A descriptor reports MIRROR_LOST (R462). -/
def Dev.countLost (d : Dev) : Dev := { d with surv := { d.surv with status := laneBump (setBit d.surv.status 0) 1 } }

/-- A mirror log record of an updated row (R455). -/
def mirrorRecord (d : Dev) (epoch a : Nat) (b : Bytes) : Bytes :=
  let r := toLe 8 (addrLocal a - d.surv.window.1) ++ toLe 4 epoch ++ toLe 2 b.length ++ toLe 2 0 ++ b
  r ++ List.replicate (alignUp r.length 64 - r.length) 0#8

/-- An updated row sent to the partner (R332, R455); none where the mirror copy is lost, or the way there (R457). -/
def mirrorRow (j : Job) (o : UpdateOps) (a : Nat) (b : Bytes) (d : Dev) : Dev :=
  match d.surv.bound with
  | some p =>
    if !o.mirror || d.surv.lost then d
    else if (d.routePort p.deviceId).isNone then d.mirrorFails o.plot
    else
      let (d, tag) := sendRequest d p.deviceId 9 o.plot j.id a b.length j.cursor fun _ => mirrorRecord d j.cursor a b
      d.updJob j.id fun j => { j with wait := j.wait ++ [tag] }
  | none => d

/-- Gradient row `i` of an UPDATE (R329). -/
def gradRow (d : Dev) (env : Env) (o : UpdateOps) (dim i : Nat) : List Nat :=
  if o.tile then
    let c := d.core (bits o.grad 0 8)
    tab dim fun k => c.elem (TileWord.of o.grad) i k
  else
    let b := d.readOr env (o.grad + i * o.stride) (4 * dim)
    tab dim fun k => field b (4 * k) 4

/-- A row's gradient joined to those of the rows named before (R329): rows in the order of their first key, gradients added
in ascending order of the keys. -/
def joinGrad (r : Nat) (g : List Nat) : List (Nat × List Nat) → List (Nat × List Nat) × NFlags
  | [] => ([(r, g)], 0)
  | (r', g') :: t =>
    if r' = r then
      let l := tab g'.length fun k => FV.add (.c (at' 0 g' k)) (.c (at' 0 g k))
      ((r, l.map (·.1)) :: t, FV.flags l)
    else let (t, f) := joinGrad r g t; ((r', g') :: t, f)

/-- The gradient intake of an UPDATE (R329, R333): the distinct rows with their summed gradients, and what was met. -/
def gradients (j : Job) (o : UpdateOps) (t : Table) (s : TabSt × List (Nat × List Nat)) (i : Nat) :
    TabSt × List (Nat × List Nat) :=
  let k := le (s.1.dev.readOr j.env (o.keys + 8 * i) 8)
  match t.rowOf k with
  | none =>
    let e := 4 * engineCluster s.1.dev o.tile o.grad + Config.homeEngine k % 4
    ({ s.1 with dev := s.1.dev.countKeyRange e, range := true }, s.2)
  | some r =>
    let d := s.1.dev
    let d := if addrDevice (t.addr r) = d.deviceId then
        d.updTab (homeOf (t.addr r)) fun e => { e with progress := e.progress + 1 }
      else d
    let (l, f) := joinGrad r (gradRow d j.env o t.dim i) s.2
    ({ s.1 with dev := d, flags := s.1.flags ||| f }, l)

/-- A row's new bytes written through to its memory and its cached copy (R319, R333). -/
def writeRow (j : Job) (a : Nat) (b : Bytes) (d : Dev) : Dev :=
  let d := d.writeG j.id a b
  if addrDevice a = d.deviceId then (d.cacheRow a b).countAccess a (accesses b.length) false else d

/-- One distinct row updated (R330, R332): an unreadable row stands and is reported. -/
def updateOne (j : Job) (o : UpdateOps) (t : Table) (h : Hyper) (s : TabSt) (p : Nat × List Nat) : TabSt :=
  let a := t.addr p.1
  match s.dev.rowRead j.env a t.whole with
  | (d, .error e) =>
    { s with dev := unreadable d e stRowUnreadable 1 (homeOf a) 0xFFFF none (some j), bad := true }
  | (d, .ok b) =>
    let (b', f) := updateRow t h o.sround p.1 p.2 b
    { s with dev := mirrorRow j o a b' (writeRow j a b' d), flags := s.flags ||| f }

/-- The first of an UPDATE's operand ranges that cannot be read. -/
def updateBad (d : Dev) (env : Env) (o : UpdateOps) (dim : Nat) : Option ReadFail :=
  let f := d.readFail env
  (f o.hyper 32).orElse fun _ => (f o.keys (8 * o.count)).orElse fun _ =>
    if o.tile then none else (List.range o.count).findSome? fun i => f (o.grad + i * o.stride) (4 * dim)

/-- UPDATE's work (R329 to R332, R457). -/
def updateRun (j : Job) (d : Dev) : Dev :=
  let o := updateOps j.desc
  let t := tableNow d j o.table
  match updateBad d j.env o t.dim with
  | some e => d.endRead j e
  | none =>
    let (s, rows) := (List.range o.count).foldl (gradients j o t) (⟨d, 0, false, false⟩, [])
    let s := rows.foldl (updateOne j o t (parseHyper (d.blockOf j o.hyper 32))) s
    let st := if s.bad then stRowUnreadable else if o.mirror && s.dev.surv.lost then stMirrorLost else tableStatus s.range s.bad
    (if st = stMirrorLost then s.dev.countLost else s.dev).finishJob j.id st s.flags

/-! ### TABLE_SYNC -/

/-- TABLE_SYNC's checks (R321). -/
def checkTableSync (d : Dev) (x : Desc) (env : Env) : Verdict :=
  (checks [(!x.onlyOps [(0x10, 8)], stDescriptorInvalid)]).andThen
  (fun _ => if x.op 0x10 8 = 0 then Verdict.go else within (tableAt d env .read (x.op 0x10 8)) fun _ => .go)

/-- The cached rows that satisfy a test removed from all four clusters' caches (R321). -/
def dropCached (d : Dev) (p : Nat → Bool) : Dev :=
  [0, 1, 2, 3].foldl (fun d k => d.updCache k fun r => { r with rows := r.rows.filter fun x => !p x.1 }) d

/-! ### Gathers from leaf keys -/

/-- The key-gather block that 64 bytes spell, with its table (R325). -/
def parseKeyGather (b : Bytes) (t : Table) : KeyGather :=
  { pool := field b 2 1, tile := bit (field b 3 1) 0, outFmt := bits (field b 3 1) 1 2, stride := field b 4 4
    dst := field b 0x10 8, slots := field b 0x18 4, table := t }

/-- The rules of R325 on the block itself. -/
def keyGatherBlockOk (b : Bytes) : Bool :=
  field b 0 2 == 1 && field b 2 1 ≤ 2 && field b 3 1 < 8 && bits (field b 3 1) 1 2 ≤ 2 && zeroFrom b 0x20 0x40 &&
  crcZeroed b 0x1C == field b 0x1C 4 &&
  (if bit (field b 3 1) 0 then field b 0x18 4 == 0 && field b 0x10 1 == 0 else field b 0x18 4 != 0 && field b 4 4 % 8 == 0)

/-- The bytes of a ring slot that a bag fills (R326). -/
def KeyGather.slotUsed (k : KeyGather) : Nat := 16 + k.table.dim * (poolFmt k.outFmt).size

/-- The key-gather block a descriptor or task names for a plot, checked; none for a zero address (R325, R326). `records`
is the number of records where it is known. -/
def keyGatherAt (d : Dev) (env : Env) (a : Nat) (p : Plot) (records : Option Nat) : Except Verdict (Option KeyGather) :=
  if a = 0 then .ok none
  else if a % 64 ≠ 0 then .error (.reject stTableInvalid)
  else if !d.addrOk .read false a 64 then .error (.reject stAddressInvalid)
  else match d.readG env a 64 with
    | .error e => .error (.fail e)
    | .ok b =>
      if !keyGatherBlockOk b then .error (.reject stTableInvalid)
      else match tableAt d env .read (field b 8 8) with
        | .error v => .error v
        | .ok t =>
          let k := parseKeyGather b t
          let w := TileWord.of k.dst
          let v := if k.tile then
              checks (tileForm k.dst ++ [(!(w.cols == t.dim && w.mode == poolMode k.outFmt), stTableInvalid),
                (records.any (w.rows < ·), stTileShape)] ++ p.cores.flatMap fun n => tileState d (atCore k.dst n))
            else checks [(k.stride < k.slotUsed, stTableInvalid),
              (!d.addrOk .write false k.dst ((k.slots - 1) * k.stride + k.slotUsed), stAddressInvalid)]
          match v with | .go => .ok (some k) | v => .error v

/-- The descriptor whose writes a source's bags belong to; a task's writes belong to none. -/
def Src.jobId : Src → Nat
  | .job i => i
  | .task _ => 2 ^ 64

/-- A bag written into its ring slot in the three steps of R327. -/
def writeBagSlot (d : Dev) (job a : Nat) (blk pooled : Bytes) (range bad : Bool) : Dev :=
  let rest := slice blk 8 7 ++ toLe 1 (b2n range + 2 * b2n bad) ++ pooled
  ((d.writeG job a (toLe 8 (2 ^ 64 - 1))).writeG job (a + 8) rest).writeG job a (slice blk 0 8)

/-- A bag pooled and written for a source (R326). -/
def poolKeys (n pos cores : Nat) (env : Env) (f : Feed) (kg : KeyGather) (blk : KeyBlock) (d : Dev) : Dev :=
  let keys := tab (field blk.bytes 0xC 2) fun i => field blk.bytes (0x10 + 8 * i) 8
  let (d, codes, fl, range, bad) := poolBag d env kg.table kg.pool kg.outFmt (n / 64) f.plot none keys
  let w := atCore kg.dst n
  let d :=
    if kg.tile then
      if ((d.core n).tile w).isSome && blk.q < (TileWord.of w).rows then
        d.updCore n fun c => (poolTileRow (TileWord.of w) blk.q codes c).flagTile w fl
      else d
    else writeBagSlot d f.src.jobId (kg.dst + (blk.q * cores + pos) % kg.slots * kg.stride) blk.bytes
      (poolBytes kg.outFmt codes) range bad
  let d := d.updFeed f.src fun x => { x with rowUnreadable := x.rowUnreadable || bad, keyRange := x.keyRange || range }
  d.updJob f.src.jobId fun j => { j with nflags := j.nflags ||| fl }

/-- The table engines pool the oldest leaf-key block of a core (R326, R327). -/
def keyGatherBag (n : Nat) (env : Env) (d : Dev) : Dev :=
  match (d.core n).keyBlocks with
  | [] => d
  | blk :: rest =>
    let d := d.updCore n fun c => { c with keyBlocks := rest }
    match d.plotOf n, d.feed blk.src with
    | some (_, p), some f =>
      match f.keyGather with
      | some kg => poolKeys n (p.cores.takeWhile (· ≠ n)).length p.cores.length env f kg blk d
      | none => d
    | _, _ => d

end Sys2Proof.Machine
end

