-- ==== Sys2Proof/Machine/Tasks.lean ====
section
/-! DEFINITION. SCORE_BATCH, RESIDENT_SCORE and STOP_RESIDENT, record and result rings, and the doorbells (R350, R373 to
R381, R389). -/
namespace Sys2Proof.Machine

/-- TASK_INVALID (R387). -/
def stTaskInvalid : Status := 0x1092

/-! ### What a plot asks of a scoring descriptor -/

/-- RESULT_BYTES of a grove (R226, R228). -/
def resultBytes (g : Grove) : Nat := 32 + outBytes (parseFin g.info.finish) g.info.outputs g.info.prune

/-- A slot of `n` bytes is too small for the results of a plot's active grove (R231). -/
def Plot.slotShort (p : Plot) (n : Nat) : Bool := p.activeGrove.any fun g => n < resultBytes g

/-- The plot's state accepts scoring descriptors and tasks (R282). -/
def Plot.scores (p : Plot) : Bool := [GState.active, .ready, .grafting, .held, .draining].contains p.state

/-- The active grove's FINISH block has MODE 1 (R236). -/
def Plot.elemMode (p : Plot) : Bool := p.activeGrove.any fun g => (parseFin g.info.finish).mode = 1

/-- The active grove has LEAF_TO_ID set (R325). -/
def Plot.leafToId (p : Plot) : Bool := p.activeGrove.any fun g => g.info.leafToId

/-- The lowest free stream number of a plot's entry (R373). -/
def Plot.freeStreamNo (p : Plot) : Option Nat := (List.range 64).find? fun n => (Tbl.get {} n p.streams).src.isNone

/-- The wait for a stream number, the last of a scoring descriptor's checks (R373). -/
def streamWait (p : Plot) : Verdict := if p.freeStreamNo.isSome then .go else .wait .stream

/-- The records that a batch's frames make, with `fuel` headers at most (R76, R77). -/
def countFrames (d : Dev) (env : Env) : Nat → Nat → Nat → Nat
  | 0, _, _ => 0
  | fuel + 1, pos, stop =>
    if pos + 16 ≤ stop then
      match d.readG env pos 16 with
      | .ok h => 1 + countFrames d env fuel (pos + frameBytes (field h 2 2)) stop
      | .error _ => 0
    else 0

/-! ### SCORE_BATCH -/

/-- The operands of a SCORE_BATCH (R374). -/
structure ScoreOps where
  src : Nat
  dst : Nat
  kg : Nat
  bytes : Nat
  slot : Nat
  plot : Nat
  slice : Nat
  ring : Bool
  silent : Bool
deriving DecidableEq, Repr

/-- The operand fields of a SCORE_BATCH. -/
def scoreOps (x : Desc) : ScoreOps :=
  { src := x.op 0x10 8, dst := x.op 0x18 8, kg := x.op 0x20 8, bytes := x.op 0x28 4, slot := x.op 0x2C 4, plot := x.op 0x30 2
    slice := x.op 0x32 2, ring := bit (x.op 0x34 1) 0, silent := bit (x.op 0x34 1) 1 }

/-- The operand rules of R374. -/
def scoreForm (x : Desc) : Bool :=
  let o := scoreOps x
  x.onlyOps [(0x10, 8), (0x18, 8), (0x20, 8), (0x28, 4), (0x2C, 4), (0x30, 2), (0x32, 2), (0x34, 1)] && x.op 0x34 1 < 4 &&
  o.src % 8 == 0 && 16 ≤ o.bytes && o.bytes % 8 == 0 && o.slot % 8 == 0 && !(o.ring && o.silent) &&
  (!(o.ring || o.silent) || (o.dst == 0 && o.slot == 0))

/-- The slot of a SCORE_BATCH's destination is too small, or its ring is not configured (R231, R381). -/
def scoreSlotBad (ch : Chan) (p : Plot) (o : ScoreOps) : Bool :=
  if o.silent then false
  else if o.ring then ch.outLog2 == 0 || p.slotShort ch.outSlot.toNat
  else p.slotShort o.slot

/-- The state checks of a SCORE_BATCH on its plot (R381). -/
def scoreState (ch : Chan) (p : Plot) (o : ScoreOps) : List (Bool × Status) :=
  [(!p.scores || !p.startsHere || scoreSlotBad ch p o || (p.elemMode && (ch.armedFor o.plot true).isNone) ||
    (p.leafToId && o.kg == 0), stStateConflict)]

/-- The state checks of an armed operand tile (R236, R541). -/
def scoreTile (d : Dev) (p : Plot) (a : Option Armed) : List (Bool × Status) :=
  match a, p.activeGrove with
  | some a, some g =>
    let t := TileWord.of a.addr
    if a.opndKind = 1 then [(!(p.endsHere && p.last == some t.core && t.cols == g.info.outputs), stTileShape)] ++ tileState d a.addr else []
  | _, _ => []

/-- The checks of an armed operand for a batch of `n` records (R236): its tile's rows, or its range. -/
def scoreOperand (d : Dev) (p : Plot) (a : Option Armed) (n : Nat) : List (Bool × Status) :=
  match a, p.activeGrove with
  | some a, some g =>
    let k := g.info.outputs
    let f := parseFin g.info.finish
    if a.opndKind = 1 then [((TileWord.of a.addr).rows < n, stTileShape)]
    else [(!d.addrOk .read false a.addr ((n - 1) * a.stride + k * (elemFmt f.opndFmt).size), stAddressInvalid)]
  | _, _ => []

/-- The address checks of an armed residual for a batch of `n` records (R191). -/
def scoreResidual (d : Dev) (a : Option Armed) (n : Nat) : List (Bool × Status) :=
  match a with
  | some a =>
    [(a.const.isNone && !d.addrOk .read false a.addr ((n - 1) * a.stride + a.count * (elemFmt a.fmt).size), stAddressInvalid)]
  | none => []

/-- SCORE_BATCH's checks (R191, R231, R236, R325, R326, R373, R374, R381). -/
def checkScore (d : Dev) (ch : Chan) (x : Desc) (env : Env) : Verdict :=
  let o := scoreOps x
  match d.plot o.plot with
  | none => checks [(!scoreForm x, stDescriptorInvalid), (o.kg % 64 != 0, stTableInvalid), (true, stStateConflict)]
  | some p =>
    (checks ([(!scoreForm x, stDescriptorInvalid), (o.kg % 64 != 0, stTableInvalid)] ++ scoreState ch p o ++
      scoreTile d p (ch.armedFor o.plot true) ++
      [(!d.addrOk .read false o.src o.bytes, stAddressInvalid)])).andThen
    (fun _ =>
      let n := countFrames d env (o.bytes / 16) o.src (o.src + o.bytes)
      (checks ([(!o.ring && !o.silent && !d.addrOk .write false o.dst (n * o.slot), stAddressInvalid)] ++
        scoreResidual d (ch.armedFor o.plot false) n ++ scoreOperand d p (ch.armedFor o.plot true) n)).andThen
      (fun _ => within (keyGatherAt d env o.kg p (some n)) fun _ => streamWait p))

/-- A feed with nothing taken yet. -/
def Feed.fresh (src : Src) (chan plot : Nat) (stream firstSeq slice : Nat) : Feed :=
  { src := src, chan := chan, plot := plot, stream := some stream, firstSeq := firstSeq, taken := 0, accepted := 0
    nonzero := 0, pos := 0, stop := 0, queue := [], ended := false, eccHeader := false, linkLost := false
    rowUnreadable := false, keyRange := false, fencedRec := false, dst := 0, dstKind := 0, slotBytes := 0
    entrySlice := if slice = 0 then 4096 else slice, keyGather := none, residual := none, operand := none, port := 16
    udp := 0, holds := [], stopping := none, gated := false }

/-- A stream number of a plot taken for a source (R373). -/
def Plot.openStream (p : Plot) (n : Nat) (src : Src) (slice : Nat) : Plot :=
  { p with streams := Tbl.upd {} n (fun s => { s with src := some src, slice := if slice = 0 then 4096 else slice }) p.streams }

/-- The key-gather block a descriptor named, as it passed its checks. -/
def keyGatherNow (d : Dev) (env : Env) (a : Nat) (p : Plot) : Option KeyGather :=
  match keyGatherAt d env a p none with | .ok k => k | .error _ => none

/-- The tiles that a batch names: its key-gather tile in every core, and its operand tile (R183, R236, R326). -/
def scoreTiles (p : Plot) (kg : Option KeyGather) (opnd : Option Armed) : List Nat :=
  (match kg with | some k => if k.tile then p.cores.map (atCore k.dst) else [] | none => []) ++
  (match opnd with | some a => if a.opndKind = 1 then [a.addr] else [] | none => [])

/-- The feed of a batch whose intake has not begun (R373, R374). -/
def batchFeed (j : Job) (o : ScoreOps) (kg : Option KeyGather) (ch : Chan) : Feed :=
  { Feed.fresh (.job j.id) j.chan o.plot 0 0 o.slice with
    stream := none, pos := o.src, stop := o.src + o.bytes, dst := o.dst, dstKind := if o.ring then 1 else if o.silent then 2 else 0
    slotBytes := o.slot, keyGather := kg, residual := ch.armedFor o.plot false, operand := ch.armedFor o.plot true
    gated := true }

/-- SCORE_BATCH at its dispatch: it takes what its channel has armed (R191, R236). -/
def openBatch (j : Job) (p : Plot) (d : Dev) : Dev :=
  let o := scoreOps j.desc
  let f := batchFeed j o (keyGatherNow d j.env o.kg p) (d.chan j.chan)
  let d := { d with feeds := d.feeds ++ [f] }
  (d.updChan j.chan fun c => (c.disarm o.plot false).disarm o.plot true).updJob j.id fun y => { y with plot := some o.plot }

/-- A batch's intake begins: it takes the lowest free stream number (R373), or waits on for one. -/
def beginBatch (j : Job) (d : Dev) : Dev :=
  let o := scoreOps j.desc
  match d.plot o.plot with
  | none => d
  | some p =>
    match p.freeStreamNo with
    | some n =>
      (d.setPlot o.plot (p.openStream n (.job j.id) o.slice)).updFeed (.job j.id) fun x =>
        { x with stream := some n, firstSeq := (Tbl.get {} n p.streams).next, gated := false }
    | none => d.updJob j.id fun y => { y with phase := .queued }

/-- SCORE_BATCH: opened at its dispatch; its intake begins once no earlier operation holds its tiles (R183, R373, R374). -/
def startScore (j : Job) (d : Dev) : Dev :=
  let o := scoreOps j.desc
  match d.plot o.plot with
  | none => d.finishJob j.id stStateConflict
  | some p =>
    let d := if (d.feed (.job j.id)).isNone then openBatch j p d else d
    match d.feed (.job j.id) with
    | none => d
    | some f =>
      runTiles j (scoreTiles p f.keyGather f.operand) (beginBatch j) d

/-! ### RESIDENT_SCORE -/

/-- The fields of a task block (R376). -/
structure TaskBlock where
  srcKind : Nat
  dstKind : Nat
  srcPort : Nat
  dstPort : Nat
  udp : Nat
  kg : Nat
  holdAddr : Nat
  holdCount : Nat
  slice : Nat
deriving DecidableEq, Repr

/-- The task block that 128 bytes spell. -/
def parseTask (b : Bytes) : TaskBlock :=
  { srcKind := field b 2 1, dstKind := field b 3 1, srcPort := field b 4 1, dstPort := field b 5 1, udp := field b 6 2
    kg := field b 8 8, holdAddr := field b 0x10 8, holdCount := field b 0x18 2, slice := field b 0x1A 2 }

/-- The rules of R376 on a task block. -/
def taskOk (b : Bytes) : Bool :=
  let t := parseTask b
  field b 0 2 == 1 && t.srcKind ≤ 1 && t.dstKind ≤ 1 && t.srcPort ≤ 15 && t.dstPort ≤ 15 && t.holdCount ≤ 64 &&
  t.holdAddr % 8 == 0 && zeroFrom b 0x20 0x80 && crcZeroed b 0x1C == field b 0x1C 4

/-- The tasks bound (R377). -/
def Dev.taskFeeds (d : Dev) : List Feed := d.feeds.filter fun f => match f.src with | .task _ => true | .job _ => false

/-- A task's source is bound already or not configured (R381). -/
def taskSourceBad (d : Dev) (c : Nat) (t : TaskBlock) : Bool :=
  if t.srcKind = 1 then (d.chan c).inLog2 == 0 || d.taskFeeds.any fun f => f.chan = c && f.port = 16
  else (d.port t.srcPort).mode != 2 || d.taskFeeds.any fun f => f.port = t.srcPort && f.udp = t.udp

/-- A task's destination is not configured, or its slots are too small (R231, R381). -/
def taskDestBad (d : Dev) (c : Nat) (p : Plot) (t : TaskBlock) : Bool :=
  if t.dstKind = 0 then (d.chan c).outLog2 == 0 || p.slotShort (d.chan c).outSlot.toNat else (d.port t.dstPort).mode != 2

/-- The tile words that a task holds. -/
def taskHolds (d : Dev) (env : Env) (t : TaskBlock) : List Nat := wordsOf (d.readOr env t.holdAddr (8 * t.holdCount))

/-- The checks of a task's held tiles (R176, R177, R381). -/
def holdChecks (d : Dev) (ws : List Nat) : List (Bool × Status) :=
  ws.flatMap fun w => tileForm w ++ [((d.core (bits w 0 8)).tileHeld w, stStateConflict)] ++ tileState d w

/-- RESIDENT_SCORE's checks on its task block (R376, R381). -/
def residentBlock (d : Dev) (c : Nat) (env : Env) (p : Plot) (b : Bytes) : Verdict :=
  let t := parseTask b
  let fields := checks [(!taskOk b, stTaskInvalid),
    (taskSourceBad d c t || taskDestBad d c p t || (p.leafToId && t.kg == 0), stStateConflict),
    (0 < t.holdCount && !d.addrOk .read false t.holdAddr (8 * t.holdCount), stAddressInvalid)]
  let holds (_ : Unit) : Verdict := match d.readG env t.holdAddr (8 * t.holdCount) with
    | .error e => if t.holdCount = 0 then Verdict.go else .fail e
    | .ok _ => checks (if t.holdCount = 0 then [] else holdChecks d (taskHolds d env t))
  let kg (_ : Unit) : Verdict := within (keyGatherAt d env t.kg p none) fun k => checks [(k.any (·.tile), stStateConflict)]
  ((fields.andThen holds).andThen kg).andThen (fun _ => streamWait p)

/-- RESIDENT_SCORE's checks (R376, R381). -/
def checkResident (d : Dev) (c : Nat) (x : Desc) (env : Env) : Verdict :=
  let a := x.op 0x10 8
  let pid := x.op 0x18 2
  let form := x.onlyOps [(0x10, 8), (0x18, 2), (0x1A, 2)] && a % 64 == 0 && x.op 0x1A 2 ≤ 255
  match d.plot pid with
  | none => checks [(!form, stDescriptorInvalid), (true, stStateConflict)]
  | some p =>
    (checks [(!form, stDescriptorInvalid),
      (!p.scores || !p.startsHere || p.elemMode || ((d.chan c).armedFor pid false).isSome || ((d.chan c).armedFor pid true).isSome ||
        (d.feed (.task (x.op 0x1A 2))).isSome, stStateConflict),
      (!d.addrOk .read false a 128, stAddressInvalid)]).andThen
    (fun _ => match d.readG env a 128 with
     | .error e => .fail e
     | .ok b => residentBlock d c env p b)

/-- A core's tiles held by a task, or no longer (R184). -/
def Core.hold (c : Core) (w : Nat) (by' : Option Nat) : Core :=
  { c with tiles := c.tiles.map fun t => if t.word = w then { t with heldBy := by' } else t }

/-- RESIDENT_SCORE binds its task and completes at once (R377, R391). -/
def startResident (j : Job) (d : Dev) : Dev :=
  let x := j.desc
  let t := x.op 0x1A 2
  let pid := x.op 0x18 2
  match d.plot pid with
  | none => d.finishJob j.id stStateConflict
  | some p =>
    match p.freeStreamNo with
    | none => d.finishJob j.id stStateConflict
    | some n =>
      let b := parseTask (d.readOr j.env (x.op 0x10 8) 128)
      let ws := if b.holdCount = 0 then [] else taskHolds d j.env b
      let f : Feed :=
        { Feed.fresh (.task t) j.chan pid n (Tbl.get {} n p.streams).next b.slice with
          dst := b.dstPort, dstKind := if b.dstKind = 0 then 1 else 3, port := if b.srcKind = 1 then 16 else b.srcPort
          udp := if b.srcKind = 1 then 0 else b.udp, keyGather := keyGatherNow d j.env b.kg p, holds := ws }
      let d := { d with feeds := d.feeds ++ [f] }.setPlot pid (p.openStream n (.task t) b.slice)
      let d := ws.foldl (fun d w => d.updCore (bits w 0 8) fun c => c.hold w (some t)) d
      (d.finishJob j.id 0).updJob j.id fun y => { y with detail0 := t }

/-! ### STOP_RESIDENT -/

/-- STOP_RESIDENT's checks (R379, R381): privileged channels stop any task, others their own. -/
def checkStop (d : Dev) (c : Nat) (x : Desc) : Verdict :=
  let f := d.feed (.task (x.op 0x10 2))
  checks [(!x.onlyOps [(0x10, 2)] || 255 < x.op 0x10 2, stDescriptorInvalid), (f.isNone, stStateConflict),
    (4 ≤ c && f.any (fun f => f.chan != c), stChannelClass), (f.any (·.stopping.isSome), stStateConflict)]

/-- A record port's datagrams for a UDP port discarded and counted in NO_TASK (R480). -/
def Port.dropFor (p : Port) (udp : Nat) : Port :=
  let (gone, kept) := p.dgrams.partition fun x => x.1 = udp
  { p with dgrams := kept, rpCnt := gone.foldl (fun w _ => laneBump w 0) p.rpCnt }

/-- STOP_RESIDENT stops its task's intake at a record boundary (R379): frames not taken stay in the ring, or are discarded
at the port. -/
def startStop (j : Job) (d : Dev) : Dev :=
  let s := Src.task (j.desc.op 0x10 2)
  match d.feed s with
  | none => d.finishJob j.id stStateConflict
  | some f =>
    let d := if f.port < 16 then d.updPort f.port fun p =>
        let p := p.dropFor f.udp
        if f.queue.isEmpty then p else { p with rpCnt := laneBump p.rpCnt 0 }
      else d
    d.updFeed s fun x => { x with stopping := some j.id, queue := [], pos := 0 }

/-! ### The ends of batches and tasks -/

/-- No core of the plot holds a context or a leaf-key block of a source: its bags are written (R374). -/
def bagsWritten (d : Dev) (f : Feed) : Bool :=
  match d.plot f.plot with
  | none => true
  | some p => p.cores.all fun n => !(d.core n).ctxs.any (fun x => x.src = f.src) && !(d.core n).keyBlocks.any fun b => b.src = f.src

/-- The status of a batch: a restart or fence that replayed its records first (R436), then those of R374 in order, a lost
route to its frames (R474) after an unreadable header. -/
def batchStatus (f : Feed) : Status :=
  if f.fencedRec then stCoreFenced else if f.eccHeader then stEcc else if f.linkLost then stLinkLost
  else if f.rowUnreadable then stRowUnreadable else if f.keyRange then stKeyRange
  else if f.nonzero ≠ 0 then stBatchConditions else 0

/-- A source's feed removed. -/
def Dev.dropFeed (d : Dev) (s : Src) : Dev := { d with feeds := d.feeds.filter fun f => f.src ≠ s }

/-- A SCORE_BATCH whose records all have accepted results and whose bags are written ends (R374, R391). -/
def settleBatch (d : Dev) (j : Job) : Dev :=
  match d.feed (.job j.id) with
  | none => d
  | some f =>
    if f.ended && f.accepted = f.taken && (f.keyGather.isNone || bagsWritten d f) then
      ((d.dropFeed f.src).finishJob j.id (batchStatus f)).updJob j.id fun y => { y with detail0 := f.accepted, detail1 := f.nonzero }
    else d

/-- A STOP_RESIDENT whose task's records all have accepted results, and whose keys are taken (R164), releases the task's tiles and stream number and ends
(R379, R391). -/
def settleStop (d : Dev) (j : Job) : Dev :=
  match d.feed (.task (j.desc.op 0x10 2)) with
  | none => d
  | some f =>
    if f.stopping = some j.id && f.accepted = f.taken && (f.keyGather.isNone || bagsWritten d f) then
      let d := f.holds.foldl (fun d w => d.updCore (bits w 0 8) fun c => c.hold w none) d
      let d := match f.stream with | some n => d.updPlot f.plot fun p => p.freeStream n | none => d
      let d := { d with taskLast := Tbl.set (0, 0) (j.desc.op 0x10 2) (f.taken, f.accepted) d.taskLast }
      ((d.dropFeed f.src).finishJob j.id 0).updJob j.id fun y => { y with detail0 := f.taken, detail1 := f.accepted % 2 ^ 32 }
    else d

/-! ### Rings and doorbells -/

/-- The CHANNEL field of a doorbell value (R350). -/
def doorbellChan (v : BitVec 32) : Nat := bits v.toNat 24 8

/-- A doorbell's new tail is none that a ring of `2^log2` entries can take from `head` and `tail` (R350). -/
def tailBad (log2 head tail new : Nat) : Bool :=
  let n := 2 ^ log2
  n ≤ new || (new + n - head) % n < (tail + n - head) % n

/-- A submission-ring doorbell (R350). -/
def sqDoorbell (c : Nat) (v : BitVec 32) (d : Dev) : Dev :=
  d.updChan c fun ch =>
    let t := bits v.toNat 0 16
    if doorbellChan v ≠ c || ch.state = .disabled || tailBad ch.sqLog2.toNat ch.head ch.tail t then ch.event 2
    else { ch with tail := t }

/-- SQ_DOORBELL (R350). -/
def execSqDoorbell (c : Fin 64) (v : BitVec 32) (s : State) : Host.Outcome State Fault Refusal := onDev (sqDoorbell c.val v) s

/-- A completion-ring consumed count: accepted up to the records written, else discarded and counted (R389). -/
def cqDoorbell (c : Nat) (v : BitVec 32) (d : Dev) : Dev :=
  d.updChan c fun ch =>
    let step := (bits v.toNat 0 16 + 65536 - ch.cqConsumed.toNat % 65536) % 65536
    if step ≤ ch.cqUsed then { ch with cqConsumed := ch.cqConsumed + BitVec.ofNat 64 step }
    else { ch with hostCnt := laneBump ch.hostCnt 2 }

/-- CQ_DOORBELL (R389). -/
def execCqDoorbell (c : Fin 64) (v : BitVec 32) (s : State) : Host.Outcome State Fault Refusal := onDev (cqDoorbell c.val v) s

/-- A result-ring consumed count, taken as the completion ring's is (R375; log 14). -/
def resultDoorbell (c : Nat) (v : BitVec 32) (d : Dev) : Dev :=
  d.updChan c fun ch =>
    let step := (bits v.toNat 0 16 + 65536 - ch.outConsumed.toNat % 65536) % 65536
    if step ≤ (ch.outTail - ch.outConsumed).toNat then { ch with outConsumed := ch.outConsumed + BitVec.ofNat 64 step }
    else ch.event 2

/-- RESULT_RING_DOORBELL (R375). -/
def execResultRingDoorbell (c : Fin 64) (v : BitVec 32) (s : State) : Host.Outcome State Fault Refusal :=
  onDev (resultDoorbell c.val v) s

/-- The task that a channel's record ring feeds (R375). -/
def Dev.ringFeed (d : Dev) (c : Nat) : Option Feed := d.taskFeeds.find? fun f => f.chan = c && f.port = 16

/-- The host address of record-ring entry `i` (R375). -/
def Chan.inAddr (c : Chan) (i : Nat) : Nat := c.inBase.toNat + i % 2 ^ c.inLog2.toNat * 2 ^ c.inEntryLog2.toNat

/-- The frame bytes of a record-ring entry (R375); FILL past the entry's end stops there (log 14). -/
def entryFrames (c : Chan) (b : Bytes) : Bytes := slice b 8 (min (field b 0 4) (2 ^ c.inEntryLog2.toNat - 8))

/-- A record-ring read that failed leaves the entry untaken and is reported (R406). -/
def ringReadFailed (c a : Nat) (d : Dev) : Dev :=
  let r := errRec stHostAccessFault 10 0 6 c
  (d.report { r with chan := c, addrHost := true, address := a }).updChan c fun ch =>
    { ch with inRetry := true, hostCnt := laneBump ch.hostCnt 0 }

/-- The next entry of a channel's record ring read for the task bound to it (R375, R406): its frames enter the task's
stream; an entry with no whole header is passed over and its bytes counted (R77). -/
def ringRead (c : Nat) (entry : Option Bytes) (d : Dev) : Dev :=
  let ch := d.chan c
  match d.ringFeed c with
  | none => d
  | some f =>
    let n := 2 ^ ch.inLog2.toNat
    let have' := (ch.inTail.toNat + n - ch.inHead.toNat) % n
    if f.stopping.isSome || have' ≤ f.queue.length || d.host.held || d.fatal then d
    else match entry with
      | none => ringReadFailed c (ch.inAddr (ch.inHead.toNat + f.queue.length)) d
      | some b =>
        let fr := entryFrames ch b
        let d := (d.hostRead (ch.inAddr (ch.inHead.toNat + f.queue.length)) b.length).updChan c fun ch => { ch with inRetry := false }
        if 16 ≤ fr.length then d.updFeed f.src fun x => { x with queue := x.queue ++ [(fr, 1)] }
        else if f.queue.isEmpty then
          d.updChan c fun ch =>
            { ch with inHead := BitVec.ofNat 16 ((ch.inHead.toNat + 1) % n), inCnt := laneAdd32 ch.inCnt 1 fr.length }
        else d

/-- RECORD_RING_READ (R375): a read that failed waits for the next doorbell (R406). -/
def execRecordRingRead (c : Fin 64) (entry : Option Bytes) (s : State) : Host.Outcome State Fault Refusal :=
  onDev (fun d => if (d.chan c.val).inRetry then d else ringRead c.val entry d) s

/-- A record-ring doorbell, laid out and checked as a submission ring's (R350, R375); a failed read is tried again (R406). -/
def recordDoorbell (c : Nat) (v : BitVec 32) (entry : Option Bytes) (d : Dev) : Dev :=
  let ch := d.chan c
  let t := bits v.toNat 0 16
  if doorbellChan v ≠ c || ch.state = .disabled || ch.inLog2 = 0 || tailBad ch.inLog2.toNat ch.inHead.toNat ch.inTail.toNat t then
    d.updChan c fun ch => ch.event 2
  else
    let d := d.updChan c fun ch => { ch with inTail := BitVec.ofNat 16 t }
    if ch.inRetry then ringRead c entry d else d

/-- RECORD_RING_DOORBELL (R375). -/
def execRecordRingDoorbell (c : Fin 64) (v : BitVec 32) (entry : Option Bytes) (s : State) :
    Host.Outcome State Fault Refusal := onDev (recordDoorbell c.val v entry) s

end Sys2Proof.Machine
end

