-- ==== Sys2Proof/Machine/Egress.lean ====
section
/-! DEFINITION. Egress: the check of a result, its destination, and its acceptance (R230 to R233, R401, R404, R477,
R482). -/
namespace Sys2Proof.Machine

/-- The context whose result egress takes next, of a tail's contexts oldest first: the first with a result and a
destination that can take it, with no older unaccepted record of its stream before it (R14, R232, R233). `behind` are the
streams held back so far. -/
def pickResult (room : Ctx → Bool) : List (Src × Nat) → List Ctx → Option Ctx
  | _, [] => none
  | behind, x :: xs =>
    if !x.hasBins || x.acked then pickResult room behind xs
    else if behind.contains (x.src, x.stream) then pickResult room behind xs
    else if x.packed then pickResult room behind xs
    else if x.result.isSome && room x then some x
    else pickResult room ((x.src, x.stream) :: behind) xs

/-- A channel's result ring can take a result (R233, R375, R404, R409). -/
def ringRoom (d : Dev) (c : Nat) : Bool :=
  let ch := d.chan c
  !ch.blocked && !d.host.held && (ch.outTail - ch.outConsumed).toNat < 2 ^ ch.outLog2.toNat

/-- The destination of a record's result can take it (R233): a record port takes none while it is paused (R481). -/
def resultRoom (d : Dev) (x : Ctx) : Bool :=
  match d.feed x.src with
  | none => true
  | some f =>
    match f.dstKind with
    | 1 => ringRoom d f.chan
    | 3 => (d.port f.dst).state == .up && !(d.port f.dst).paused
    | _ => true

/-- The sequence number of a record ID (R78). -/
def seqOf (rid : Nat) : Nat := rid % 2 ^ 32

/-- The replay-buffer entry of a record (R20, R30). -/
def Plot.replayOf (p : Plot) (x : Ctx) : Option Rec :=
  p.replay.find? fun r => r.src = x.src && r.stream = x.stream && r.seq = seqOf x.recordId

/-- The check of R230 on the bytes that egress would write: the Result Check over them, and the ECV against the replay
buffer's where this device holds the record. -/
def resultOk (p : Plot) (x : Ctx) (b : Bytes) : Bool :=
  crcZeroed b 0x1C == field b 0x1C 4 && (p.replayOf x).all fun r => r.ecv == field b 8 4

/-- A result that fails its check: counted by the tail, which is charged with the fault (R230, R238, R416). -/
def resultFault (d : Dev) (n rid : Nat) : Dev :=
  (d.updCore n fun c =>
    let r := { c.regs with finStatus := setBit c.regs.finStatus 3, finCnt := laneBump c.regs.finCnt 3 }
    { c with regs := r }).detect n stResultCheckFault 7 [] (some rid)

/-- The tail counts an accepted result and marks its context (R22, R51, R238). -/
def Core.accepted (c : Core) (row : Nat) : Core :=
  let r := { c.regs with finResults := c.regs.finResults + 1 }
  ({ c.updCtx row fun x => { x with acked := true } with regs := r }).work 1

/-- The source of an accepted result counts it (R374, R379, R391). -/
def countAccepted (d : Dev) (src : Src) (st : Status) (nf : NFlags) : Dev :=
  (d.updFeed src fun f => { f with accepted := f.accepted + 1, nonzero := if st = 0 then f.nonzero else f.nonzero + 1 }).updJob
    src.jobId fun j => { j with nflags := j.nflags ||| nf }

/-- An Accept unit toward the head of a plot that spans devices (R469, R477), by way of the device before this one
(log 15). -/
def sendAccept (d : Dev) (pid : Nat) (p : Plot) (stream seq : Nat) : Dev :=
  sendAcceptUnit d p.lay.prevDevice pid stream seq

/-- A replay buffer without a record's entry. -/
def Plot.release (p : Plot) (src : Src) (stream seq : Nat) : Plot :=
  { p with replay := p.replay.filter fun r => !(r.src = src && r.stream = stream && r.seq = seq) }

/-- A record's result is accepted (R232, R477): its source counts it, and its replay-buffer entry is released, here or by an
Accept unit. -/
def acceptRecord (d : Dev) (pid : Nat) (p : Plot) (src : Src) (stream seq : Nat) (st : Status) (nf : NFlags) : Dev :=
  let d := countAccepted d src st nf
  if p.startsHere then d.updPlot pid fun p => p.release src stream seq else sendAccept d pid p stream seq

/-- A result of a tail's context accepted (R232). -/
def acceptResult (d : Dev) (n pid : Nat) (p : Plot) (x : Ctx) : Dev :=
  let st := (x.result.map (·.status)).getD 0
  let nf := (x.result.map (·.nflags)).getD 0
  acceptRecord (d.updCore n fun c => c.accepted x.row) pid p x.src x.stream (seqOf x.recordId) st nf

/-- A result slot's bytes: the record, and zeros to the slot's end (R231). -/
def slotBytes (b : Bytes) (n : Nat) : Bytes := b ++ List.replicate (n - b.length) 0#8

/-- A result written to a channel's result ring, then the producer word (R375, R399, R404): a slot that cannot be written
blocks the channel and withholds the result; a word that cannot be written blocks the channel alone. -/
def ringResult (d : Dev) (env : Env) (c job : Nat) (b : Bytes) : Dev × Bool :=
  let ch := d.chan c
  let a := ch.outBase.toNat + ch.outTail.toNat % 2 ^ ch.outLog2.toNat * ch.outSlot.toNat
  if hostDenied d env a ch.outSlot.toNat then (blockChannel d c 2 a 0, false)
  else
    let d := (d.toHost (.write a (slotBytes b ch.outSlot.toNat))).updChan c fun ch => { ch with outTail := ch.outTail + 1 }
    let d := noteLast d job (a + ch.outSlot.toNat - 1)
    let w := ch.outProducer.toNat
    if w = 0 then (d, true)
    else if hostDenied d env w 8 then (blockChannel d c 3 w 0, true)
    else (noteLast (d.toHost (.write w (toLe 8 (ch.outTail + 1).toNat))) job (w + 7), true)

/-- A batch's result written to its memory slot (R231); a lost route ends the batch's status (R474). -/
def memResult (d : Dev) (f : Feed) (q : Nat) (b : Bytes) : Dev :=
  let a := f.dst + q * f.slotBytes
  if addrDevice a ≠ d.deviceId && (d.routePort (addrDevice a)).isNone then d.updFeed f.src fun x => { x with linkLost := true }
  else d.writeG f.src.jobId a (slotBytes b f.slotBytes)

/-- A result that waits outside its core is accepted (R232): one whose datagram has entered the transmit buffer (R482), or whose
write another device has acknowledged. -/
def acceptPacked (d : Dev) (t : TxResult) : Dev :=
  let d := if t.core < 256 then d.updCore t.core fun c => c.accepted t.row else d
  match d.plot t.plot with
  | some p => acceptRecord d t.plot p t.src t.stream t.seq t.status t.nflags
  | none => countAccepted d t.src t.status t.nflags

/-- A tail's result as it waits outside its core. -/
def waiting (pid n : Nat) (x : Ctx) (b : Bytes) : TxResult :=
  ⟨pid, n, x.row, x.src, x.stream, seqOf x.recordId, (x.result.map (·.status)).getD 0, (x.result.map (·.nflags)).getD 0, b⟩

/-- A result written to another device's HBM waits for the answers to the writes that `d0` had not yet sent (R232). -/
def noteRemote (d0 d : Dev) (t : TxResult) : Dev :=
  { d with remoteResults := d.remoteResults ++ [((d.pendings.drop d0.pendings.length).map (·.tag), t)] }

/-- A batch's result goes to another device over a route that is not down. -/
def goesRemote (d : Dev) (f : Feed) (q : Nat) : Bool :=
  let a := addrDevice (f.dst + q * f.slotBytes)
  a != d.deviceId && (d.routePort a).isSome

/-- A write is answered, or its link is lost: the results that waited for nothing else are accepted (R232). -/
def resultAnswered (d : Dev) (tag : Nat) : Dev :=
  let rs := d.remoteResults.map fun r => (r.1.filter (· ≠ tag), r.2)
  ((rs.filter fun r => r.1.isEmpty).map (·.2)).foldl acceptPacked { d with remoteResults := rs.filter fun r => !r.1.isEmpty }

/-- A checked result on its way to its destination; at a record port it waits for its datagram, and one for another device's HBM
for the acknowledgement of its write (R231, R232, R482). -/
def deliverResult (d : Dev) (env : Env) (n pid : Nat) (p : Plot) (x : Ctx) (b : Bytes) : Dev :=
  match d.feed x.src with
  | none => acceptResult d n pid p x
  | some f =>
    match f.dstKind with
    | 0 =>
      if goesRemote d f x.q then
        (noteRemote d (memResult d f x.q b) (waiting pid n x b)).updCore n fun c => c.updCtx x.row fun x => { x with packed := true }
      else acceptResult (memResult d f x.q b) n pid p x
    | 1 =>
      let (d, ok) := ringResult d env f.chan f.src.jobId b
      if ok then acceptResult d n pid p x else d
    | 3 =>
      let t := waiting pid n x b
      (d.updPort f.dst fun po => { po with txResults := po.txResults ++ [t] }).updCore n fun c =>
        c.updCtx x.row fun x => { x with packed := true }
    | _ => acceptResult d n pid p x

/-- Egress takes the next result of a tail (R230 to R233). -/
def egressWrite (n : Nat) (u : Upset) (env : Env) (d : Dev) : Dev :=
  match d.plotOf n with
  | none => d
  | some (pid, p) =>
    if d.stopped n || !p.isTail n then d
    else match pickResult (resultRoom d) [] (d.core n).ctxs with
      | none => d
      | some x =>
        match x.result with
        | none => d
        | some r =>
          guarded d n u (some x.recordId) fun d =>
            let b := u.flipBytes r.bytes
            if resultOk p x b then deliverResult d env n pid p x b else resultFault d n x.recordId

/-- EGRESS_WRITE (R232). -/
def execEgressWrite (core : Fin 256) (u : Upset) (env : Env) (s : State) : Host.Outcome State Fault Refusal :=
  onDev (egressWrite core.val u env) s

end Sys2Proof.Machine
end

