-- ==== Sys2Proof/Machine/Graft.lean ====
section
/-! DEFINITION. Grafting: the GRAFT descriptor, the graft marker's way through a plot, completion, and drain-and-swap
(R262 to R278, R282). -/
namespace Sys2Proof.Machine

/-! ### The descriptor's checks -/

/-- GRAFT's operand rules (R265). -/
def graftForm (x : Desc) : Bool :=
  x.onlyOps [(0x10, 8), (0x18, 4), (0x1C, 2), (0x1E, 2), (0x20, 4), (0x24, 4)] && x.op 0x10 8 % 64 == 0 &&
  x.op 0x1E 2 < 4 && x.op 0x20 4 != 0

/-- MODE of a grove's finisher block. -/
def Grove.mode (g : Grove) : Nat := (parseFin g.info.finish).mode

/-- The new grove's MODE differs from the active one's. -/
def Plot.modeChanges (p : Plot) (g : Grove) : Bool := p.activeGrove.any fun a => a.mode != g.mode

/-- The slot of a scoring descriptor or task is too small for a grove (R231). -/
def feedShort (d : Dev) (g : Grove) (f : Feed) : Bool :=
  (f.dstKind == 0 && f.slotBytes < resultBytes g) || (f.dstKind == 1 && (d.chan f.chan).outSlot.toNat < resultBytes g)

/-- The conditions of R231 and R325 on a new grove, while scoring is in progress on the plot. -/
def graftScoring (d : Dev) (pid : Nat) (p : Plot) (g : Grove) : Bool :=
  (d.feeds.filter fun f => f.plot = pid).any fun f =>
    feedShort d g f || p.modeChanges g || (g.info.leafToId && f.keyGather.isNone)

/-- An ELEMWISE operand is armed for the plot on some channel (R236). -/
def operandArmed (d : Dev) (pid : Nat) : Bool := d.chans.any fun (_, c) => (c.armedFor pid true).isSome

/-- The rows of R267 that read the new grove. -/
def graftGrove (d : Dev) (pid : Nat) (p : Plot) (g : Grove) : List (Bool × Status) :=
  [(graftScoring d pid p g, stStateConflict), (operandArmed d pid && p.modeChanges g, stStateConflict)]

/-- A core of the plot is fenced, or the plot is being re-placed (R267). -/
def Plot.broken (d : Dev) (p : Plot) : Bool := p.state == .reforming || p.cores.any d.badCore

/-- A marker that a core of the plot holds names another version (R276). -/
def heldMismatch (d : Dev) (p : Plot) (v : Nat) : Bool := p.heldCore.any fun n => (d.core n).markVersion != v

/-- The new sieve table needs drain-and-swap (R84, R266): only where the plot's heads are. -/
def needsDrain (d : Dev) (p : Plot) (g : Grove) : Bool := !p.heads.all fun h => sieveFits (d.core h) g.info.sieve

/-- GRAFT to the grove in the shadow pair: the checks of R267 in order. -/
def checkGraftShadow (d : Dev) (x : Desc) (pid : Nat) (p : Plot) : Verdict :=
  let v := x.op 0x20 4
  let e := x.op 0x24 4
  match p.shadowGrove with
  | none => .reject stStateConflict
  | some g =>
    checks ([(x.op 0x18 4 != 0, stStateConflict),
      (v != g.info.version || v == versionOf p.activeGrove || (e != 0 && e != versionOf p.activeGrove), stVersionConflict)] ++
      graftGrove d pid p g ++ [(heldMismatch d p v, stGraftMismatch)])

/-- GRAFT with an image: the checks of R267 in order, those on the image's fields after the copy's own. -/
def checkGraftImage (mc : Mc) (d : Dev) (x : Desc) (env : Env) (pid : Nat) (p : Plot) : Verdict :=
  let a := x.op 0x10 8
  let n := x.op 0x18 4
  let v := x.op 0x20 4
  let e := x.op 0x24 4
  (checks [(p.shadowGrove.isSome, stStateConflict),
    (v == versionOf p.activeGrove || (e != 0 && e != versionOf p.activeGrove), stVersionConflict),
    (2 ^ 30 < copiesIn d p.cluster + n, stGroveCapacity), (!d.addrOk .read false a n, stAddressInvalid)]).andThen
  (fun _ => match d.readG env a n with
   | .error e => .fail e
   | .ok img =>
     let g := parseGrove img
     (Verdict.ofFail (groveCheck mc d p.lay img n)).andThen
     (fun _ => checks ([(v != g.info.version, stVersionConflict)] ++ graftGrove d pid p g ++
       [(p.activeGrove.isSome && needsDrain d p g && x.op 0x1E 2 == 0, stGraftNotHitless),
        (heldMismatch d p v, stGraftMismatch)])))

/-- GRAFT's checks (R265 to R267, R276). -/
def checkGraft (mc : Mc) (d : Dev) (x : Desc) (env : Env) : Verdict :=
  let pid := x.op 0x1C 2
  match d.plot pid with
  | none => checks [(!graftForm x, stDescriptorInvalid), (true, stStateConflict)]
  | some p =>
    (checks [(!graftForm x, stDescriptorInvalid), (p.broken d, stStateConflict)]).andThen
    (fun _ => if x.op 0x10 8 = 0 then checkGraftShadow d x pid p else checkGraftImage mc d x env pid p)

/-! ### The descriptor's work -/

/-- A graft whose swap is made ends: the registers of R283 and the descriptor. -/
def endGraft (d : Dev) (pid job : Nat) (st : Status) (moved : Bool) : Dev :=
  (d.updPlot pid fun p =>
    { p with graft := none, entryMarker := none, grafts := p.grafts + 1, lastDrained := st == stGraftDrained
             drained := if st = stGraftDrained then p.drained + 1 else p.drained, switchMoved := moved }).finishJob job st

/-- A graft that a marker makes begins (R266, R276, R277, R282): drain-and-swap only where the plot's records enter. -/
def openGraft (d : Dev) (j : Job) (pid : Nat) (drain keep : Bool) : Dev :=
  (d.updPlot pid fun p =>
    let drain := drain && p.startsHere
    let st := if p.state = .held then GState.held else if drain then .draining else .grafting
    { p with state := st, graft := some ⟨j.id, drain, keep, j.desc.op 0x20 4, versionOf p.activeGrove, false, false, [], false⟩ }).updJob
      j.id fun y => { y with plot := some pid }

/-- GRAFT to the grove in the shadow pair (R266). -/
def startGraftShadow (j : Job) (d : Dev) (pid : Nat) (p : Plot) : Dev :=
  if p.activeGrove.isNone then endGraft (activate d pid) pid j.id 0 false
  else openGraft d j pid (bit (j.desc.op 0x1E 2) 1) true

/-- GRAFT with an image (R266, R277 steps 1 and 2): a drain-and-swap writes the sieve tables later. -/
def startGraftImage (j : Job) (d : Dev) (pid : Nat) (p : Plot) : Dev :=
  let g := parseGrove (d.readOr j.env (j.desc.op 0x10 8) (j.desc.op 0x18 4))
  if p.activeGrove.isNone then endGraft (activate (stageGrove d pid g true) pid) pid j.id 0 false
  else
    let drain := p.startsHere && (needsDrain d p g || bit (j.desc.op 0x1E 2) 1)
    openGraft (stageGrove d pid g !drain) j pid drain false

/-- GRAFT's work at its dispatch (R266). -/
def startGraft (j : Job) (d : Dev) : Dev :=
  let pid := j.desc.op 0x1C 2
  match d.plot pid with
  | none => d.finishJob j.id stStateConflict
  | some p => if j.desc.op 0x10 8 = 0 then startGraftShadow j d pid p else startGraftImage j d pid p

/-! ### The marker -/

/-- The bytes of a graft marker (R269). -/
def Marker.bytes (m : Marker) : Bytes :=
  let b := toLe 2 m.plotId ++ toLe 1 m.kind ++ toLe 1 m.entries.length ++ toLe 4 m.oldVersion ++ toLe 4 m.newVersion ++
    toLe 4 m.count ++ (m.entries.map fun e => toLe 8 (e.2 + e.1 * 2 ^ 32)).flatten
  b ++ toLe 4 (crc32c b) ++ toLe 4 0

/-- The marker that bytes spell (R269); its entries as (stream, FIRST_SEQ). -/
def parseMarker (b : Bytes) : Marker :=
  { plotId := field b 0 2, kind := field b 2 1, oldVersion := field b 4 4, newVersion := field b 8 4, count := field b 12 4
    entries := tab (field b 3 1) fun i => (bits (field b (16 + 8 * i) 8) 32 6, bits (field b (16 + 8 * i) 8) 0 32) }

/-- MARK_CRC is right (R269). -/
def markerOk (b : Bytes) : Bool :=
  let n := 16 + 8 * field b 3 1
  field b n 4 == crc32c (b.take n)

/-- The switch points of a marker noted in FEC_PLOT_MARKMASK and FEC_MARK_SEQ (R283). -/
def Plot.noteMarks (p : Plot) (es : List (Nat × Nat)) : Plot :=
  { p with markMask := BitVec.ofNat 64 (es.map fun e => 2 ^ e.1).sum, markSeq := es.foldl (fun t e => Tbl.set 0 e.1 e.2 t) p.markSeq }

/-- The streams open at a plot's entry with the sequence numbers they assign next (R268). -/
def Plot.openStreams (p : Plot) : List (Nat × Nat) :=
  (List.range 64).filterMap fun n => let s := Tbl.get {} n p.streams; if s.src.isSome then some (n, s.next) else none

/-- The marker that a plot's graft places at its entry now (R268, R269). -/
def Plot.marker (pid : Nat) (p : Plot) (g : GraftState) : Marker :=
  { plotId := pid, kind := b2n g.drain, oldVersion := g.oldVersion, newVersion := g.newVersion
    count := (p.grafts.toNat + 1) % 2 ^ 32, entries := p.openStreams }

/-- A marker written into the input of every head (R268). -/
def toHeads (d : Dev) (p : Plot) (m : Marker) : Dev :=
  p.heads.foldl (fun d h => d.updCore h fun c => { c with headQueue := c.headQueue ++ [.marker m] }) d

/-- The plot-entry arbiter places the marker (R268): one of KIND 1 is held at the entry (R277 step 3), and none is placed
while a restart keeps intake stopped (R281). -/
def placeMarker (pid : Nat) (d : Dev) : Dev :=
  match d.plot pid with
  | none => d
  | some p =>
    match p.graft with
    | none => d
    | some g =>
      if g.placed || !p.startsHere || p.restart != .none || p.held then d
      else
        let m := p.marker pid g
        let d := d.setPlot pid
          { p.noteMarks m.entries with graft := some { g with placed := true }, entryMarker := if g.drain then some m else none
                                       lastMark := some m }
        if g.drain then d else toHeads d p m

/-- GRAFT_MARKER_PLACE (R268). -/
def execGraftMarkerPlace (plot : Fin 256) (s : State) : Host.Outcome State Fault Refusal := onDev (placeMarker plot.val) s

/-- A head's tables change places as a hitless marker reaches it (R82, R270). -/
def Core.switchSieve (c : Core) : Core := { c with sieveActive := c.sieveShadow, sieveShadow := c.sieveActive }

/-- The marker at the front of a head's input, once the head has binned every record before it (R270). -/
def markerAtHead (n : Nat) (d : Dev) : Dev :=
  if d.stopped n then d
  else d.updCore n fun c =>
    match c.headQueue, c.headWork with
    | .marker m :: rest, [] =>
      let c := { c with headQueue := rest, headOut := c.headOut ++ [.marker m.bytes false n] }
      if m.kind = 0 then c.switchSieve else c
    | _, _ => c

/-- MARKER_AT_HEAD (R270). -/
def execMarkerAtHead (core : Fin 256) (s : State) : Host.Outcome State Fault Refusal := onDev (markerAtHead core.val) s

/-- The marker at the front of a head's output. -/
def Core.markerOut (c : Core) : Option Bytes := match c.headOut with | .marker b _ _ :: _ => some b | _ => none

/-- The first core takes the marker from every head and forwards one (R271). -/
def markerAtFirst (n : Nat) (d : Dev) : Dev :=
  match d.plotOf n with
  | none => d
  | some (_, p) =>
    if !p.isFirst n || d.stopped n || p.heads.any d.stopped || !p.heads.all (fun h => (d.core h).markerOut.isSome) then d
    else
      match p.heads.head?.bind fun h => (d.core h).markerOut with
      | none => d
      | some b =>
        let d := p.heads.foldl (fun d h => d.updCore h fun c => { c with headOut := c.headOut.drop 1 }) d
        d.updCore n fun c => { c with binLane := c.binLane ++ [.marker b false (p.heads.headD n)] }

/-- MARKER_AT_FIRST_CORE (R271). -/
def execMarkerAtFirstCore (core : Fin 256) (s : State) : Host.Outcome State Fault Refusal := onDev (markerAtFirst core.val) s

/-! ### A core and the marker -/

/-- Every record before the marker has been admitted (R272 step 1). -/
def Core.atMarker (c : Core) : Bool := c.ctxs.all fun x => !x.hasBins || x.admitted

/-- A marker of KIND 1 switches no core of the device that placed it (R277 step 7), and one placed again after a restart
switches no core that it has passed and that has the new pair active (R281). -/
def passesBy (p : Plot) (c : Core) (m : Marker) : Bool :=
  (p.startsHere && m.kind == 1) || (c.markVersion == m.newVersion && c.activePair.any fun x => x.info.version == m.newVersion)

/-- A core can let the marker pass (R272, R276): its shadow pair is ready and the local GRAFT, which this core has not yet
carried out, names the marker's version. -/
def canPass (d : Dev) (p : Plot) (n : Nat) (m : Marker) : Bool :=
  passesBy p (d.core n) m || (p.graft.any (fun g => g.newVersion = m.newVersion && !g.switched.contains n) && (d.core n).shadowPair.isSome)

/-- The local GRAFT names another version than a marker from another device (R276). -/
def graftDiffers (p : Plot) (n : Nat) (m : Marker) : Option GraftState :=
  match p.graft with
  | some g => if !p.startsHere && g.newVersion ≠ m.newVersion && !g.switched.contains n then some g else none
  | none => none

/-- A class 1 status that a dispatched descriptor ends with: counted as a rejection of its channel (R353, R385). -/
def rejectLate (d : Dev) (job : Nat) (st : Status) : Dev :=
  match d.job job with
  | none => d
  | some j =>
    (d.finishJob job st).updChan j.chan fun ch =>
      let ch := ch.event 0
      if ch.haltOnReject && j.launch.isNone && ch.state == .running then { ch with state := .halted } else ch

/-- The core holds the marker (R272, R276, R282): a GRAFT that names another version is rejected. -/
def holdMarker (d : Dev) (pid : Nat) (p : Plot) (n : Nat) (m : Marker) : Dev :=
  let diff := graftDiffers p n m
  let d := d.updCore n fun c => { c with markVersion := m.newVersion, markMismatch := diff.isSome }
  let d := d.updPlot pid fun p =>
    { p with heldCore := some n, graft := if diff.isSome then none else p.graft
             state := if p.state = .grafting then .held else p.state }
  match diff with
  | some g => rejectLate d g.job stGraftMismatch
  | none => d

/-- The core's own part of a marker's passing (R272 step 2, R284). -/
def Core.passMarker (c : Core) (m : Marker) (switch : Bool) : Core :=
  let r := { c.regs with graftSwitches := c.regs.graftSwitches + 1 }
  { c with regs := r, binLane := c.binLane.drop 1, markVersion := m.newVersion, markMismatch := false
           active := if switch then 1 - c.active else c.active }

/-- A marker placed again with other switch points than those noted of it (R280, R281). -/
def Plot.marksMoved (p : Plot) (c : Core) (m : Marker) : Bool :=
  !p.startsHere && passesBy p c m && ((p.noteMarks m.entries).markMask != p.markMask || (p.noteMarks m.entries).markSeq != p.markSeq)

/-- A graft that names the marker's version, with the core among those that the marker has passed. -/
def GraftState.pass (g : GraftState) (n : Nat) (m : Marker) (moved : Bool) : GraftState :=
  if g.newVersion = m.newVersion then { g with placed := true, switched := g.switched ++ [n], moved := g.moved || moved } else g

/-- The plot's part: the core is among those that the marker has passed, a hold ends (R282), and on a later device of the
chain the marker's switch points are noted (R280, R283). -/
def Plot.passMarker (p : Plot) (n : Nat) (m : Marker) (moved : Bool) : Plot :=
  let p := if p.startsHere then p else p.noteMarks m.entries
  { p with graft := p.graft.map fun g => g.pass n m moved
           switchMoved := p.switchMoved || moved
           heldCore := if p.heldCore = some n then none else p.heldCore
           state := if p.heldCore = some n && p.state == .held then .grafting else p.state }

/-- The marker passes a core (R272): the shadow pair takes new admissions, and the marker goes on; the tail reports to the
FEC. -/
def switchCore (d : Dev) (pid : Nat) (p : Plot) (n : Nat) (m : Marker) (b : Bytes) : Dev :=
  let moved := p.marksMoved (d.core n) m
  let d := d.updCore n fun c => c.passMarker m !(passesBy p c m)
  let d := d.updPlot pid fun p => p.passMarker n m moved
  forwardBins d pid p n (.marker b false n) b 2

/-- The marker reaches a core, which passes it on when the next lane has room (R15, R269, R272, R276, R418, R419). -/
def coreSwitch (n : Nat) (u : Upset) (d : Dev) : Dev :=
  match d.plotOf n, (d.core n).binLane with
  | some (pid, p), .marker b0 remote sender :: _ =>
    if d.stopped n || p.heldCore = some n || !(d.core n).atMarker then d
    else if u.chainBuffer then askRestart d pid stEcc 4 3 (n / 64) (toLe 1 5)
    else guarded d n u none fun d =>
      let b := u.flipBytes b0
      let m := parseMarker b
      if !markerOk b then sumCheckFailed d n pid sender remote none
      else if canPass d p n m then (if d.nextRoom p n true b.length then (switchCore d pid p n m b).refill sender else d)
      else holdMarker d pid p n m
  | _, _ => d

/-- CORE_SWITCH (R272). -/
def execCoreSwitch (core : Fin 256) (u : Upset) (s : State) : Host.Outcome State Fault Refusal :=
  onDev (coreSwitch core.val u) s

/-- A held marker moves on once the core's shadow pair is ready under an armed GRAFT (R272, R276, R282). -/
def releaseMarker (n : Nat) (d : Dev) : Dev :=
  match d.plotOf n, (d.core n).binLane with
  | some (pid, p), .marker b _ sender :: _ =>
    if d.stopped n || p.heldCore ≠ some n || !canPass d p n (parseMarker b) || !d.nextRoom p n true b.length then d
    else (switchCore d pid p n (parseMarker b) b).refill sender
  | _, _ => d

/-- HELD_MARKER_RELEASE (R282). -/
def execHeldMarkerRelease (core : Fin 256) (s : State) : Host.Outcome State Fault Refusal := onDev (releaseMarker core.val) s

/-! ### The ends of a graft -/

/-- The contexts admitted under the non-active pair and not yet freed (R284). -/
def Core.oldContexts (c : Core) : Nat := (c.ctxs.filter fun x => x.admitted && x.pair != c.active).length

/-- The marker has passed every core of the plot on this device (R275). -/
def Plot.markerThrough (p : Plot) (g : GraftState) : Bool := p.cores.all g.switched.contains

/-- A graft completes (R264, R275, R277 step 8, R282). -/
def graftComplete (pid : Nat) (d : Dev) : Dev :=
  match d.plot pid with
  | none => d
  | some p =>
    match p.graft with
    | none => d
    | some g =>
      if !p.markerThrough g then d
      else if g.drain then
        endGraft (d.updPlot pid fun p => { p with state := restState p.activeGrove.isSome p.shadowGrove.isSome }) pid g.job
          stGraftDrained g.moved
      else if p.cores.any fun n => (d.core n).oldContexts ≠ 0 then d
      else
        endGraft (d.updPlot pid fun p => { p with state := .ready, activeGrove := p.shadowGrove, shadowGrove := p.activeGrove })
          pid g.job 0 g.moved

/-- GRAFT_COMPLETE (R275). -/
def execGraftComplete (plot : Fin 256) (s : State) : Host.Outcome State Fault Refusal := onDev (graftComplete plot.val) s

/-- A core of a plot holds nothing of it: no record waits, works or rests in it (R277 step 4). -/
def Core.drained (c : Core) : Bool :=
  c.headQueue.isEmpty && c.headWork.isEmpty && c.headOut.isEmpty && c.binLane.isEmpty && c.sumLane.isEmpty && c.ctxs.isEmpty

/-- Every record that entered before the marker has left the device's part of the plot (R277 step 4). -/
def Plot.empty' (d : Dev) (p : Plot) : Bool :=
  p.cores.all (fun n => (d.core n).drained) && (!p.endsHere || p.replay.isEmpty)

/-- A new sieve table written over the active one of a head (R277 step 5). -/
def Core.replaceSieve (c : Core) (t : Bytes) : Core :=
  let c := { c with sieveActive := none }
  { c with sieveActive := some (sieveBase c t, t), sieveShadow := none }

/-- Steps 5 and 6 of R277: the new tables, every core's pair at once, the old grove cleared or kept. -/
def drainSwap (d : Dev) (pid : Nat) (p : Plot) (keep : Bool) : Dev :=
  if keep then
    (d.updCores p Core.swapPairs).updPlot pid fun p => { p with activeGrove := p.shadowGrove, shadowGrove := p.activeGrove }
  else
    let t := (p.shadowGrove.map fun g => g.info.sieve).getD []
    let d := p.heads.foldl (fun d h => d.updCore h fun c => c.replaceSieve t) d
    let d := d.updCores p fun c => { c.setPair c.active none with active := 1 - c.active }
    d.updPlot pid fun p => { p with activeGrove := p.shadowGrove, shadowGrove := none }

/-- Step 7 of R277: the held marker enters every head and intake resumes. -/
def releaseEntry (d : Dev) (pid : Nat) (p : Plot) (m : Marker) : Dev :=
  (toHeads d p m).updPlot pid fun p => { p with entryMarker := none, graft := p.graft.map fun g => { g with released := true } }

/-- Steps 5 to 7 of R277, once the plot has drained. -/
def drainAndSwap (pid : Nat) (d : Dev) : Dev :=
  match d.plot pid with
  | none => d
  | some p =>
    match p.graft, p.entryMarker with
    | some g, some m => if g.drain && p.restart == .none && p.empty' d then releaseEntry (drainSwap d pid p g.keepOld) pid p m else d
    | _, _ => d

/-- DRAIN_AND_SWAP (R277). -/
def execDrainAndSwap (plot : Fin 256) (s : State) : Host.Outcome State Fault Refusal := onDev (drainAndSwap plot.val) s

end Sys2Proof.Machine
end

