-- ==== Sys2Proof/Machine/HeadBatch.lean ====
section
/-! DEFINITION. Record frames that the sieve heads of a plot bin for PARTITION and DENSE_OUT, without descent (R303,
R341). -/
namespace Sys2Proof.Machine

/-- The places of `n` record frames that lie end to end from an address: each frame's address and its header; none when a
header cannot be read (R76). -/
def framePlaces (d : Dev) (env : Env) : Nat → Nat → Except ReadFail (List (Nat × Bytes))
  | 0, _ => .ok []
  | n + 1, a =>
    match d.readG env a 16 with
    | .error e => .error e
    | .ok h =>
      match framePlaces d env n (a + frameBytes (field h 2 2)) with
      | .error e => .error e
      | .ok t => .ok ((a, h) :: t)

/-- The bytes from the first frame's address to the last one's end. -/
def framesSpan (a : Nat) (fs : List (Nat × Bytes)) : Nat :=
  match fs.getLast? with | some (x, h) => x + frameBytes (field h 2 2) - a | none => 0

/-- The look-ups of a record, one after another, `fuel` at most (R90 steps 2 and 3, R95). -/
def lookUpAll (env : Env) (t : SieveTable) (plot : Nat) : Nat → Dev → HeadWork → Dev × HeadWork
  | 0, d, w => (d, w)
  | fuel + 1, d, w =>
    match w.needs t with
    | none => (d, w)
    | some (e, k) =>
      match doLookUp d env e k w with
      | (d, w, none) => lookUpAll env t plot fuel d w
      | (d, w, some (f, a)) => (unreadable d f stEntityUnreadable 1 (homeOf a) plot (some w.record.id) none, w)

/-- A frame's work as a head takes it: the ingress unit's status, or RECORD_SHORT (R77, R80, R90, R540). -/
def frameWork (t : SieveTable) (r : Nat) (h payload : Bytes) : HeadWork :=
  let rc : Rec :=
    { src := .task 256, stream := 0, seq := r, tag := field h 4 4, ecv := crc32c payload
      status := frameStatus h payload (frameBytes (field h 2 2)), payload := payload, q := r }
  { record := rc, row := 0, rows := [], sflags := 0, nflags := 0, status := takeStatus t rc }

/-- One frame binned by a head with its active table (R90, R303): the head's flags and conditions are counted. -/
def binFrame (d : Dev) (env : Env) (plot head : Nat) (t : SieveTable) (r : Nat) (h payload : Bytes) : Dev × Binned :=
  let (d, w) := lookUpAll env t plot t.entities.length d (frameWork t r h payload)
  let b := w.binned t
  (d.updCore head fun c =>
    let c := c.raise 0 b.nflags
    { c with regs := sieveCount c.regs b.sflags b.status }, b)

/-- The active sieve table of a plot's heads. -/
def Dev.plotSieve (d : Dev) (p : Plot) : Option SieveTable :=
  (p.heads.head?).bind fun h => (d.core h).sieveActive.map fun x => parseSieve x.2

/-- A plot whose heads can take frames outside scoring (R303): it stands in ACTIVE or READY. -/
def Plot.binsFrames (p : Plot) : Bool := p.state == .active || p.state == .ready

/-- A plot of this device alone, and not re-forming (R286). -/
def Plot.trains (p : Plot) : Bool := p.startsHere && p.endsHere && p.state != .reforming

/-- The head of frame `r` (R81). -/
def Plot.headOf (p : Plot) (r : Nat) : Nat := at' 0 p.heads (r % max 1 p.heads.length)

end Sys2Proof.Machine
end

