-- ==== Sys2Proof/Machine/Towers.lean ====
section
/-! DEFINITION. The tower array: MATMUL, and DENSE_OUT (R334 to R343). -/
namespace Sys2Proof.Machine

/-- TOWER_INVALID (R344). -/
def stTowerInvalid : Status := 0x1082

/-! ### MATMUL -/

/-- The operands of a MATMUL (R337). -/
structure MatOps where
  c : Nat
  a : Nat
  b : Nat
  aStride : Nat
  bStride : Nat
  kd : Nat
  aFmt : Nat
  bFmt : Nat
  aTile : Bool
  transA : Bool
  transB : Bool
  exp : Int
deriving DecidableEq, Repr

/-- The operand fields of a MATMUL. -/
def matOps (x : Desc) : MatOps :=
  { c := x.op 0x10 8, a := x.op 0x18 8, b := x.op 0x20 8, aStride := x.op 0x28 4, bStride := x.op 0x2C 4, kd := x.op 0x30 4
    aFmt := x.op 0x34 1, bFmt := x.op 0x35 1, aTile := bit (x.op 0x36 1) 0, transA := bit (x.op 0x36 1) 1
    transB := bit (x.op 0x36 1) 2, exp := sbyte (x.op 0x37 1) }

/-- A pairing of R334: the operand format codes and the mode of C; BF16 and FP16 never mix (log 28). -/
def pairingOk (fa fb mode : Nat) : Bool :=
  fa == fb && (match fa with
    | 0 => mode == 0
    | 1 => mode == 0 || mode == 2
    | 2 => mode == 0 || mode == 3
    | 3 => mode == 0 || mode == 2 || mode == 3
    | 6 => mode == 1
    | _ => false)

/-- The group depth D of an operand format (R334). -/
def groupDepth (f : Nat) : Nat := if f = 0 then 16 else if f ≤ 2 then 64 else 128

/-- The stored rows of an operand and the elements in each: `rows × cols` as it is used, swapped when stored transposed. -/
def storedShape (trans : Bool) (rows cols : Nat) : Nat × Nat := if trans then (cols, rows) else (rows, cols)

/-- The bytes from an operand's first row to its last element. -/
def storedSpan (shape : Nat × Nat) (stride w : Nat) : Nat := (shape.1 - 1) * stride + shape.2 * w

/-- The operand rules of R334 and R337. -/
def matForm (x : Desc) : List (Bool × Status) :=
  let o := matOps x
  let t := TileWord.of o.c
  let w := (elemFmt o.aFmt).size
  [(!x.onlyOps [(0x10, 8), (0x18, 8), (0x20, 8), (0x28, 4), (0x2C, 4), (0x30, 4), (0x34, 1), (0x35, 1), (0x36, 1), (0x37, 1)],
    stDescriptorInvalid)] ++ tileForm o.c ++ (if o.aTile then tileForm o.a else []) ++
  [(!pairingOk o.aFmt o.bFmt t.mode || o.kd == 0 || 65536 < o.kd || 8 ≤ x.op 0x36 1 || o.exp < -64 || 63 < o.exp ||
     (o.aFmt == 6 && o.exp != 0) || (o.aTile && (o.transA || o.aStride != 0)) ||
     (!o.aTile && o.aStride < (storedShape o.transA t.rows o.kd).2 * w) ||
     o.bStride < (storedShape o.transB o.kd t.cols).2 * w ||
     (o.aTile && !((TileWord.of o.a).core == t.core && (TileWord.of o.a).rows == t.rows && (TileWord.of o.a).cols == o.kd)),
    stTowerInvalid)]

/-- MATMUL's checks (R27, R176, R177, R337). -/
def checkMatmul (d : Dev) (x : Desc) : Verdict :=
  let o := matOps x
  let t := TileWord.of o.c
  let w := (elemFmt o.aFmt).size
  checks (matForm x ++ tileState d o.c ++ (if o.aTile then tileState d o.a else []) ++
    [(!o.aTile && !d.addrOk .read false o.a (storedSpan (storedShape o.transA t.rows o.kd) o.aStride w), stAddressInvalid),
     (!d.addrOk .read false o.b (storedSpan (storedShape o.transB o.kd t.cols) o.bStride w), stAddressInvalid)])

/-- Element (r, k) of an operand in memory, stored plainly or transposed. -/
def memElem (d : Dev) (env : Env) (a stride w : Nat) (trans : Bool) (r k : Nat) : Nat :=
  let (i, j) := if trans then (k, r) else (r, k)
  le (d.readOr env (a + i * stride + j * w) w)

/-- Element (m, k) of A as the array takes it: a tile's is converted to A_FMT (R337). -/
def matA (d : Dev) (env : Env) (o : MatOps) (m k : Nat) : Nat × NFlags :=
  if o.aTile then
    let c := d.core (bits o.a 0 8)
    let t := c.readWord o.a
    convert t.fmt t.scale (elemFmt o.aFmt) 0 .rne (c.elem t m k)
  else (memElem d env o.a o.aStride (elemFmt o.aFmt).size o.transA m k, 0)

/-- The exact sum of a group's products, times `2^SCALE_EXP` (R335). -/
def groupSum (f : Fmt) (exp : Int) (ps : List (Nat × Nat)) : Val :=
  let prod (p : Nat × Nat) : Val := .mul (decodeVal f 0 p.1).1 (decodeVal f 0 p.2).1
  let s := match ps with | [] => Val.fin false 0 0 false | p :: t => t.foldl (fun a q => .add .rne a (prod q)) (prod p)
  match s with | .fin n m e k => .fin n m (e + exp) k | v => v

/-- A value of any precision added into a chunked column with one rounding (R187, R335). -/
def Core.chunkAddVal (c : Core) (fmt : Fmt) (col : Nat) (t : Total) (len : Nat) (v : Val) : Core × NFlags :=
  let (s, f1) := rnd fmt .rne (.add .rne (floatVal fmt (le (c.accRead col 2))) v)
  let k := Tbl.get 0 col c.chunk + 1
  let c := { c.accWrite col (toLe 2 s) with chunk := Tbl.set 0 col k c.chunk }
  if k = len then let (c, f2) := c.promote fmt col t; (c, f1 ||| f2) else (c, f1)

/-- A group's sum added into an element of C (R335): INT32 saturates. -/
def Core.addVal (c : Core) (w r k : Nat) (v : Val) : Core × NFlags :=
  let t := TileWord.of w
  match (c.tile w).bind (·.total) with
  | some tot => c.chunkAddVal t.fmt (t.addr r k) (totalOf (TileWord.of tot) r k) (((c.tile w).map (·.chunk)).getD 16) v
  | none =>
    let (s, f) := encodeVal t.fmt 0 .rne (.add .rne (decodeVal t.fmt 0 (c.elem t r k)).1 v)
    (c.setElem t r k s, f)

/-- The products of group `g` of output (m, n), with the flags of A's conversion. -/
def groupPairs (d : Dev) (env : Env) (o : MatOps) (m n g : Nat) : List (Nat × Nat) × NFlags :=
  let depth := groupDepth o.aFmt
  let ks := (tab depth fun i => g * depth + i).filter (· < o.kd)
  let l := ks.map fun k =>
    let (a, f) := matA d env o m k
    ((a, memElem d env o.b o.bStride (elemFmt o.bFmt).size o.transB k n), f)
  (l.map (·.1), l.foldl (fun a x => a ||| x.2) 0)

/-- One output of C, its groups in ascending order (R335). -/
def matCell (d : Dev) (env : Env) (o : MatOps) (c : Core) (p : Nat × Nat) : Core × NFlags :=
  foldFlags (List.range ((o.kd + groupDepth o.aFmt - 1) / groupDepth o.aFmt)) c fun c g =>
    let (ps, f) := groupPairs d env o p.1 p.2 g
    let (c, h) := c.addVal o.c p.1 p.2 (groupSum (elemFmt o.aFmt) o.exp ps)
    (c, f ||| h)

/-- A record context has an undrained round (R54). -/
def Core.descentPending (c : Core) : Bool :=
  c.ctxs.any fun x => x.hasBins && (!x.rounds.isEmpty || (!x.skips && (c.pairOf x).any fun pr => x.added < pr.rounds))

/-- The outputs per transfer (R334, R336). -/
def outputsPer (c : Core) (o : MatOps) : Nat :=
  if mode16 (TileWord.of o.c).mode then (if o.aFmt = 3 && c.descentPending then 64 else 128) else 64

/-- The transfers of a MATMUL that add into C (R339, R340). -/
def matTransfers (c : Core) (o : MatOps) : Nat :=
  let t := TileWord.of o.c
  let up (a b : Nat) : Nat := (a + b - 1) / b
  t.rows * up o.kd (groupDepth o.aFmt) * up t.cols (outputsPer c o)

/-- The first memory operand of a MATMUL that cannot be read. -/
def matBad (d : Dev) (env : Env) (o : MatOps) : Option ReadFail :=
  let t := TileWord.of o.c
  let rows (a stride : Nat) (sh : Nat × Nat) : Option ReadFail :=
    (List.range sh.1).findSome? fun i => d.readFail env (a + i * stride) (sh.2 * (elemFmt o.aFmt).size)
  (if o.aTile then none else rows o.a o.aStride (storedShape o.transA t.rows o.kd)).orElse fun _ =>
    rows o.b o.bStride (storedShape o.transB o.kd t.cols)

/-- MATMUL's work (R335, R338, R340). -/
def matRun (j : Job) (d : Dev) : Dev :=
  let o := matOps j.desc
  let n := bits o.c 0 8
  match matBad d j.env o with
  | some e => d.endRead j e
  | none =>
    let (c, f0) := if o.aTile then (d.core n).flushTile o.a else (d.core n, (0 : NFlags))
    let d := d.setCore n c
    let (c, f) := foldFlags (TileWord.of o.c).cells c (matCell d j.env o)
    let k := matTransfers c o
    let r := { c.regs with towerSteps := c.regs.towerSteps + BitVec.ofNat 64 k }
    (d.setCore n (({ c with regs := r }.flagTile o.c f).work k)).finishJob j.id 0 (f0 ||| f)

/-- MATMUL, in its place among operations on overlapping tiles (R183, R337). -/
def startMatmul (j : Job) (d : Dev) : Dev :=
  let o := matOps j.desc
  runTiles j (o.c :: (if o.aTile then [o.a] else [])) (matRun j) d

/-! ### DENSE_OUT -/

/-- The operands of a DENSE_OUT (R341). -/
structure DenseOps where
  src : Nat
  dst : Nat
  count : Nat
  stride : Nat
  plot : Nat
  outFmt : Nat
deriving DecidableEq, Repr

/-- The operand fields of a DENSE_OUT. -/
def denseOps (x : Desc) : DenseOps :=
  { src := x.op 0x10 8, dst := x.op 0x18 8, count := x.op 0x20 4, stride := x.op 0x24 4, plot := x.op 0x28 2, outFmt := x.op 0x2A 1 }

/-- The operand rules of R341 that need no state. -/
def denseForm (x : Desc) : List (Bool × Status) :=
  let o := denseOps x
  [(!x.onlyOps [(0x10, 8), (0x18, 8), (0x20, 4), (0x24, 4), (0x28, 2), (0x2A, 1)], stDescriptorInvalid),
   (o.src % 8 != 0 || o.dst % 8 != 0 || o.count == 0 || 2 < o.outFmt, stTowerInvalid)]

/-- The bytes of an output row of DENSE_OUT. -/
def denseRow (t : SieveTable) (outFmt : Nat) : Nat := t.denseCount * (poolFmt outFmt).size

/-- DENSE_OUT's checks on the active sieve table and its ranges (R341). -/
def denseTable (d : Dev) (env : Env) (p : Plot) (o : DenseOps) : Verdict :=
  match d.plotSieve p with
  | none => .reject stStateConflict
  | some t =>
    (checks [(t.denseCount == 0 || o.stride < denseRow t o.outFmt, stTowerInvalid),
      (!d.addrOk .read false o.src 16 || !d.addrOk .write false o.dst ((o.count - 1) * o.stride + denseRow t o.outFmt), stAddressInvalid)]).andThen
    (fun _ => match framePlaces d env o.count o.src with
     | .error e => .fail e
     | .ok fs => checks [(!d.addrOk .read false o.src (framesSpan o.src fs), stAddressInvalid)])

/-- DENSE_OUT's checks (R303, R341, R381). -/
def checkDense (d : Dev) (x : Desc) (env : Env) : Verdict :=
  let o := denseOps x
  match d.plot o.plot with
  | none => checks (denseForm x ++ [(true, stStateConflict)])
  | some p => (checks (denseForm x ++ [(!(p.trains && p.binsFrames), stStateConflict)])).andThen (fun _ => denseTable d env p o)

/-- The format of scaled value `i` of a sieve table: that of the feature whose DENSE_IDX is `i`. -/
def denseFmt (t : SieveTable) (i : Nat) : Fmt :=
  match t.features.find? fun f => f.kind = 0 && f.scaleEn && f.denseIdx = i with
  | some f => scaleFmtOf f.scaleFmt
  | none => .fp32

/-- An output row of DENSE_OUT: zeros for a record that the sieve would not score (R341). -/
def denseOutRow (t : SieveTable) (outFmt : Nat) (b : Binned) : Bytes × NFlags :=
  let l := tab t.denseCount fun i =>
    if b.status = 0 then convert (denseFmt t i) 0 (poolFmt outFmt) 0 .rne (Tbl.get 0 i b.dense) else (0, (0 : NFlags))
  (l.flatMap fun x => toLe (poolFmt outFmt).size x.1, l.foldl (fun a x => a ||| x.2) 0)

/-- A batch's work in progress: the device, the flags, and a read that failed. -/
structure BatchSt where
  dev : Dev
  flags : NFlags
  bad : Option ReadFail

/-- One frame of a DENSE_OUT (R75, R341). -/
def denseStep (j : Job) (o : DenseOps) (p : Plot) (t : SieveTable) (s : BatchSt) (x : Nat × Nat × Bytes) : BatchSt :=
  if s.bad.isSome then s
  else
    let (r, a, h) := x
    match s.dev.readG j.env (a + 16) (field h 2 2) with
    | .error e => { s with bad := some e }
    | .ok b =>
      let n := p.headOf r
      let (d, bn) := binFrame s.dev j.env o.plot n t r h b
      let (row, f) := denseOutRow t o.outFmt bn
      let d := d.writeG j.id (o.dst + r * o.stride) row
      let d := d.updCore n fun c =>
        let g := { c.regs with towerDense := c.regs.towerDense + 1 }
        (({ c with regs := g }.work 1).note (bn.nflags ||| f))
      { s with dev := d, flags := s.flags ||| bn.nflags ||| f }

/-- DENSE_OUT's work (R341). -/
def startDense (j : Job) (d : Dev) : Dev :=
  let o := denseOps j.desc
  let d := d.updJob j.id fun j => { j with plot := some o.plot }
  match d.plot o.plot with
  | none => d.finishJob j.id stStateConflict
  | some p =>
    match d.plotSieve p, framePlaces d j.env o.count o.src with
    | some t, .ok fs =>
      let s := (tab fs.length fun r => (r, at' (0, []) fs r)).foldl (denseStep j o p t) ⟨d, 0, none⟩
      (match s.bad with | some e => s.dev.endRead j e s.flags | none => s.dev.finishJob j.id 0 s.flags)
    | _, .error e => d.endRead j e
    | none, _ => d.finishJob j.id stStateConflict

end Sys2Proof.Machine
end

