-- ==== Sys2Proof/Machine/RegRead.lean ====
section
/-! DEFINITION. What a register reads as: the blocks of BAR0 and their fields (R54, R75, R110, R169, R212, R238, R261, R283,
R284, R312, R342, R343, R384 to R386, R413, R414, R443 to R445, R462, R485, R508, R511, R512, R523). -/
namespace Sys2Proof.Machine

/-- A register word made of fields (lowest bit, width, value); a value keeps its low bits. -/
def fields (l : List (Nat × Nat × Nat)) : Nat := (l.map fun f => f.2.2 % 2 ^ f.2.1 * 2 ^ f.1).sum

/-! ### The core blocks -/

/-- A bin-vector packet that a core sent over a chain link waits to be sent or acknowledged (R471). -/
def Dev.linkOut (d : Dev) (n : Nat) : Bool :=
  d.ports.any fun p => p.2.txq.any (fun u => u.sender == .bins n) || p.2.unacked.any fun f => f.senders.contains (.bins n)

/-- A bin-vector packet of a core awaits acknowledgement downstream (R15, R21, R54): in the head's own output, in the lane of
the next core, or on a link. -/
def Dev.binsOut (d : Dev) (n : Nat) : Bool :=
  !(d.core n).headOut.isEmpty || d.linkOut n ||
  (d.plotOf n).any fun p => p.2.cores.any fun k => (d.core k).binLane.any fun m => !m.isMarker && m.sender == n

/-- PARTITION lanes of a core hold work (R311). -/
def Dev.partitions (d : Dev) (n : Nat) : Bool :=
  d.jobs.any fun j => j.desc.code == 0x32 && !j.ended && (d.plotOf n).any fun p => j.plot == some p.1

/-- CORE_PENDING (R54, R311, R340). -/
def corePending (d : Dev) (n : Nat) (c : Core) : Nat :=
  let tower := d.jobs.any fun j => [0x30, 0x31, 0x54].contains j.desc.code && !j.ended && j.tiles.any fun w => bits w 0 8 == n
  fields [(0, 1, b2n (c.descentPending || d.partitions n)), (1, 1, b2n tower), (2, 1, b2n !c.headWork.isEmpty),
    (3, 1, b2n (c.ctxs.any fun x => x.result.isSome && !x.acked)),
    (4, 1, b2n (d.binsOut n || c.ctxs.any fun x => x.sent && !x.acked))]

/-- The core entry of a core in its plot. -/
def Plot.entry (p : Plot) (n : Nat) : Option CoreEntry := p.lay.entries.find? fun e => e.core = n

/-- CORE_SIEVE_CFG (R110). -/
def sieveCfg (d : Dev) (n : Nat) (c : Core) : Nat :=
  match d.plotOf n with
  | none => fields [(24, 1, b2n c.sieveShadow.isSome)]
  | some (_, p) =>
    match p.entry n with
    | some e => fields [(0, 1, b2n e.head), (8, 8, if e.head then e.headIndex else 0), (16, 8, if e.head then p.heads.length else 0),
        (24, 1, b2n c.sieveShadow.isSome)]
    | none => fields [(24, 1, b2n c.sieveShadow.isSome)]

/-- CORE_SIEVE_TABLE (R110). -/
def sieveTableReg (c : Core) : Nat :=
  match c.sieveActive with
  | none => 0
  | some (base, b) =>
    let t := parseSieve b
    fields [(0, 16, t.features.length), (16, 4, t.entities.length), (20, 1, t.nanPolicy), (21, 7, base), (32, 32, t.crc)]

/-- CORE_DESCENT_CFG (R169): the grove fields are those of the active pair. -/
def descentCfg (d : Dev) (n : Nat) (c : Core) : Nat :=
  let fold := (d.plotOf n).elim 0 fun p => p.2.lay.fold
  fields ([(0, 2, fold), (2, 1, c.active), (3, 1, b2n c.shadowPair.isSome)] ++
    (match c.activePair with
     | none => []
     | some p => [(8, 13, p.slice.slots), (21, 7, p.rounds), (28, 2, p.info.valueFmt), (30, 1, b2n p.info.leafToId),
         (32, 7, p.info.outputs), (39, 7, strideOf p.info.valueFmt p.info.outputs)]))

/-- The rows reserved for tiles (R181): the rows of the tiles' words, each once. -/
def Core.reservedRows (c : Core) : Nat := ((List.range 4096).filter c.rowReserved).length

/-- CORE_ACC_USE (R212). -/
def accUse (c : Core) : Nat :=
  fields [(0, 13, c.ctxs.length), (13, 13, c.reservedRows), (26, 11, c.tileEntries),
    (37, 11, c.heldEntries)]

/-- CORE_FIN_CFG (R238). -/
def finCfg (d : Dev) (n : Nat) (c : Core) : Nat :=
  let tail := (d.plotOf n).any fun p => p.2.isTail n
  let shadow := c.shadowPair.any fun p => p.fin.isSome
  fields ([(0, 1, b2n tail), (17, 1, b2n shadow)] ++
    (match c.activePair.bind (·.fin) with
     | none => []
     | some f => [(1, 1, f.mode), (2, 3, f.link), (5, 4, f.outFmt), (9, 1, b2n f.winner), (10, 7, f.knots.length - 1)]))

/-- CORE_PRUNE_CFG (R261). -/
def pruneCfg (d : Dev) (n : Nat) (c : Core) : Nat :=
  let mode := (d.plotOf n).elim 0 fun p => p.2.lay.chainMode
  fields ([(0, 1, mode)] ++
    (match c.activePair with
     | none => []
     | some p => [(1, 1, b2n p.info.prune), (2, 1, if p.info.prune then p.info.sense else 0), (3, 1, b2n p.derived)]))

/-- CORE_GRAFT_STATUS (R284). -/
def graftStatus (d : Dev) (n : Nat) (c : Core) : Nat :=
  let holding := (d.plotOf n).any fun p => p.2.heldCore = some n
  let armed := (d.plotOf n).any fun p => p.2.graft.any fun g => g.newVersion = c.markVersion
  fields [(0, 1, b2n holding), (1, 1, b2n (c.oldContexts != 0)), (2, 1, b2n (holding && c.markMismatch && !armed)),
    (32, 32, c.markVersion)]

/-- A HIST_BUILD with ACC 0 or 1 that runs holds the chunk store of the cores of its plot (R292). -/
def chunkStoreHeld (d : Dev) (n : Nat) : Bool :=
  d.jobs.any fun j => j.desc.code == 0x30 && bits (j.desc.op 0x3A 1) 0 2 < 2 && j.phase != .queued && !j.ended &&
    j.tiles.any fun w => bits w 0 8 == n

/-- CORE_TOWER_STATE (R343). -/
def towerState (d : Dev) (n : Nat) (c : Core) : Nat :=
  let runs := d.jobs.filter fun j => j.desc.code == 0x54 && j.phase == .active && j.tiles.any fun w => bits w 0 8 == n
  let half := runs.any fun j => c.descentPending && (matOps j.desc).aFmt == 3 && mode16 (TileWord.of (matOps j.desc).c).mode
  let held := chunkStoreHeld d n
  fields [(0, 1, b2n !runs.isEmpty), (1, 1, b2n half), (2, 1, b2n held), (8, 11, if held then 0x300 else 0x600)]

/-- CORE_FENCE_STATUS (R445). -/
def fenceStatus (mc : Mc) (n : Nat) (c : Core) : Nat :=
  fields [(0, 1, b2n c.fenced), (1, 1, b2n c.retired), (2, 2, min 3 (Tbl.get 0 n mc.fences)), (16, 16, c.cause.toNat),
    (32, 32, c.errSeq.toNat)]

/-- A register of the block of core `n` (R512). -/
def coreReg (mc : Mc) (d : Dev) (n o : Nat) : Option Nat :=
  let c := d.core n
  let r := c.regs
  match o with
  | 0x100 => some r.progress.toNat | 0x108 => some (corePending d n c) | 0x110 => some r.xfer.toNat
  | 0x118 => some r.nflags.toNat | 0x120 => some r.nfCntA.toNat | 0x128 => some r.nfCntB.toNat
  | 0x200 => some (sieveCfg d n c) | 0x208 => some (sieveTableReg c) | 0x210 => some r.sieveRecords.toNat
  | 0x218 => some r.sieveStatus.toNat | 0x220 => some r.sieveCntA.toNat | 0x228 => some r.sieveCntB.toNat
  | 0x300 => some (descentCfg d n c) | 0x308 => some r.descRounds.toNat | 0x310 => some r.descRecords.toNat
  | 0x318 => some r.descKeys.toNat | 0x320 => some r.descFaultA.toNat | 0x328 => some r.descFaultB.toNat
  | 0x400 => some (accUse c) | 0x408 => some r.accStatus.toNat | 0x410 => some r.accCnt.toNat
  | 0x418 => some r.sumsIn.toNat | 0x420 => some r.sumsOut.toNat | 0x428 => some r.accTileRows.toNat
  | 0x500 => some (finCfg d n c) | 0x508 => some r.finResults.toNat | 0x510 => some r.finTileRows.toNat
  | 0x518 => some r.finStatus.toNat | 0x520 => some r.finCnt.toNat
  | 0x600 => some (pruneCfg d n c) | 0x608 => some r.pruneRecords.toNat | 0x610 => some r.prunePassed.toNat
  | 0x618 => some r.pruneSquashed.toNat | 0x620 => some r.pruneDiscarded.toNat | 0x628 => some r.pruneDecisions.toNat
  | 0x700 => some (graftStatus d n c) | 0x708 => some r.graftSwitches.toNat | 0x710 => some (c.oldContexts % 2 ^ 13)
  | 0x800 => some r.histRecords.toNat | 0x808 => some r.histSplits.toNat | 0x810 => some r.histRouted.toNat
  | 0x818 => some r.histStatus.toNat | 0x820 => some r.histCnt.toNat
  | 0x900 => some r.towerSteps.toNat | 0x908 => some (towerState d n c) | 0x910 => some r.towerDense.toNat
  | 0xA00 => some (fenceStatus mc n c)
  | _ => none

/-! ### The FEC block -/

/-- A RUNNING channel holds a taken entry, node or link that is neither dispatched nor rejected (R384). -/
def Dev.dispatchPending (d : Dev) (c : Nat) : Bool :=
  let ch := d.chan c
  ch.state == .running && (ch.held.isSome || ch.launch.isSome || d.jobs.any fun j => j.chan == c && j.linkDue)

/-- FEC_GRAPH_CNT (R386). -/
def graphCnt (d : Dev) : Nat :=
  let gs := d.graphList
  fields [(0, 11, gs.length), (16, 19, graphPlaces - (gs.map fun g => g.2.nodes.length).sum), (48, 16, d.windowWrites.toNat)]

/-- FEC_GRAPH_INFO of a graph (R386). -/
def graphInfo (d : Dev) (g : Nat) : Nat :=
  match d.graph g with
  | none => 0
  | some x => fields [(0, 18, x.base), (18, 13, x.nodes.length), (31, 1, 1), (32, 4, d.framesOf g), (36, 6, x.patches.length)]

/-- FEC_TASK_STATE of a task (R386). -/
def taskState (d : Dev) (t : Nat) : Nat :=
  match d.feed (.task t) with
  | none => 0
  | some f => fields [(0, 1, 1), (1, 1, b2n f.stopping.isSome), (2, 6, f.stream.getD 0), (8, 8, f.plot), (16, 6, f.chan)]

/-- FEC_TASK_RECORDS and FEC_TASK_RESULTS: of the task bound, or of its last binding (R386). -/
def taskCounts (d : Dev) (t : Nat) : Nat × Nat :=
  match d.feed (.task t) with
  | some f => (f.taken, f.accepted)
  | none => Tbl.get (0, 0) t d.taskLast

/-- The code of a plot state (R282). -/
def GState.code : GState → Nat
  | .empty => 0 | .staged => 1 | .active => 2 | .ready => 3 | .grafting => 4 | .held => 5 | .draining => 6 | .reforming => 7

/-- FEC_PLOT_STATE (R283). -/
def plotState (p : Plot) : Nat :=
  fields [(0, 3, p.state.code), (3, 1, b2n p.lastDrained), (4, 1, b2n p.switchMoved), (16, 8, p.heldCore.getD 0xFF)]

/-- The plot registers of an ID that names no plot read as at reset (R283). -/
def noPlot : Plot :=
  { lay := { plotId := 0, coreCount := 0, firstEntry := 0, fold := 0, chainMode := 0, sumFmt := 0, partner := 0, prevDevice := 0
             nextDevice := 0, firstPosition := 0, plotCores := 0, entries := [] } }

/-- A plot register (R283). -/
def plotReg (p : Plot) : Nat → Nat
  | 0x00 => plotState p
  | 0x08 => fields [(0, 32, versionOf p.activeGrove), (32, 32, versionOf p.shadowGrove)]
  | 0x10 => fields [(0, 32, p.grafts.toNat), (32, 16, p.drained.toNat)]
  | _ => p.markMask.toNat

/-- FEC_MARK_SEQ `j` of a plot (R283). -/
def markSeqReg (p : Plot) (j : Nat) : Nat :=
  fields [(0, 32, Tbl.get 0 (2 * j) p.markSeq), (32, 32, Tbl.get 0 (2 * j + 1) p.markSeq)]

/-- FEC_FLASH_SLOTS (R462). -/
def flashSlots (f : Flash) : Nat :=
  fields [(0, 31, f.slot0.epoch), (31, 1, b2n f.slot0.valid), (32, 31, f.slot1.epoch), (63, 1, b2n f.slot1.valid)]

/-- A training-survival register (R462). -/
def survReg (d : Dev) : Nat → Option Nat
  | 0x00 => some d.surv.logBase.toNat
  | 0x08 => some d.surv.logLog2.toNat
  | 0x10 => some d.surv.stepNext.toNat
  | 0x18 => some (fields [(0, 28, d.surv.windowStart.toNat), (28, 28, d.surv.windowPages.toNat)])
  | 0x20 => some (fields [(0, 16, d.surv.logMib.toNat), (16, 1, b2n d.surv.valid)])
  | 0x28 => some (fields [(0, 32, d.surv.epochOpen.toNat), (32, 32, d.surv.epochClosed.toNat)])
  | 0x30 => some d.surv.status.toNat
  | 0x38 => some (fields [(0, 28, d.surv.inStart.toNat), (28, 28, d.surv.inPages.toNat)])
  | 0x40 => some (flashSlots d.flash)
  | _ => none

/-- A register of the FEC block, by its offset in the block (R386, R283, R462). -/
def fecReg (d : Dev) (o : Nat) : Option Nat :=
  if o = 0x0 then some d.fecProgress.toNat
  else if o = 0x8 then some (b2n ((List.range 64).any d.dispatchPending))
  else if o = 0x10 then some (graphCnt d)
  else if 0x1000 ≤ o && o < 0x5000 then
    some (if o % 16 = 0 then graphInfo d ((o - 0x1000) / 16) else (Tbl.get 0 ((o - 0x1000) / 16) d.graphLaunches).toNat)
  else if 0x8000 ≤ o && o < 0xA000 then
    let t := (o - 0x8000) / 32
    match o % 32 with
    | 0 => some (taskState d t) | 8 => some (taskCounts d t).1 | 16 => some (taskCounts d t).2 | _ => none
  else if 0x10000 ≤ o && o < 0x12000 then some (plotReg ((d.plot ((o - 0x10000) / 32)).getD noPlot) (o % 32))
  else if 0x20000 ≤ o && o < 0x30000 then
    some (markSeqReg ((d.plot ((o - 0x20000) / 256)).getD noPlot) (o % 256 / 8))
  else if 0x30000 ≤ o then survReg d (o - 0x30000)
  else none

/-! ### Channels and host link -/

/-- The code of a channel's state (R382). -/
def ChanState.code : ChanState → Nat
  | .disabled => 0 | .running => 1 | .waiting => 2 | .halted => 3 | .blocked => 4 | .detached => 5

/-- The code of CHN_STATE.WAIT (R385). -/
def Wait.code : Wait → Nat
  | .none => 0 | .event => 1 | .barrier => 2 | .frame => 3 | .stream => 4

/-- CHN_PENDING (R384, R385). -/
def chanPending (d : Dev) (c : Nat) : Nat :=
  let ch := d.chan c
  fields [(0, 1, b2n (d.dispatchPending c)),
    (1, 1, b2n (d.jobs.any fun j => j.chan == c && !d.jobComplete j)),
    (2, 1, b2n (ch.state == .waiting)), (3, 1, b2n (d.taskFeeds.any fun f => f.chan == c))]

/-- A register of the page of channel `c` (R385, R413). -/
def chanReg (d : Dev) (c o : Nat) : Option Nat :=
  let ch := d.chan c
  match o with
  | 0x000 => some (fields [(0, 16, ch.slice.toNat), (16, 8, ch.refetchLimit.toNat), (24, 1, b2n ch.haltOnReject), (32, 5, ch.sqLog2.toNat)])
  | 0x008 => some ch.sqBase.toNat
  | 0x010 => some 0
  | 0x018 => some (fields [(0, 3, ch.state.code), (4, 3, ch.wait.code), (8, 16, ch.head), (24, 1, b2n ch.phase), (32, 16, ch.tail),
      (48, 16, ch.refetches)])
  | 0x020 => some ch.seqNext.toNat | 0x028 => some ch.progress.toNat | 0x030 => some (chanPending d c)
  | 0x038 => some ch.status.toNat | 0x040 => some ch.cnt.toNat
  | 0x048 => some (fields [(0, 16, ch.left.toNat), (16, 16, ch.debt.toNat), (32, 12, ch.records.toNat)])
  | 0x050 => some ch.constTaken.toNat | 0x060 => some ch.inBase.toNat
  | 0x068 => some (fields [(0, 5, ch.inLog2.toNat), (8, 5, ch.inEntryLog2.toNat)])
  | 0x070 => some (fields [(0, 16, ch.inHead.toNat), (16, 16, ch.inTail.toNat)])
  | 0x078 => some ch.inFrames.toNat | 0x080 => some ch.inCnt.toNat | 0x090 => some ch.outBase.toNat
  | 0x098 => some (fields [(0, 4, ch.outLog2.toNat), (16, 16, ch.outSlot.toNat)])
  | 0x0A0 => some ch.outProducer.toNat | 0x0A8 => some ch.outTail.toNat
  | 0x100 => some ch.cqBase.toNat
  | 0x108 => some (fields [(0, 5, ch.cqLog2.toNat), (5, 1, b2n !ch.cqRoom), (16, 16, ch.cqConsumed.toNat), (32, 16, ch.cqWritten.toNat)])
  | 0x110 => some ch.cwAddr.toNat | 0x118 => some ch.cw.toNat | 0x120 => some (ch.vector c)
  | 0x128 => some ch.peerAddr.toNat | 0x130 => some (fields [(0, 32, ch.peerValue.toNat), (32, 1, b2n ch.peerMode)])
  | 0x138 => some (fields [(0, 1, b2n ch.blocked), (1, 2, ch.blockKind), (16, 15, (d.storedOf c).length)])
  | 0x140 => some ch.blockAddr.toNat | 0x148 => some ch.hostCnt.toNat
  | _ => none

/-- A COPY is in progress on an engine (R414). -/
def Dev.engineBusy (d : Dev) (e : Nat) : Bool := d.jobs.any (d.onEngine e)

/-- A register of the CE block (R414). -/
def ceReg (d : Dev) (o : Nat) : Option Nat :=
  if o < 0x1400 then
    let e := o / 256
    match o % 256 with
    | 0x00 => some (d.engine e).progress.toNat
    | 0x08 => some (fields [(0, 1, b2n (d.engineBusy e)), (1, 1, b2n (d.jobs.any fun j => j.engine == some e && j.hostHeld))])
    | 0x10 => some (d.engine e).flushBytes.toNat
    | _ => none
  else
    let h := d.host
    match o with
    | 0x4000 => some (fields [(0, 1, b2n h.holdOnReset), (1, 3, h.altTc.toNat), (4, 7, h.errorVector.toNat), (11, 1, b2n h.ats)])
    | 0x4008 => some 0
    | 0x4010 => some 0
    | 0x4018 => some (fields [(0, 1, b2n h.held), (1, 1, b2n (h.token != 0)), (16, 16, h.holds.toNat), (32, 16, h.refused.toNat)])
    | 0x4020 => some (fields [(0, 15, h.ucs.length), (15, 15, h.ucsHigh.toNat)])
    | _ => none

/-! ### Links -/

/-- The code of a port's state (R485). -/
def PortState.code : PortState → Nat
  | .disabled => 0 | .training => 1 | .up => 2 | .lost => 3

/-- A register of logical port `l` (R485). -/
def portReg (p : Port) (o : Nat) : Option Nat :=
  match o with
  | 0x000 => some (fields [(0, 2, p.mode.toNat), (2, 1, b2n p.split), (3, 1, b2n p.pfc), (4, 3, p.priority.toNat), (7, 1, b2n p.ipv6),
      (8, 14, p.mtu.toNat)])
  | 0x008 => some (fields [(0, 3, p.state.code), (16, 16, p.peer.toNat), (32, 16, p.session.toNat)])
  | 0x010 => some 0
  | 0x018 => some p.progress.toNat
  | 0x020 => some (fields [(0, 1, b2n (!p.txq.isEmpty || !p.unacked.isEmpty || !p.txResults.isEmpty || !p.txDgrams.isEmpty)),
      (1, 1, b2n (!p.rx.isEmpty || !p.dgrams.isEmpty))])
  | 0x028 => some (fields [(0, 8, p.timerUs.toNat), (8, 8, p.retryLimit.toNat), (16, 12, p.expectDevice.toNat), (28, 1, b2n p.expectAny)])
  | 0x030 => some p.status.toNat | 0x038 => some p.cnt.toNat | 0x040 => some p.srcMac.toNat | 0x048 => some p.dstMac.toNat
  | 0x050 => some p.srcIpLo.toNat | 0x058 => some p.srcIpHi.toNat | 0x060 => some p.dstIpLo.toNat | 0x068 => some p.dstIpHi.toNat
  | 0x070 => some p.udp.toNat | 0x078 => some p.egressAck.toNat | 0x080 => some p.rpCnt.toNat
  | _ => none

/-- A route entry as a register (R485). -/
def Route.word (r : Route) : Nat :=
  fields [(0, 4, r.port.toNat), (4, 1, b2n r.portValid), (5, 4, r.alt.toNat), (9, 1, b2n r.altValid), (10, 1, b2n r.usingAlt), (11, 1, b2n r.down)]

/-- A register of the LNK block (R485). -/
def lnkReg (d : Dev) (o : Nat) : Option Nat :=
  if o < 0x4000 then portReg (d.port (o / 0x400)) (o % 0x400)
  else if o = 0x7000 then some d.maxHops.toNat
  else if 0x8000 ≤ o && o < 0x10000 then some (d.route ((o - 0x8000) / 8)).word
  else none

/-! ### Table engines -/

/-- The cores of cluster `k`. -/
def clusterCores (d : Dev) (k : Nat) : List Core := (List.range 64).map fun i => d.core (64 * k + i)

/-- TAB_PENDING of an engine (R342): which of a cluster's four engines holds the cluster's waiting work is not specified,
so each shows it. -/
def tabPending (d : Dev) (e : Nat) : Nat :=
  let cs := clusterCores d (e / 4)
  let queued (op : Nat) : Bool := d.jobs.any fun j => j.desc.code == op && !j.ended && onCluster d (e / 4) j
  let look := cs.any fun c => match c.sieveActive with
    | some (_, t) => c.headWork.any fun w => (w.needs (parseSieve t)).isSome
    | none => false
  let asked := d.pendings.any fun p => p.kind = 7 &&
    (match d.job p.job with
     | some j => (j.desc.code == 0x40 || j.desc.code == 0x41) && onCluster d (e / 4) j
     | none => false)
  fields [(0, 1, b2n (queued 0x40 || cs.any fun c => !c.keyBlocks.isEmpty)), (1, 1, b2n (queued 0x41)), (2, 1, b2n look),
    (3, 1, b2n asked)]

/-- A register of the TAB block (R342). -/
def tabReg (d : Dev) (o : Nat) : Option Nat :=
  if o < 0x1000 then
    let t := d.tabEng (o / 256)
    match o % 256 with
    | 0x00 => some t.progress.toNat | 0x08 => some (tabPending d (o / 256)) | 0x10 => some t.status.toNat | 0x18 => some t.cnt.toNat
    | _ => none
  else if 0x2000 ≤ o && o < 0x2400 then
    let c := d.cache ((o - 0x2000) / 256)
    match o % 256 with
    | 0x00 => some c.hits.toNat | 0x08 => some c.misses.toNat
    | 0x10 => some (min 24576 (((c.rows.map fun r => r.2.length).sum + 1023) / 1024))
    | _ => none
  else none

/-! ### Power, coolant, life -/

/-- A signed value as a field of 16 bits. -/
def s16 (v : Int) : Nat := ofInt 16 v

/-- The 0.75 V core-VDD code's guaranteed stage rate and its neighbours (R42), in M transfers/s: by hundredths of a volt
over 0.65 V, at 0, 5, 10, 15 and 20. -/
def rateTable : List (Nat × Nat) := [(0, 1000), (10, 1260), (20, 1500), (30, 1570), (40, 1640)]

/-- Linear interpolation in a table of points (x, y) at `x`, as a fraction: numerator and denominator. Outside the table
its ends stand. -/
def interp : List (Nat × Nat) → Nat → Nat × Nat
  | [], _ => (0, 1)
  | [(_, y)], _ => (y, 1)
  | (x0, y0) :: (x1, y1) :: t, x =>
    if x ≤ x0 then (y0, 1)
    else if x ≤ x1 then (y0 * (x1 - x) + y1 * (x - x0), x1 - x0)
    else interp ((x1, y1) :: t) x

/-- The temperature factor of R43 in hundredths, by rows of core VDD codes 0, 20 and 40, temperatures in 1/16 °C. -/
def tempRows : List (Nat × List (Nat × Nat)) :=
  [(0, [(400, 95), (720, 98), (1120, 100), (1360, 101), (1680, 101)]),
   (20, [(400, 102), (720, 101), (1120, 100), (1360, 98), (1680, 96)]),
   (40, [(400, 105), (720, 103), (1120, 100), (1360, 97), (1680, 94)])]

/-- A two-way interpolation: rows by `x`, in each row by `t`; numerator and denominator. -/
def interp2 : List (Nat × List (Nat × Nat)) → Nat → Nat → Nat × Nat
  | [], _, _ => (0, 1)
  | [(_, r)], _, t => interp r t
  | (x0, r0) :: (x1, r1) :: rs, x, t =>
    if x ≤ x0 then interp r0 t
    else if x ≤ x1 then
      let (a, da) := interp r0 t
      let (b, db) := interp r1 t
      (a * db * (x1 - x) + b * da * (x - x0), da * db * (x1 - x0))
    else interp2 ((x1, r1) :: rs) x t

/-- The guaranteed stage rate at a VDD code and a temperature (R42, R43, R492), in M transfers/s, as a fraction. -/
def stageRate (code : Nat) (tj : Int) : Nat × Nat :=
  let (a, da) := interp rateTable code
  let (b, db) := interp2 tempRows code tj.toNat
  (a * b, da * db * 100)

/-- The greatest of a list of temperatures. -/
def hottest : List Int → Int
  | [] => 0
  | [t] => t
  | t :: ts => max t (hottest ts)

/-- A value of the MC's arithmetic as a register shows it (log 16): exact where it is a code, else one of the two codes beside it. -/
def mcRoundInt (q sample : Nat) (num : Int) (den : Nat) : Int :=
  let n := num / (den : Int)
  if n * den = num then n else n + (if Config.mcUp q sample num den then 1 else 0)

/-- The same of a value that is not negative; a negative one gives 0. -/
def mcRound (q sample : Nat) (num : Int) (den : Nat) : Nat := (mcRoundInt q sample num den).toNat

/-- PWR_RATE (R492, R508): the cluster rate at the present rail and the hottest cluster, the hub's at its fixed 0.75 V. -/
def pwrRate (mc : Mc) : Nat :=
  let r (q : Nat) (x : Nat × Nat) : Nat := mcRound q mc.cool.sampleNo x.1 x.2
  fields [(0, 12, r 0 (stageRate mc.pwr.actual (hottest mc.cool.tjCluster))), (16, 12, r 1 (stageRate 20 mc.cool.tjHub))]

/-- The code of a power state (R490). -/
def PowerState.code : PowerState → Nat
  | .off => 0 | .standby => 1 | .on => 2

/-- A register of the PWR block (R508). -/
def pwrReg (mc : Mc) (o : Nat) : Option Nat :=
  let p := mc.pwr
  match o with
  | 0x00 => some (fields [(0, 2, p.state.code), (2, 1, b2n p.autoOn)])
  | 0x08 => some (fields [(0, 6, p.request), (8, 6, p.target), (16, 6, p.actual), (24, 3, p.capReason)])
  | 0x10 => some (fields [(0, 12, p.limitHost), (16, 12, p.limitRack), (32, 12, p.effective)])
  | 0x18 => some (fields [(0, 16, p.milliVolts), (16, 16, p.centiAmps), (32, 16, p.watts)])
  | 0x20 => some (fields [(0, 16, p.w1s), (16, 16, p.wTau), (32, 16, p.wPeak)])
  | 0x28 => some (if p.samples.isEmpty then 0 else pwrRate mc)
  | 0x30 => some p.status.toNat | 0x38 => some p.cnt.toNat
  | _ => none

/-- A register of the COOL block (R508). -/
def coolReg (c : Cool) (o : Nat) : Option Nat :=
  match o with
  | 0x00 => some (fields [(0, 16, s16 c.inlet), (16, 16, s16 c.outlet), (32, 16, c.flow)])
  | 0x08 => some (fields [(0, 8, c.valve), (8, 1, b2n c.valveFixed), (16, 8, c.valveActual)])
  | 0x10 => some (fields [(0, 8, c.delayS), (8, 8, c.tauS), (16, 8, c.gain), (24, 8, c.horizonS)])
  | 0x18 => some (fields [(0, 8, c.tjTarget), (8, 8, c.outletMax)])
  | 0x20 => some (fields [(0, 16, s16 c.tjForecast), (16, 16, c.pCool), (32, 16, s16 c.headroom)])
  | 0x28 => some (fields ((List.range 4).map fun i => (16 * i, 16, s16 (c.tjCluster.getD i 0))))
  | 0x30 => some (s16 c.tjHub)
  | 0x38 => some c.status.toNat | 0x40 => some c.cnt.toNat
  | _ => none

/-- The life state of a core. -/
def Mc.core (mc : Mc) (n : Nat) : CoreLife := Tbl.get {} n mc.life

/-- The core with the least remaining life among those not fenced (R505), with its hours. -/
def worstCore (mc : Mc) (d : Dev) : Nat × Nat :=
  (List.range 256).foldl (fun w n => if !(d.core n).fenced && (mc.core n).remain < w.2 then (n, (mc.core n).remain) else w)
    (0, 0xFFFFFFFF)

/-- LIFE_FLASH (R506, R508): how writes wear the blocks is not specified, so after the first write the counts and the spare
percentage are free values (log 18). -/
def lifeFlash (f : Flash) : Nat :=
  let v := if f.writes = 0 then 0x64 * 2 ^ 48 else (Config.freeRegister 0x480010 f.writes).toNat
  fields [(0, 32, v), (32, 16, 3000), (48, 8, v / 2 ^ 48)]

/-- The corrected errors of the last 24 hours ON, the present one among them (R506; log 49). -/
def HbmLife.lastDay (h : HbmLife) : Nat := h.present + (h.past.take 23).sum

/-- TREND: more than 100 in the last 24 hours, and more than four times the mean of the seven windows before them (R506). -/
def HbmLife.trend (h : HbmLife) : Bool := 100 < h.lastDay && 4 * ((h.past.drop 23).take 168).sum < 7 * h.lastDay

/-- A register of the LIFE block (R508). -/
def lifeReg (mc : Mc) (d : Dev) (o : Nat) : Option Nat :=
  if o = 0 then
    let (n, h) := worstCore mc d
    some (fields [(0, 32, h), (32, 8, n), (40, 1, b2n (mc.life.any fun c => c.2.worn))])
  else if o = 8 then
    let mean := if mc.hoursOn = 0 then 0
      else mcRound 2 mc.hoursOn (mc.life.map fun c => c.2.hours).sum (256 * 1000000)
    some (fields [(0, 32, mc.hoursOn), (32, 32, mean)])
  else if o = 0x10 then some (lifeFlash d.flash)
  else if o = 0x18 then some (fields [(0, 32, mc.valveMoves), (32, 32, 2000000)])
  else if 0x20 ≤ o && o < 0xC0 then
    let h := Tbl.get {} ((o - 0x20) / 8) mc.hbm
    some (fields [(0, 32, h.total), (32, 16, h.lastDay), (48, 1, b2n h.trend)])
  else if 0x100 ≤ o && o < 0x900 then
    let c := mc.core ((o - 0x100) / 8)
    some (fields [(0, 16, c.drift), (16, 32, c.remain), (48, 1, b2n c.worn)])
  else none

/-! ### Errors and the hub -/

/-- The error ring has no free slot (R440, R443). -/
def Err.full (e : Err) : Bool := e.ringLog2 != 0 && 2 ^ e.ringLog2.toNat ≤ (e.written - e.consumed).toNat

/-- ERR_FENCED `i` (R443). -/
def errFenced (d : Dev) (i : Nat) : Nat := ((List.range 64).map fun j => if (d.core (64 * i + j)).fenced then 2 ^ j else 0).sum

/-- A register of the ERR block (R443). -/
def errReg (d : Dev) (o : Nat) : Option Nat :=
  let e := d.err
  match o with
  | 0x00 => some e.ringBase.toNat
  | 0x08 => some (fields [(0, 5, e.ringLog2.toNat), (5, 1, b2n e.full), (6, 7, e.queue.length), (32, 16, e.written.toNat)])
  | 0x10 => some (e.consumed.toNat % 65536)
  | 0x18 => some e.seqNext.toNat | 0x20 => some e.status.toNat | 0x28 => some e.cnt.toNat
  | 0x30 => some e.rakeInterval.toNat | 0x38 => some e.rakeScans.toNat
  | 0x40 => some (fields [(0, 2, e.fatalState), (16, 16, e.fatalCause.toNat)])
  | 0x60 => some (errFenced d 0) | 0x68 => some (errFenced d 1) | 0x70 => some (errFenced d 2) | 0x78 => some (errFenced d 3)
  | _ => none

/-- The MSI-X table and the Pending Bit Array (R395, R510), as the PCIe specification lays them out. -/
def msixReg (h : HostLink) (o : Nat) : Option Nat :=
  if 0x8000 ≤ o && o < 0x8800 then
    let i := (o - 0x8000) / 8
    let w := Tbl.get 0 i h.msixTable
    some (if i % 2 = 0 then w else fields [(0, 32, w), (32, 1, b2n (h.masked.getLsbD (i / 2)))])
  else if o = 0x9000 || o = 0x9008 then
    some ((List.range 64).map fun j => if Tbl.get 0 (j + 8 * (o - 0x9000)) h.msixPending = 0 then 0 else 2 ^ j).sum
  else none

/-- A register of the HUB block (R523). -/
def hubReg (mc : Mc) (d : Dev) (o : Nat) : Option Nat :=
  match o with
  | 0x00 => some (fields [(0, 16, 0x0960), (16, 8, 0x42), (32, 8, 5), (40, 8, 2)])
  | 0x08 => some 0xB1B1B1B1B1
  | 0x10 => some Config.moduleSerial.toNat
  | 0x18 => some d.deviceId
  | 0x20 => some (d.layout.elim 0 (·.hash))
  | 0x28 => some d.bar4Base.toNat
  | 0x30 => some (fields [(0, 1, b2n d.debugEnable), (1, 1, b2n d.debugOn), (2, 1, b2n mc.permit), (16, 16, d.debugEntries.toNat)])
  | 0x38 => some d.badAccess.toNat
  | _ => msixReg d.host o

/-! ### The whole of BAR0, and the debug window -/

/-- A node-bank entry of a pair: the stage tables stand where the FEC placed them (R113; log 19). -/
def nodeAt (s : Slice) (i : Nat) : Nat :=
  let sizes := s.stages.map List.length
  ((List.range 16).findSome? fun k =>
    let b := Config.nodePlace sizes k
    if b ≤ i && i < b + at' 0 sizes k then some (at' 0 (at' [] s.stages k) (i - b)) else none).getD 0

/-- The slot at an 8-byte address of accumulator memory lies in an FX48 tile, or in a record row of a plot that sums in
FX48 (R521). -/
def fxSlot (d : Dev) (n a : Nat) : Bool :=
  let c := d.core n
  let row := a / 256
  let inTile (w : Nat) : Bool :=
    let t := TileWord.of w
    t.mode == 4 && t.row0 ≤ row && row < t.row0 + t.rows && 8 * t.col0 ≤ a % 256 && a % 256 < 8 * (t.col0 + t.cols)
  c.tiles.any (fun t => inTile t.word || t.total.any inTile) ||
  ((d.plotOf n).any (fun p => p.2.lay.sumFmt == 1) && c.ctxs.any fun x => x.row == row)

/-- An aligned 8-byte slot of a space of a core (R521): accumulator memory with R64 applied, node entries or leaf records
bank by bank; zero past the space's end. -/
def spaceWord (d : Dev) (n space a : Nat) : Nat :=
  let c := d.core n
  match space with
  | 0 =>
    if 0x100000 ≤ a then 0
    else let v := le (c.accRead a 8); if fxSlot d n a then ofInt 64 (fxRead v).1 else v
  | 1 => if 0x100000 ≤ a then 0 else ((c.pair (a / 0x80000)).map fun p => nodeAt p.slice (a % 0x80000 / 8)).getD 0
  | 2 => if 0x200000 ≤ a then 0 else ((c.pair (a / 0x100000)).map fun p => at' 0 p.slice.leaves (a % 0x100000 / 8)).getD 0
  | _ => 0

/-- DBG_SEL's fields (R523). -/
def dbgSpace (d : Dev) : Nat := bits d.dbgSel.toNat 0 2
/-- The core that DBG_SEL selects. -/
def dbgCore (d : Dev) : Nat := bits d.dbgSel.toNat 8 8
/-- The page that DBG_SEL selects. -/
def dbgPage (d : Dev) : Nat := bits d.dbgSel.toNat 16 5

/-- The 8 bytes at an offset of the debug window, an 8-byte boundary (R521). -/
def windowWord (d : Dev) (o : Nat) : Nat :=
  if !d.debugOn || (d.core (dbgCore d)).fenced then 0 else spaceWord d (dbgCore d) (dbgSpace d) (dbgPage d * 0x10000 + o)

/-- The flags that a debug read of a slot raises (R64). -/
def slotFlags (d : Dev) (n space a : Nat) : NFlags :=
  if space = 0 && a < 0x100000 && fxSlot d n a then (fxRead (le ((d.core n).accRead a 8))).2 else 0

/-- A core's CORE_NFLAGS after a debug read: no record's and no tile's flags change (R520). -/
def Core.noteFlags (c : Core) (f : NFlags) : Core :=
  let r := { c.regs with nflags := c.regs.nflags ||| BitVec.ofNat 64 f.toNat }
  { c with regs := r }

/-- A read of accumulator memory outside debug mode is counted (R211). -/
def Core.readBlocked (c : Core) : Core :=
  let (st, cnt) := event c.regs.accStatus c.regs.accCnt 0
  let r := { c.regs with accStatus := st, accCnt := cnt }
  { c with regs := r }

/-- What a read of the debug window at an offset does to the selected core (R64, R211, R521). -/
def windowEffect (d : Dev) (o : Nat) : Dev :=
  let n := dbgCore d
  if dbgSpace d ≠ 0 || (d.core n).fenced then d
  else if d.debugOn then d.updCore n fun c => c.noteFlags (slotFlags d n 0 (dbgPage d * 0x10000 + o))
  else d.updCore n Core.readBlocked

/-- The value of the 64-bit register at an offset of BAR0; none where the offset names no register (R511, R512). -/
def regRead (mc : Mc) (d : Dev) (a : Nat) : Option Nat :=
  if a % 8 ≠ 0 then none
  else if a < 0x10000 then hubReg mc d a
  else if a < 0x50000 then fecReg d (a - 0x10000)
  else if 0x100000 ≤ a && a < 0x140000 then chanReg d ((a - 0x100000) / 0x1000) (a % 0x1000)
  else if a = 0x140000 then some d.err.rakeLimit.toNat
  else if 0x200000 ≤ a && a < 0x205000 then ceReg d (a - 0x200000)
  else if 0x300000 ≤ a && a < 0x310000 then lnkReg d (a - 0x300000)
  else if 0x400000 ≤ a && a < 0x401000 then pwrReg mc (a - 0x400000)
  else if 0x401000 ≤ a && a < 0x402000 then coolReg mc.cool (a - 0x401000)
  else if 0x480000 ≤ a && a < 0x481000 then lifeReg mc d (a - 0x480000)
  else if 0x500000 ≤ a && a < 0x503000 then tabReg d (a - 0x500000)
  else if 0x800000 ≤ a && a < 0xC00000 then
    coreReg mc d ((a - 0x800000) / 0x100000 * 64 + a % 0x100000 / 0x4000) (a % 0x4000)
  else if a = 0xC00000 then some d.dbgSel.toNat
  else if 0xC10000 ≤ a && a < 0xC20000 then some (windowWord d (a - 0xC10000))
  else if 0xE00000 ≤ a && a < 0xE01000 then errReg d (a - 0xE00000)
  else none

/-- One access to BAR0 that reaches no register, counted (R511). -/
def badBar0 (d : Dev) : Dev := { d with badAccess := laneAdd32 d.badAccess 0 1 }

/-- The bytes a copy engine wrote to the host are flushed by a read of its CE_FLUSH (R402). -/
def ceFlush (d : Dev) (e : Nat) : Dev := if d.host.held then d else flushReads d (d.engine e).flushAddrs

/-- The engine whose CE_FLUSH lies at an offset of BAR0 (R414). -/
def flushReg (a : Nat) : Option Nat := if 0x200000 ≤ a && a < 0x201400 && a % 256 = 0x10 then some ((a - 0x200000) / 256) else none

/-- An 8-byte read of a register of BAR0, its side effects included (R402, R511, R521). -/
def regReadFx (mc : Mc) (d : Dev) (a : Nat) : Dev × Nat :=
  match regRead mc d a with
  | none => (badBar0 d, 0)
  | some v =>
    match flushReg a with
    | some e => (ceFlush d e, v)
    | none => (if 0xC10000 ≤ a && a < 0xC20000 then windowEffect d (a - 0xC10000) else d, v)

end Sys2Proof.Machine
end

