-- ==== Sys2Proof/Machine/Debug.lean ====
section
/-! DEFINITION. The BAR4 window, debug mode and DBG_READ (R514, R515, R520 to R522). -/
namespace Sys2Proof.Machine

/-! ### The BAR4 window -/

/-- The size of the BAR4 window in bytes (R510). -/
def HostLink.bar4Bytes (h : HostLink) : Nat := 2 ^ h.bar4Log2

/-- A resize of BAR4 through its capability, to 1 GiB up to 1 TiB, sets the base to 0 (R510, R514). -/
def bar4Resize (n : Nat) (d : Dev) : Dev :=
  if n < 30 || 40 < n then d else { d with host := { d.host with bar4Log2 := n }, bar4Base := 0 }

/-- BAR4_RESIZE (R514). -/
def execBar4Resize (sizeLog2 : Nat) (s : State) : Host.Outcome State Fault Refusal := onDev (bar4Resize sizeLog2) s

/-- The local offset that a BAR4 offset reaches (R514). -/
def Dev.bar4Local (d : Dev) (x : Nat) : Nat := d.bar4Base.toNat * 2 ^ 30 + x

/-- A write of HUB_BAR4 (R514, R523). -/
def setBar4Base (v : Nat) (d : Dev) : Dev :=
  let g := bits v 0 10
  if g * 2 ^ 30 % d.host.bar4Bytes ≠ 0 then badBar0 d else { d with bar4Base := BitVec.ofNat 10 g }

/-- A byte as a BAR4 read returns it (R515). What stands in the SRAM of clusters and cores outside the sieve tables is not
fixed (log 19). -/
def bar4Byte (d : Dev) (o : Nat) : Byte :=
  match regionOf o with
  | (.hbm _, r) => if inDeviceRegion r && !d.debugOn then 0 else d.localByte o
  | (.hub, r) => if r < 0x1100000 then d.localByte o else 0
  | (.csram _, _) => if d.debugOn then Config.deviceRegionByte d.fecProgress.toNat o else 0
  | (.cmem _, r) =>
    if !d.debugOn then 0 else if inSieveMem r then d.localByte o else Config.deviceRegionByte d.fecProgress.toNat o
  | _ => 0

/-- A byte written through BAR4 is stored: only HBM outside the device regions (R515). -/
def bar4Stores (o : Nat) : Bool := match regionOf o with | (.hbm _, r) => !inDeviceRegion r | _ => false

/-- An offset of graph memory (R366). -/
def inGraphMem (o : Nat) : Bool := match regionOf o with | (.hub, r) => r < 0x1000000 | _ => false

/-- A write request through BAR4 (R366, R515): what can be stored is; a request that reaches discarded bytes is counted
once, in FEC_GRAPH_CNT for graph memory. -/
def bar4Write (x : Nat) (b : Bytes) (d : Dev) : Dev :=
  if d.host.bar4Bytes < x + b.length then d
  else
    let o := d.bar4Local x
    let offs := tab b.length fun i => o + i
    let stored := (List.range b.length).foldl (fun d i => if bar4Stores (o + i) then d.setLocalByte (o + i) (at' 0 b i) else d) d
    let stored := if offs.any inGraphMem then { stored with windowWrites := stored.windowWrites + 1 } else stored
    if offs.any fun o => !bar4Stores o && !inGraphMem o then { stored with badAccess := laneAdd32 stored.badAccess 1 1 } else stored

/-- BAR4_WRITE (R515). -/
def execBar4Write (offset : Nat) (data : Bytes) (s : State) : Host.Outcome State Fault Refusal := onDev (bar4Write offset data) s

/-- A read request through BAR4 (R515). -/
def bar4Read (x n : Nat) (d : Dev) : Dev :=
  if d.host.bar4Bytes < x + n then d else d.emit (.readValue (tab n fun i => bar4Byte d (d.bar4Local x + i)))

/-- BAR4_READ (R515). -/
def execBar4Read (offset : Nat) (n : Nat) (s : State) : Host.Outcome State Fault Refusal := onDev (bar4Read offset n) s

/-! ### Debug mode -/

/-- Debug mode ends once ENABLE is 0 and no DBG_READ is in progress (R520). -/
def leaveDebug (d : Dev) : Dev :=
  if !d.debugEnable && !(d.jobs.any fun j => j.desc.code == 0xF0 && !j.ended) then { d with debugOn := false } else d

/-- A write of HUB_DEBUG.ENABLE (R520): the field holds what is written, and debug mode is entered only with PERMIT. -/
def debugWrite (mc : Mc) (on : Bool) (d : Dev) : Dev :=
  if !on then leaveDebug { d with debugEnable := false }
  else if d.debugOn then { d with debugEnable := true }
  else if mc.permit then { d with debugEnable := true, debugOn := true, debugEntries := d.debugEntries + 1 }
  else { d with debugEnable := true }

/-- DEBUG_ENABLE (R520). -/
def execDebugEnable (on : Bool) (s : State) : Host.Outcome State Fault Refusal := onDev (debugWrite s.mc on) s

/-- A host read of BAR0: an aligned access of 8 bytes or of 4 to either half; any other is counted and reads zero (R511). -/
def bar0Read (mc : Mc) (a n : Nat) (d : Dev) : Dev :=
  if n = 8 && a % 8 == 0 then let (d, v) := regReadFx mc d a; d.emit (.readValue (toLe 8 v))
  else if n = 4 && a % 4 == 0 then
    let (d, v) := regReadFx mc d (a / 8 * 8)
    d.emit (.readValue (slice (toLe 8 v) (a % 8) 4))
  else (badBar0 d).emit (.readValue (List.replicate n 0#8))

/-- DEBUG_WINDOW_READ: a read at an offset of the debug window (R521). -/
def execDebugWindowRead (offset n : Nat) (s : State) : Host.Outcome State Fault Refusal :=
  onAny (fun d => if 0x10000 ≤ offset then d else bar0Read s.mc (0xC10000 + offset) n d) s

/-! ### DBG_READ -/

/-- The size of a space (R521). -/
def spaceBytes (space : Nat) : Nat := if space = 2 then 0x200000 else 0x100000

/-- DBG_READ's checks beside its class, in the order of R541: its form, with OFFSET and BYTES within the space, the fenced
core, and the range of DST (R522). -/
def checkDbgRead (d : Dev) (x : Desc) : Verdict :=
  let n := x.op 0x1C 4
  checks [(!x.onlyOps [(0x10, 8), (0x18, 4), (0x1C, 4), (0x20, 1), (0x21, 1)] || 2 < x.op 0x21 1 || n == 0 || n % 8 != 0 ||
      x.op 0x18 4 % 8 != 0 || x.op 0x10 8 % 8 != 0, stDescriptorInvalid),
    (spaceBytes (x.op 0x21 1) < x.op 0x18 4 + n, stAddressInvalid),
    ((d.core (x.op 0x20 1)).fenced, stStateConflict),
    (!d.addrOk .write false (x.op 0x10 8) n, stAddressInvalid)]

/-- DBG_READ's work (R521, R522). -/
def startDbgRead (j : Job) (d : Dev) : Dev :=
  let x := j.desc
  let core := x.op 0x20 1
  let space := x.op 0x21 1
  let offs := tab (x.op 0x1C 4 / 8) fun i => x.op 0x18 4 + 8 * i
  let b := offs.flatMap fun a => toLe 8 (spaceWord d core space a)
  let f : NFlags := offs.foldl (fun f a => f ||| slotFlags d core space a) 0
  let d := (d.updCore core fun c => c.noteFlags f).updJob j.id fun j => { j with detail0 := b.length }
  let a := x.op 0x10 8
  if addrDevice a ≠ d.deviceId && (d.routePort (addrDevice a)).isNone then d.finishJob j.id stLinkLost f
  else (d.writeG j.id a b).finishJob j.id 0 f

end Sys2Proof.Machine
end

