-- ==== Sys2Proof/Machine/Events.lean ====
section
/-! DEFINITION. NOP, RECORD_EVENT and WAIT_EVENT (R348, R359 to R362). -/
namespace Sys2Proof.Machine

/-- The greatest event value (R360). -/
def eventMax : Nat := 2 ^ 64 - 1

/-- The event after a record, and the status (R360). -/
def eventRecord (cur v : Nat) (add : Bool) : Nat × Status :=
  if add then (if eventMax < cur + v then (eventMax, stEventStale) else (cur + v, 0))
  else if cur < v then (v, 0) else if v = cur then (cur, 0) else (cur, stEventStale)

/-- The operand rules of NOP and the event opcodes, which R352 step 2 checks. -/
def eventOperandsBad (x : Desc) : Bool :=
  match x.code with
  | 0x00 => !x.onlyOps []
  | 0x01 => !x.onlyOps [(0x10, 8), (0x18, 2), (0x1A, 2), (0x1C, 1)] || 2 ≤ x.op 0x1C 1 ||
      (bit (x.op 0x1C 1) 0 && x.op 0x10 8 == 0)
  | 0x02 => !x.onlyOps [(0x10, 8), (0x18, 2)]
  | _ => false

/-- The device a RECORD_EVENT names is this one (R360, R362). -/
def eventLocal (d : Dev) (x : Desc) : Bool := x.op 0x1A 2 == 0xFFFF || x.op 0x1A 2 == d.deviceId

/-- RECORD_EVENT's check: a remote device is in the routing table (R362). -/
def checkRecordEvent (d : Dev) (x : Desc) : Verdict :=
  checks [(!eventLocal d x && !d.routed (x.op 0x1A 2), stAddressInvalid)]

/-- WAIT_EVENT's check: it waits until the event's value is at least VALUE (R361). -/
def checkWaitEvent (d : Dev) (x : Desc) : Verdict :=
  if x.op 0x10 8 ≤ d.eventVal (x.op 0x18 2) then .go else .wait .event

/-- NOP and a satisfied WAIT_EVENT end at once. -/
def startAtOnce (j : Job) (d : Dev) : Dev := d.finishJob j.id 0

/-- RECORD_EVENT waits, dispatched, for the earlier descriptors of its channel (R360). -/
def startRecordEvent (j : Job) (d : Dev) : Dev := d.updJob j.id fun j => { j with phase := .queued }

/-- A record of an event of this device (R360). -/
def applyLocal (d : Dev) (j : Job) : Dev :=
  let i := j.desc.op 0x18 2
  let (v, st) := eventRecord (d.eventVal i) (j.desc.op 0x10 8) (bit (j.desc.op 0x1C 1) 0)
  (d.setEvent i v).finishJob j.id st

/-- A record of an event of another device: an Event unit, whose acknowledgement ends the descriptor; LINK_LOST where
the route is lost (R362, R469, R474). -/
def applyRemote (d : Dev) (j : Job) : Dev :=
  let dst := j.desc.op 0x1A 2
  match d.routePort dst with
  | none => d.finishJob j.id stLinkLost
  | some _ =>
    let body (t : Nat) : Bytes :=
      toLe 8 (j.desc.op 0x10 8) ++ toLe 2 (j.desc.op 0x18 2) ++ toLe 1 (j.desc.op 0x1C 1) ++ toLe 1 0 ++ toLe 4 t
    let (d, tag) := sendRequest d dst 8 0xFFFF j.id (j.desc.op 0x18 2) 0 0 body
    (d.finishJob j.id 0).updJob j.id fun j => { j with wait := [tag] }

/-- The event is recorded once every descriptor dispatched before it on its channel has completed (R360). -/
def recordApply (job : Nat) (d : Dev) : Dev :=
  match d.job job with
  | none => d
  | some j =>
    if j.desc.code = 1 && j.phase == .queued && d.earlierDone j.chan j.id j.launch then
      if eventLocal d j.desc then applyLocal d j else applyRemote d j
    else d

/-- RECORD_EVENT_APPLY (R360). -/
def execRecordEventApply (job : Nat) (s : State) : Host.Outcome State Fault Refusal := onDev (recordApply job) s

end Sys2Proof.Machine
end

