-- ==== Sys2Proof/Machine/Restart.lean ====
section
/-! DEFINITION. Plot restarts and replays: what a restart discards, what it makes of a graft, the units that carry it along
a chain of devices, and the replay (R281, R417, R426 to R428, R436, R474, R477). -/
namespace Sys2Proof.Machine

/-! ### Squashing -/

/-- The rounds in flight in a core. -/
def Core.inFlight (c : Core) : Nat := (c.ctxs.map fun x => x.rounds.length).sum

/-- A core as a restart leaves it (R250, R426 step 2): every round squashed and drained, every sum packet and bin-vector packet
of the plot discarded, every context freed. Markers stay where `marks` says so: the FEC places them again where they were
(R272, R281, R426). Reduction packets that failed no check stay where `reds` does: they are no packets of records (R209). -/
def Core.squashAll (c : Core) (marks reds : Bool) : Core :=
  let k := c.inFlight
  let r := { c.regs with pruneSquashed := c.regs.pruneSquashed + BitVec.ofNat 64 k,
                         descRounds := c.regs.descRounds + BitVec.ofNat 64 k }
  ({ c with regs := r, headQueue := [], headWork := [], headOut := []
            binLane := if marks then c.binLane.filter BinMsg.isMarker else []
            sumLane := c.sumLane.filter fun m => reds && m.reduction && !m.failed, ctxs := [] }).work k

/-- Steps 1 to 3 of R426 on this device; the rotation restarts at head 0 (R81). The device that heads the plot places its
marker again at the entry; on a later device a marker stays in its lane, and a held one held (R272). -/
def squashPlot (d : Dev) (pid : Nat) (p : Plot) (reds : Bool) : Dev :=
  let live := p.cores.filter fun n => !(d.core n).fenced
  let d := live.foldl (fun d n => d.updCore n fun c => c.squashAll (!p.startsHere) reds) d
  let d := (List.range 16).foldl (fun d i =>
    if (d.port i).txResults.any (fun t => t.plot = pid) then
      d.updPort i fun po => { po with txResults := po.txResults.filter fun t => t.plot ≠ pid } else d) d
  let d := { d with remoteResults := d.remoteResults.filter fun r => r.2.plot ≠ pid }
  d.updPlot pid fun p =>
    { p with rotHead := 0, rotAccept := 0, heldCore := if p.startsHere then none else p.heldCore }

/-! ### A graft met by a restart -/

/-- The least of a stream's unaccepted sequence numbers that precedes its switch point, else the switch point (R48,
R280). -/
def movedPoint (p : Plot) (n seq : Nat) : Nat :=
  p.replay.foldl (fun m r => if r.stream = n && (m + 2 ^ 32 - r.seq) % 2 ^ 32 < 2 ^ 31 then r.seq else m) seq

/-- The switch points moved back (R280, R281). -/
def Plot.moveMarks (p : Plot) : Plot :=
  { p with markSeq := (List.range 64).foldl (fun t n =>
      if p.markMask.getLsbD n then Tbl.set 0 n (movedPoint p n (Tbl.get 0 n p.markSeq)) t else t) p.markSeq }

/-- The entries of a plot's switch points as they now stand (R269, R283). -/
def Plot.markEntries (p : Plot) : List (Nat × Nat) :=
  (List.range 64).filterMap fun n => if p.markMask.getLsbD n then some (n, Tbl.get 0 n p.markSeq) else none

/-- The marker that is placed again, with the moved switch points (R280, R281). -/
def Plot.markerAgain (pid : Nat) (p : Plot) (g : GraftState) : Marker :=
  { plotId := pid, kind := b2n g.drain, oldVersion := g.oldVersion, newVersion := g.newVersion
    count := (p.grafts.toNat + 1) % 2 ^ 32, entries := p.markEntries }

/-- A core that a hitless graft has not yet switched, switched at once with its sieve table, where its shadow pair is ready
(R281). -/
def Core.switchNow (c : Core) (version : Nat) (sieve : Bytes) : Core :=
  let c := if c.sieveActive.any fun t => t.2 != sieve then c.switchSieve else c
  if c.activePair.any fun x => x.info.version == version then { c with markVersion := version }
  else if c.shadowPair.isSome then { c with active := 1 - c.active, markVersion := version } else c

/-- A hitless graft whose marker is placed: every core switches at once (R281). On the device that placed it the graft then
completes by itself; on a later one the marker goes on from where it stands, and switches no core any more. -/
def restartHitless (d : Dev) (pid : Nat) (p : Plot) (g : GraftState) : Dev :=
  let t := (p.shadowGrove.map fun x => x.info.sieve).getD []
  (d.updCores p fun c => c.switchNow g.newVersion t).updPlot pid fun p =>
    { p.moveMarks with graft := some { g with placed := true, moved := true
                                              switched := if p.startsHere then p.cores else g.switched }
                       heldCore := none, state := if p.state = .held then .grafting else p.state }

/-- A drain-and-swap whose marker is placed: the swap is made if it was not, and the marker placed and released again
(R281). -/
def restartDrain (d : Dev) (pid : Nat) (p : Plot) (g : GraftState) : Dev :=
  let d := if g.released then d else drainSwap d pid p g.keepOld
  let d := d.updPlot pid fun p =>
    { p.moveMarks with graft := some { g with released := true, switched := [], moved := true }, entryMarker := none }
  match d.plot pid with
  | some p => toHeads d p (p.markerAgain pid g)
  | none => d

/-- A marker of a version waits in one of the plot's lanes: on this device it is placed (R280, R281). -/
def markerCame (d : Dev) (p : Plot) (version : Nat) : Bool :=
  p.cores.any fun n => (d.core n).binLane.any fun m => match m with
    | .marker b _ _ => (parseMarker b).newVersion == version
    | .bins _ _ _ _ _ => false

/-- The last marker that a plot placed is that of the grove now active. -/
def Plot.markActive (p : Plot) : Bool := p.lastMark.any fun m => m.newVersion == versionOf p.activeGrove

/-- The switch points of a graft that is complete moved back, where records before them are not accepted yet: the chain goes on
past this device (R280, R281). -/
def Plot.moveLast (p : Plot) : Plot :=
  if p.markActive && p.moveMarks.markSeq != p.markSeq then { p.moveMarks with switchMoved := true } else p

/-- What a restart without a fence makes of a plot's graft (R281): before its marker is placed, nothing. -/
def restartGraft (d : Dev) (pid : Nat) : Dev :=
  match d.plot pid with
  | none => d
  | some p =>
    match p.graft with
    | some g =>
      if !(g.placed || (!p.startsHere && markerCame d p g.newVersion)) then d
      else if g.drain then restartDrain d pid p g else restartHitless d pid p g
    | none => d.updPlot pid Plot.moveLast

/-! ### A restart of a plot -/

/-- The marker that goes to the next device again after a restart (R281, R426): that of the graft in progress, or of the last
one, which may not have passed the later devices; one of a drain-and-swap enters at the heads again. -/
def Plot.againMarker (pid : Nat) (p : Plot) : Option Marker :=
  match p.graft with
  | some g =>
    if g.placed then (if g.drain then none else some (p.markerAgain pid g))
    else if p.markActive then p.lastMark.map fun m => { m with entries := p.markEntries } else none
  | none => if p.markActive then p.lastMark.map fun m => { m with entries := p.markEntries } else none

/-- The Restart unit to the next device of a chain, and a marker after it (R281, R477). -/
def sendRestart (d : Dev) (pid : Nat) (p : Plot) : Dev :=
  if p.endsHere then d
  else
    let d := sendUnit d p.lay.nextDevice 3 pid []
    match p.againMarker pid with
    | some m => sendUnit d p.lay.nextDevice 2 pid m.bytes
    | none => d

/-- A restart begun by the device whose part starts the chain (R426, R428, R477). -/
def startRestart (d : Dev) (pid : Nat) (p : Plot) : Dev :=
  let d := restartGraft (squashPlot d pid p true) pid
  let d := d.updPlot pid fun p => { p with restart := .stopped false !p.endsHere }
  match d.plot pid with
  | some p => sendRestart d pid p
  | none => d

/-- The next device of a chain can be reached, so that its head may replay (R474). -/
def Plot.reachable (d : Dev) (p : Plot) : Bool := p.endsHere || (d.routePort p.lay.nextDevice).isSome

/-- A plot stays among those that wait for a restart while its Restart unit cannot go on (R474). -/
def waitUnreached (d : Dev) (pid : Nat) (p : Plot) : Dev :=
  if p.reachable d || d.restartWait.contains pid then d else { d with restartWait := d.restartWait ++ [pid] }

/-- A stopped plot that its head restarts along the chain once more (R474, R477). -/
def restartAgain (d : Dev) (pid : Nat) (p : Plot) : Dev :=
  match p.restart with
  | .stopped f _ =>
    if p.endsHere then d
    else
      let d := d.updPlot pid fun p => { p with restart := .stopped f true }
      waitUnreached (sendRestart d pid p) pid p
  | _ => d

/-- A restart that the head device of a plot makes (R426, R477). -/
def headRestart (d : Dev) (pid : Nat) (p : Plot) : Dev :=
  if p.restart = .none then waitUnreached (startRestart d pid p) pid p else restartAgain d pid p

/-- A plot that waits for a restart gets it: begun here, or asked of the device that heads the plot (R418, R419, R425,
R428, R474, R477). -/
def plotRestart (pid : Nat) (d : Dev) : Dev :=
  if !d.restartWait.contains pid then d
  else
    let d' := { d with restartWait := d.restartWait.filter (· ≠ pid) }
    match d.plot pid with
    | none => d'
    | some p =>
      if p.startsHere then headRestart d' pid p
      else if (d.routePort p.lay.prevDevice).isSome then sendUnit d' p.lay.prevDevice 11 pid []
      else d

/-- PLOT_RESTART (R426). -/
def execPlotRestart (plot : Fin 256) (s : State) : Host.Outcome State Fault Refusal := onDev (plotRestart plot.val) s

/-! ### Restart units -/

/-- A Restart request taken: the head device starts the restart; a device in between passes the request on (R477). -/
def restartRequest (pid : Nat) (d : Dev) : Dev :=
  match d.findUnit 11 pid, d.plot pid with
  | some (i, u), some p =>
    let d := d.takeUnit i u
    if !p.startsHere then sendUnit d p.lay.prevDevice 11 pid [] else headRestart d pid p
  | some (i, u), none => d.takeUnit i u
  | none, _ => d

/-- RESTART_REQUEST (R477). -/
def execRestartRequest (plot : Fin 256) (s : State) : Host.Outcome State Fault Refusal := onDev (restartRequest plot.val) s

/-- A Restart unit taken: the device squashes its part of the plot and passes the unit on, or, at the tail, answers
Restart done (R477). A device whose own part is re-forming does so once it has re-formed. -/
def restartUnit (pn : Nat) (d : Dev) : Dev :=
  match (d.port pn).rxOf 3 with
  | none => d
  | some u =>
    match d.plot u.plot with
    | none => d.takeUnit pn u
    | some p =>
      if p.restart == .stopped true false then d
      else
        let d := restartGraft (squashPlot (d.takeUnit pn u) u.plot p true) u.plot
        let d := { d with restartWait := d.restartWait.filter (· ≠ u.plot) }
        let d := if p.endsHere then sendUnit d p.lay.prevDevice 15 u.plot []
          else waitUnreached (sendUnit d p.lay.nextDevice 3 u.plot []) u.plot p
        d.deliverPort pn

/-- RESTART_UNIT (R477). -/
def execRestartUnit (p : Fin 16) (s : State) : Host.Outcome State Fault Refusal := onDev (restartUnit p.val) s

/-- Restart done taken: the head device may replay; a device in between passes it on (R477). -/
def restartDone (pn : Nat) (d : Dev) : Dev :=
  match (d.port pn).rxOf 15 with
  | none => d
  | some u =>
    let d := d.takeUnit pn u
    match d.plot u.plot with
    | none => d
    | some p =>
      if !p.startsHere then sendUnit d p.lay.prevDevice 15 u.plot []
      else d.updPlot u.plot fun p => match p.restart with
        | .stopped f _ => { p with restart := .stopped f false }
        | _ => p

/-- RESTART_DONE (R477). -/
def execRestartDone (p : Fin 16) (s : State) : Host.Outcome State Fault Refusal := onDev (restartDone p.val) s

/-! ### Replay -/

/-- What the ingress unit makes of a replay-buffer entry as it replays it: not scored where the payload's CRC or the entry
itself is bad (R417, R419, R427). -/
def replayRec (bad ecc : List Nat) (i : Nat) (r : Rec) : Rec :=
  if ecc.contains i then { r with status := stEcc } else if bad.contains i then { r with status := stCheckValue } else r

/-- The unaccepted records of a plot passed to its heads again, in the order in which they entered (R81, R427). -/
def replayAll (d : Dev) (pid : Nat) (p : Plot) (rs : List Rec) : Dev :=
  let hs := p.heads
  let d := d.setPlot pid { p with replay := rs, rotHead := rs.length % max 1 hs.length, restart := .none }
  (tab rs.length id).foldl (fun d i =>
    match hs[i % max 1 hs.length]?, rs[i]? with
    | some h, some r => d.updCore h fun c => { c with headQueue := c.headQueue ++ [.record r] }
    | _, _ => d) d

/-- A batch any of whose records is replayed completes with CORE_FENCED (R436). -/
def noteReplayed (d : Dev) (rs : List Rec) : Dev :=
  { d with feeds := d.feeds.map fun f => if rs.any (fun r => r.src = f.src) then { f with fencedRec := true } else f }

/-- The plot is stopped with nothing left to wait for: its records are replayed and intake resumes (R426 steps 4 and 5,
R427, R428). `bad` and `ecc` are the places of the entries that fail their checks. -/
def replayPlot (d : Dev) (pid : Nat) (p : Plot) (bad ecc : List Nat) : Dev :=
  let rs := (tab p.replay.length id).filterMap fun i => (p.replay[i]?).map (replayRec bad ecc i)
  let k := (p.first.getD 0) / 64
  let d := (p.replay.zipIdx.filter fun x => ecc.contains x.2).foldl (fun d x => replayError d pid k x.1.id) d
  replayAll (noteReplayed d p.replay) pid p rs

end Sys2Proof.Machine
end

