-- ==== Sys2Proof/Machine/Patch.lean ====
section
/-! DEFINITION. What a fence makes of a plot: the patched layout, the re-placed slices, and the derived BOUND entries (R260,
R308, R433 to R435). -/
namespace Sys2Proof.Machine

/-! ### Routes and the chain -/

/-- The positions from one coordinate to another, the first left out. -/
def stepsTo (x y : Nat) : List Nat := if x < y then tab (y - x) fun i => x + 1 + i else tab (x - y) fun i => x - 1 - i

/-- The positions that a route between two cores of a cluster passes, sender and receiver left out (R132). -/
def meshPath (a b route : Nat) : List Nat :=
  let base := a / 64 * 64
  let (ra, ca) := (a % 64 / 8, a % 8)
  let (rb, cb) := (b % 64 / 8, b % 8)
  let row (r c1 c2 : Nat) : List Nat := (stepsTo c1 c2).map fun c => base + 8 * r + c
  let col (c r1 r2 : Nat) : List Nat := (stepsTo r1 r2).map fun r => base + 8 * r + c
  (if route = 0 then row ra ca cb ++ col cb ra rb else col ca ra rb ++ row rb ca cb).dropLast

/-- A route between two cores of a cluster avoids every fenced router. -/
def routeClear (fenced : Nat → Bool) (a b route : Nat) : Bool := !(meshPath a b route).any fenced

/-- The ROUTE of a new link (R433): 0 across clusters; else the first of 0 and 1 that avoids every fenced router. -/
def linkRoute (fenced : Nat → Bool) (a b : Nat) : Option Nat :=
  if a / 64 ≠ b / 64 then some 0
  else if routeClear fenced a b 0 then some 0 else if routeClear fenced a b 1 then some 1 else none

/-- Two entries stand one after the other in a list. -/
def adjacent (l : List CoreEntry) (a b : CoreEntry) : Bool :=
  (l.zip (l.drop 1)).any fun x => x.1.core = a.core && x.2.core = b.core

/-- The chain from an entry on (R433): a link that stood before keeps its ROUTE; for a new one, the first later core that
has a route moves up. It answers whether every link found one. -/
def chainFrom (fenced : Nat → Bool) (old : List CoreEntry) : Nat → CoreEntry → List CoreEntry → List CoreEntry × Bool
  | _, a, [] => ([{ a with route := 0 }], true)
  | 0, a, _ => ([{ a with route := 0 }], true)
  | fuel + 1, a, b :: rest =>
    if adjacent old a b && a.core / 64 = b.core / 64 && routeClear fenced a.core b.core a.route then
      let (t, ok) := chainFrom fenced old fuel b rest
      (a :: t, ok)
    else match (b :: rest).find? fun e => (linkRoute fenced a.core e.core).isSome with
    | some e =>
      let (t, ok) := chainFrom fenced old fuel e ((b :: rest).filter fun x => x.core ≠ e.core)
      ({ a with route := (linkRoute fenced a.core e.core).getD 0 } :: t, ok)
    | none => let (t, _) := chainFrom fenced old fuel b rest; ({ a with route := 0 } :: t, false)

/-- The entries of a plot without one core, in their new chain order, and whether every link has a route. -/
def patchChain (fenced : Nat → Bool) (old : List CoreEntry) (n : Nat) : List CoreEntry × Bool :=
  match old.filter fun e => e.core ≠ n with
  | [] => ([], true)
  | a :: rest => chainFrom fenced old rest.length a rest

/-- The surviving heads in their order; with none, the first core where the plot starts on this device (R433). -/
def newHeads (r : PlotRec) (n : Nat) (chain : List CoreEntry) : List Nat :=
  let hs := ((List.range 64).filterMap fun i => r.entries.find? fun e => e.head && e.headIndex = i).map (·.core)
  match hs.filter (· ≠ n) with
  | [] => if r.prevDevice = 0xFFFF then (chain.head?.map (·.core)).toList else []
  | hs => hs

/-- The entries of the patched plot with their roles (R433). -/
def patchEntries (fenced : Nat → Bool) (r : PlotRec) (n : Nat) : List CoreEntry × Bool :=
  let (ch, ok) := patchChain fenced r.entries n
  let hs := newHeads r n ch
  let last := (ch.getLast?.map (·.core)).getD 256
  (ch.map fun e => { e with head := hs.contains e.core, headIndex := if hs.contains e.core then hs.idxOf e.core else 0
                            tail := r.nextDevice == 0xFFFF && e.core == last }, ok)

/-! ### The patched layout image -/

/-- The 8 bytes of a core entry (R132). -/
def CoreEntry.bytes (e : CoreEntry) : Bytes :=
  toLe 2 e.core ++ toLe 1 (b2n e.head + 2 * b2n e.tail) ++ toLe 1 e.headIndex ++ toLe 1 e.route ++ toLe 3 0

/-- A plot record's 32 bytes in the patched image (R131, R433). -/
def patchRecord (b : Bytes) (pid gone : Nat) : Bytes :=
  let fe := field b 4 2
  if field b 0 2 = pid then
    let whole := field b 0x0A 2 == 0xFFFF && field b 0x0C 2 == 0xFFFF
    let b := overlay b 2 (toLe 2 (field b 2 2 - 1))
    if whole then overlay b 0x10 (toLe 2 (field b 0x10 2 - 1)) else b
  else if gone < fe then overlay b 4 (toLe 2 (fe - 1)) else b

/-- The layout image with a plot's entry at index `gone` removed and the plot's entries rewritten from `first` on (R433). -/
def patchImage (img : Bytes) (pid gone first : Nat) (es : List CoreEntry) : Bytes :=
  let np := field img 6 2
  let ne := field img 0x12 2
  let eo := 64 + 32 * np
  let recs := (tab np fun i => patchRecord (slice img (64 + 32 * i) 32) pid gone).flatten
  let ents := (((List.range ne).filter (· ≠ gone)).map fun j => slice img (eo + 8 * j) 8).flatten
  let ents := overlay ents (8 * first) (es.map CoreEntry.bytes).flatten
  let h := overlay (overlay (slice img 0 64) 8 (toLe 4 (img.length - 8))) 0x12 (toLe 2 (ne - 1))
  let b := h ++ recs ++ ents ++ img.drop (eo + 8 * ne)
  overlay b 0x0C (toLe 4 (crcZeroed b 0x0C))

/-- The plot records in force follow a patched layout. -/
def Dev.relay (d : Dev) (img : Bytes) : Dev :=
  let l := parseLayout img
  let d := { d with layout := some l, layoutImage := img }
  l.plots.foldl (fun d r => d.updPlot r.plotId fun p => { p with lay := r }) d

/-- A fenced core's entry removed from its plot (R433): the patched device, and whether every link has a route. -/
def patchCore (d : Dev) (pid n : Nat) : Dev × Bool :=
  match d.plot pid with
  | none => (d, true)
  | some p =>
    let (es, ok) := patchEntries (fun k => (d.core k).fenced) p.lay n
    let pos := p.cores.idxOf n
    (d.relay (patchImage d.layoutImage pid (p.lay.firstEntry + pos) p.lay.firstEntry es), ok)

/-! ### Moved trees -/

/-- The nodes of a tree by level, each with its comparisons and path bits, and its leaf records likewise, with `fuel` stages
left (R115, R152). -/
def treeLevels (sl : Slice) (stride : Nat) : Nat → Nat → List (Nat × Nat × Nat) →
    List (List (Nat × Nat × Nat)) × List (Nat × Nat × Nat)
  | 0, _, _ => ([], [])
  | _, _, [] => ([], [])
  | fuel + 1, k, ns =>
    let node (i : Nat) : Node := Node.ofWord (at' 0 (at' [] sl.stages k) i)
    let recs (i d p : Nat) : List (Nat × Nat × Nat) := tab stride fun j => (i + j, d, p)
    let next := ns.flatMap fun (i, d, p) =>
      let n := node i
      if n.terminal then [] else [(n.left, d + 1, p), (n.left + 1, d + 1, p + 2 ^ d)]
    let here := ns.flatMap fun (i, d, p) =>
      let n := node i
      if n.pad then recs n.left d p
      else if n.terminal then recs n.left (d + 1) p ++ recs (n.left + stride) (d + 1) (p + 2 ^ d) else []
    let (ls, lv) := treeLevels sl stride fuel (k + 1) next
    (ns :: ls, here ++ lv)

/-- A place put into a list in ascending order of its index. -/
def insertPlace (x : Nat × Nat × Nat) : List (Nat × Nat × Nat) → List (Nat × Nat × Nat)
  | [] => [x]
  | y :: ys => if x.1 ≤ y.1 then x :: y :: ys else y :: insertPlace x ys

/-- Places in ascending order of their index. -/
def sortPlaces (l : List (Nat × Nat × Nat)) : List (Nat × Nat × Nat) := l.foldr insertPlace []

/-- The rank of an index among places. -/
def rankOf (l : List (Nat × Nat × Nat)) (i : Nat) : Nat := (l.map (·.1)).idxOf i

/-- A node entry with another LEFT and its CRC (R114, R116, R308). -/
def relink (e left : Nat) : Nat :=
  let e := e - bits e 16 20 * 2 ^ 16 + left % 2 ^ 20 * 2 ^ 16
  e - e % 256 + nodeCrc (e - e % 256)

/-- A leaf record signed for another slot (R117, R119, R434). -/
def resign (l slot d p : Nat) : Nat := l % 2 ^ 48 + pathSignature slot d p * 2 ^ 48

/-- Tree `t` of a slice placed at slot `slot` of another, after everything already present there (R308, R434). -/
def moveTree (fold stride : Nat) (src : Slice) (t slot : Nat) (dst : Slice) : Slice :=
  let (g, s) := foldGS fold
  let k0 := t % g * s
  let (ls, lv) := treeLevels src stride s k0 [(t / g, 0, 0)]
  let ls := ls.map sortPlaces
  let lv := sortPlaces lv
  let stage (l : Nat) : List Nat := at' [] dst.stages (k0 + l)
  let entry (l : Nat) (x : Nat × Nat × Nat) : Nat :=
    let e := at' 0 (at' [] src.stages (k0 + l)) x.1
    let n := Node.ofWord e
    relink e (if n.terminal then dst.leaves.length + rankOf lv n.left
      else (stage (l + 1)).length + rankOf (at' [] ls (l + 1)) n.left)
  { dst with
    stages := tab 16 fun k =>
      if k0 ≤ k && k < k0 + s then at' [] dst.stages k ++ (at' [] ls (k - k0)).map (entry (k - k0)) else at' [] dst.stages k
    leaves := dst.leaves ++ lv.map fun (i, d, p) => resign (at' 0 src.leaves i) slot d p
    keybase := if src.keybase.isEmpty then dst.keybase else dst.keybase ++ [at' 0 src.keybase t] }

/-- Group `j` of a lost slice added to a surviving one (R434 steps 2 to 4). -/
def addGroup (fold stride : Nat) (lost : Slice) (j : Nat) (dst : Slice) : Slice :=
  let g := (foldGS fold).1
  let s := (tab g id).foldl (fun (s : Slice) i => moveTree fold stride lost (j * g + i) (dst.slots + i) s) dst
  { s with slots := dst.slots + g }

/-- The surviving slices, in chain order, with a lost one re-placed onto them (R434). -/
def replaceLost (fold stride : Nat) (lost : Slice) (live : List Slice) : List Slice :=
  (tab (lost.slots / (foldGS fold).1) id).foldl (fun l j =>
    match l[j % l.length]? with
    | some s => setAt l (j % l.length) (addGroup fold stride lost j s)
    | none => l) live

/-! ### Derived BOUND entries -/

/-- A leaf's VALUE as a running-sum slot: FP32, or FX48 sign-extended. -/
def leafSlot (g : GroveInfo) (l : Nat) : Nat := if g.valueFmt = 1 then ofInt 64 (sext 32 (leafValue l)) else leafValue l

/-- The least and greatest VALUE of a tree's leaves; on the FP32 path a NaN makes both NaN (R260). -/
def treeBounds (g : GroveInfo) (sl : Slice) (t : Nat) : Nat × Nat :=
  let (gs, s) := foldGS g.fold
  let vs := (treeLevels sl 1 s (t % gs * s) [(t / gs, 0, 0)]).2.map fun x => leafSlot g (at' 0 sl.leaves x.1)
  if vs.any (slotNan g) then (0x7FC00000, 0x7FC00000)
  else match vs with
  | [] => (0, 0)
  | v :: t => (t.foldl (fun m x => if slotLt g x m then x else m) v, t.foldl (fun m x => if slotLt g m x then x else m) v)

/-- Two pairs of bounds added: FX48 exactly, FP32 toward −∞ for LO and toward +∞ for HI (R260). -/
def addBounds (g : GroveInfo) (a b : Nat × Nat) : Nat × Nat :=
  if g.valueFmt = 1 then (fxAdd a.1 b.1, fxAdd a.2 b.2)
  else ((fAdd .fp32 .rdn a.1 b.1).1, (fAdd .fp32 .rup a.2 b.2).1)

/-- The sum of a round's trees in ascending slot order (R260). -/
def roundBounds (g : GroveInfo) (sl : Slice) (r : Nat) : Nat × Nat :=
  (roundSlots g.fold sl.slots r).foldl (fun s t => addBounds g s (treeBounds g sl t)) (0, 0)

/-- The entries of a slice from the running sum of the later slices, and the running sum after it (R260). -/
def sliceBounds (g : GroveInfo) (sl : Slice) (run : Nat × Nat) : List (Nat × Nat) × (Nat × Nat) :=
  let n := roundsOf g.fold sl.slots
  (tab n id).foldl (fun s i =>
    let run := addBounds g s.2 (roundBounds g sl (n - 1 - i))
    (run :: s.1, run)) ([run], run)

/-- The slices of a plot on the device with their derived BOUND entries (R260). -/
def deriveBounds (g : GroveInfo) (ss : List Slice) : List Slice :=
  if !g.prune then ss
  else (ss.foldr (fun sl s => let (b, run) := sliceBounds g sl s.2; ({ sl with bounds := b } :: s.1, run))
    (([], (0, 0)) : List Slice × (Nat × Nat))).1

end Sys2Proof.Machine
end

