-- ==== Sys2Proof/Machine/Fence.lean ====
section
/-! DEFINITION. Fencing a core: the fence itself, the re-placement and its failure, and the replay that follows (R280, R416
to R420, R429 to R437). -/
namespace Sys2Proof.Machine

/-! ### The fence -/

/-- DETAIL of an error record about a core's fault (R439). -/
def faultDetail (c : Core) (f : Detected) : Bytes :=
  if 1 ≤ f.source && f.source ≤ 3 then toLe 5 c.regs.descFaultA.toNat ++ toLe 7 c.regs.descFaultB.toNat else f.detail

/-- The error record of a core's fence (R430 step 9, R438, R445). -/
def reportFence (d : Dev) (pid : Nat) (f : Detected) : Dev :=
  let seq := d.err.seqNext.toNat
  let r := { errRec f.status f.source 2 0 f.core with
    plot := pid, version := f.version, recordId := f.recordId, detail := faultDetail (d.core f.core) f }
  (d.report r).updCore f.core fun c => { c with errSeq := BitVec.ofNat 32 seq }

/-- A core shut behind its gates (R429 to R431): its contexts and what it held are discarded, its tiles and chunk store
freed. -/
def Core.shut (c : Core) (st : Status) : Core :=
  { c with fenced := true, cause := st, acc := [], chunk := [], tiles := [], headQueue := [], headWork := [], headOut := [],
           binLane := [], sumLane := [], ctxs := [] }

/-- A descriptor in progress, its last writes acknowledged or not, whose work includes a core of a plot (R432); scoring has its own
rule (R436), a graft is ended under R280 and a load under R143. -/
def workOn (n : Nat) (pid : Option Nat) (j : Job) : Bool :=
  !j.ended && !(List.contains [0x11, 0x13, 0x20, 0x21, 0x22] j.desc.code) &&
  (j.tiles.any (fun w => bits w 0 8 == n) || (j.plot.isSome && j.plot == pid))

/-- The descriptors affected by a fence end with CORE_FENCED (R432). -/
def endAffected (d : Dev) (n : Nat) (pid : Option Nat) : Dev :=
  ((d.jobs.filter (workOn n pid)).map (·.id)).foldl (fun d id => d.abortJob id stCoreFenced) d

/-- The shadow pair of a plot cleared in every core, its image copy freed (R143, R280, R430 step 8). -/
def clearShadows (d : Dev) (pid : Nat) : Dev :=
  match d.plot pid with
  | none => d
  | some p => (d.updCores p Core.clearShadow).updPlot pid fun p => { p with shadowGrove := none }

/-- A LOAD_GROVE of a plot that a fence still finds in progress (R143): its completion has not run, and where it makes the grove
active, no record and no descriptor has come to the grove (log 56). -/
def loadOpen (d : Dev) (pid : Nat) (p : Plot) (j : Job) : Bool :=
  j.desc.code == 0x11 && j.plot == some pid && j.status == 0 &&
  (!bit (j.desc.op 0x1E 2) 0 || (p.replay.isEmpty && p.cores.all (fun n => (d.core n).drained) &&
    d.feeds.all (fun f => f.plot != pid) && d.jobs.all fun k => k.id == j.id || k.plot != some pid))

/-- A LOAD_GROVE ended by a fence: what it wrote is cleared, and the active grove that stood before it stands (R143). -/
def fenceLoad (pid : Nat) (d : Dev) (j : Job) : Dev :=
  let d := d.abortJob j.id stCoreFenced
  if bit (j.desc.op 0x1E 2) 1 then d
  else (if bit (j.desc.op 0x1E 2) 0 then evictActive d pid else clearShadows d pid).updPlot pid Plot.settle

/-- The loads of a plot that a fence ends (R143, R432). -/
def fenceLoads (d : Dev) : Option (Nat × Plot) → Dev
  | none => d
  | some (pid, p) => (d.jobs.filter (loadOpen d pid p)).foldl (fenceLoad pid) d

/-- The marker of a plot's graft is placed: at its entry, or on a later device come into one of its lanes, which `ms` adds those
of the fenced core to (R280). -/
def graftPlaced (d : Dev) (p : Plot) (g : GraftState) (ms : List BinMsg) : Bool :=
  g.placed || (!p.startsHere && (markerCame d p g.newVersion || ms.any fun m => match m with
    | .marker b _ _ => (parseMarker b).newVersion == g.newVersion
    | .bins _ _ _ _ _ => false))

/-- A graft met by a fence before its marker is placed ends, the shadow cleared; after it the swap stands and the plot holds
the new grove alone (R280). -/
def fenceGraft (d : Dev) (pid : Nat) (p : Plot) (ms : List BinMsg) : Dev :=
  match p.graft with
  | none => d.updPlot pid Plot.moveLast
  | some g =>
    if !graftPlaced d p g ms then
      ((clearShadows d pid).updPlot pid fun p => { p with graft := none }).finishJob g.job stCoreFenced
    else
      let new := if g.drain && g.released then p.activeGrove else p.shadowGrove
      ((d.updCores p fun c => { c with markVersion := g.newVersion }).updPlot pid fun p =>
        { p.moveMarks with graft := none, heldCore := none, entryMarker := none, grafts := p.grafts + 1, lastDrained := g.drain
                           switchMoved := true, activeGrove := new, shadowGrove := none }).finishJob g.job stCoreFenced

/-- The units that tell the other devices of a chain of a fence's restart (R428, R477), with the marker of a swap that
stands. -/
def fenceUnits (d : Dev) (pid : Nat) (p : Plot) : Dev :=
  if !p.startsHere then
    if (d.routePort p.lay.prevDevice).isSome then sendUnit d p.lay.prevDevice 11 pid []
    else { d with restartWait := d.restartWait ++ [pid] }
  else if p.endsHere then d
  else
    let d := waitUnreached (sendUnit d p.lay.nextDevice 3 pid []) pid p
    match (d.plot pid).bind fun q => q.againMarker pid with
    | some m => sendUnit d p.lay.nextDevice 2 pid m.bytes
    | none => d

/-- The markers that a fenced core of a later device held go to the next live core of the chain, or on to the next device: none
is dropped (R272, R426, R431). -/
def rehome (d : Dev) (pid : Nat) (p : Plot) (n : Nat) (ms : List BinMsg) : Dev :=
  match ((p.cores.dropWhile (· ≠ n)).drop 1).find? fun k => !(d.core k).fenced with
  | some k => d.updCore k fun c => { c with binLane := c.binLane ++ ms }
  | none => if p.endsHere then d else ms.foldl (fun d m => match m with
      | .marker b _ _ => sendUnit d p.lay.nextDevice 2 pid b
      | .bins _ _ _ _ _ => d) d

/-- A plot of a fenced core, whose lane held the markers `ms`: steps 3 and 5 of R430. Every chain reduction of the plot ends with
the fence, and its packets go (R432). -/
def fencePlot (d : Dev) (pid : Nat) (p : Plot) (f : Detected) (ms : List BinMsg) : Dev :=
  let d := { d with restartWait := d.restartWait.filter (· ≠ pid) }
  let d := fenceGraft (squashPlot d pid p false) pid p ms
  let d := if p.startsHere then d else rehome d pid p f.core ms
  let d := d.updPlot pid fun q =>
    { q with fences := q.fences ++ [{ f with version := versionOf p.activeGrove }]
             heldCore := if q.heldCore = some f.core then none else q.heldCore
             state := if q.activeGrove.isSome then .reforming else q.state
             restart := if q.restart = .failed then .failed else .stopped true (p.startsHere && !p.endsHere) }
  fenceUnits d pid p

/-- A fence's steps 1 to 5 (R430), for a core not yet fenced. -/
def fenceCore (d : Dev) (f : Detected) : Dev :=
  let d := fenceLoads { d with err := { d.err with status := setBit d.err.status 1 } } (d.plotOf f.core)
  let at_ := d.plotOf f.core
  let ms := (d.core f.core).binLane.filter BinMsg.isMarker
  let d := endAffected (d.updCore f.core fun c => c.shut f.status) f.core (at_.map (·.1))
  match at_ with
  | some (pid, p) => fencePlot d pid p f ms
  | none => reportFence d 0xFFFF f

/-- A fault reported of a core that is fenced already (R420). -/
def reportLate (d : Dev) (f : Detected) : Dev :=
  d.report { errRec f.status f.source 0 0 f.core with recordId := f.recordId, detail := faultDetail (d.core f.core) f }

/-- The fault that a fence of a core takes up: the oldest that waits, or one met outside a step (R416). -/
def faultOf (d : Dev) (n : Nat) (u : Upset) : Option Detected :=
  match d.detected.find? fun f => f.core = n with
  | some f => some f
  | none => u.stepFault.map fun (st, src, det) => ⟨n, st, src, det, none, 0⟩

/-- FENCE: the core's fault is taken up (R416, R420, R430, R437). -/
def fence (n : Nat) (u : Upset) (s : State) : State :=
  match faultOf s.dev n u with
  | none => s
  | some f =>
    let d := { s.dev with detected := dropFirst (· == f) s.dev.detected }
    if !s.live then s
    else if (d.core n).fenced then { s with dev := reportLate d f }
    else { s with dev := fenceCore d f, mc := { s.mc with fences := Tbl.upd 0 n (· + 1) s.mc.fences } }

/-- FENCE (R430). -/
def execFence (core : Fin 256) (u : Upset) (s : State) : Host.Outcome State Fault Refusal := .next (fence core.val u s)

/-! ### Results without scores -/

/-- The result of a record that a failed re-placement leaves unscored (R435). -/
def unscoredResult (g : Grove) (r : Rec) : ResultRec :=
  let f := parseFin g.info.finish
  { recordId := r.id, ecv := r.ecv, version := 0, status := stCoreFenced, sflags := 0, nflags := 0, rflags := 4
    outFmt := f.outFmt, winner := 0xFFFFFFFF, area := List.replicate (outBytes f g.info.outputs g.info.prune) 0#8 }

/-- One such result goes to its record's destination, as egress writes any result (R231 to R233, R435): whether it could. -/
def deliverUnscored (d : Dev) (env : Env) (pid : Nat) (p : Plot) (g : Grove) (r : Rec) : Dev × Bool :=
  let b := (unscoredResult g r).bytes
  let accept (d : Dev) : Dev := acceptRecord d pid p r.src r.stream r.seq stCoreFenced 0
  match d.feed r.src with
  | none => (accept d, true)
  | some f =>
    match f.dstKind with
    | 0 =>
      let t : TxResult := ⟨pid, 256, 0, r.src, r.stream, r.seq, stCoreFenced, 0, b⟩
      if d.remoteResults.any (fun x => x.2 == t) then (d, true)
      else if goesRemote d f r.q then (noteRemote d (memResult d f r.q b) t, true)
      else (accept (memResult d f r.q b), true)
    | 1 =>
      if !ringRoom d f.chan then (d, false)
      else let (d, ok) := ringResult d env f.chan f.src.jobId b; if ok then (accept d, true) else (d, false)
    | 3 =>
      let t : TxResult := ⟨pid, 256, 0, r.src, r.stream, r.seq, stCoreFenced, 0, b⟩
      if (d.port f.dst).txResults.contains t then (d, true)
      else (d.updPort f.dst fun po => { po with txResults := po.txResults ++ [t] }, true)
    | _ => (accept d, true)

/-- The unaccepted records of a failed plot in stream order, each source stopping at the first result that must wait
(R233, R435). -/
def unscoredAll (env : Env) (pid : Nat) (p : Plot) (g : Grove) : List Rec → List Src → Dev → Dev
  | [], _, d => d
  | r :: rs, held, d =>
    if held.contains r.src then unscoredAll env pid p g rs held d
    else
      let (d, ok) := deliverUnscored d env pid p g r
      unscoredAll env pid p g rs (if ok then held else r.src :: held) d

/-- The frames of a batch that have not entered take their sequence numbers (R435), `fuel` of them at most. -/
def drainBatch (env : Env) (pid : Nat) : Nat → Src → Dev → Dev
  | 0, _, d => d
  | fuel + 1, s, d =>
    match d.feed s with
    | none => d
    | some f =>
      if f.ended || f.gated || f.stop < f.pos + 16 then d
      else drainBatch env pid fuel s (takeFrame d env pid 0 f 1 false)

/-- A failed plot's batches take all their frames, and its records' results go out as far as there is room (R435, R436). -/
def failPlot (d : Dev) (env : Env) (pid : Nat) : Dev :=
  let fs := d.feeds.filter fun f => f.plot = pid && (match f.src with | .job _ => true | .task _ => false)
  let d := fs.foldl (fun d f => drainBatch env pid ((f.stop - f.pos) / 16 + 1) f.src d) d
  let d := { d with feeds := d.feeds.map fun (f : Feed) => if fs.any (fun g => g.src = f.src) then { f with fencedRec := true } else f }
  match d.plot pid with
  | none => d
  | some p =>
    let d := p.cores.foldl (fun d n => d.updCore n fun c => { c with headQueue := [] }) d
    match p.activeGrove with
    | some g => unscoredAll env pid p g p.replay [] d
    | none => d

/-! ### Re-placement -/

/-- The slices of a plot's cores, by core. -/
def sliceTable (p : Plot) (g : Grove) : List (Nat × Slice) := p.cores.zip g.slices

/-- The fenced cores that are still in a plot's chain. -/
def fencedIn (d : Dev) (p : Plot) : List Nat := p.cores.filter fun n => (d.core n).fenced

/-- The layout patched for each fenced core of a plot (R433). -/
def patchAll (d : Dev) (pid : Nat) (ns : List Nat) : Dev × Bool :=
  ns.foldl (fun s n => let (d, ok) := patchCore s.1 pid n; (d, s.2 && ok)) (d, true)

/-- The device region that holds a plot's image copies cannot be read (R419, R435): an uncorrectable error in it. -/
def copyBad (env : Env) (k : Nat) : Bool := env.ecc.any fun x => overlaps x.1 x.2 (k * hbmBytes + 0x3B80000000) 0x80000000

/-- The slices of the surviving cores in their new chain order (R260, R434). -/
def newSlices (g : Grove) (table : List (Nat × Slice)) (cores lost : List Nat) : List Slice :=
  let of' (n : Nat) : Slice := ((table.find? fun x => x.1 = n).map (·.2)).getD ⟨0, [], [], [], []⟩
  let stride := strideOf g.info.valueFmt g.info.outputs
  deriveBounds g.info (lost.foldl (fun l n => replaceLost g.info.fold stride (of' n) l) (cores.map of'))

/-- A re-placed slice with the grove-wide settings in a core's active pair, its shadow pair cleared (R430 step 8). -/
def Core.install (c : Core) (g : GroveInfo) (s : Slice) (e : CoreEntry) : Core :=
  let c := c.setPair (1 - c.active) none
  let c := c.setPair c.active (some ⟨g, s, if e.tail then some (parseFin g.finish) else none, g.prune⟩)
  if !e.head then { c with sieveActive := none, sieveShadow := none }
  else if c.sieveActive.any fun t => t.2 == g.sieve then { c with sieveShadow := none } else c.replaceSieve g.sieve

/-- Every surviving core of a plot written (R430 step 8). -/
def installAll (d : Dev) (p : Plot) (g : GroveInfo) (ss : List Slice) : Dev :=
  (p.lay.entries.zip ss).foldl (fun d x => d.updCore x.1.core fun c => c.install g x.2 x.1) d

/-- The error records of a plot's fences (R430 step 9). -/
def reportFences (d : Dev) (pid : Nat) : Dev :=
  match d.plot pid with
  | none => d
  | some p =>
    (p.fences.foldl (fun d f => reportFence d pid f) d).updPlot pid fun p => { p with fences := [] }

/-- The restart of a plot once its fence's re-placement is over: the device that starts the chain replays (R428). -/
def Restart.replaced (startsHere : Bool) : Restart → Restart
  | .stopped _ r => if startsHere then .stopped false r else .none
  | r => r

/-- A re-placement that fails leaves the plot REFORMING with its intake held (R435). -/
def failReplacement (d : Dev) (env : Env) (pid : Nat) : Dev :=
  let d := (clearShadows d pid).updPlot pid fun p => { p with restart := .failed, held := true, state := .reforming }
  failPlot (reportFences d pid) env pid

/-- Steps 7 to 9 of R430 for a plot whose layout is patched. -/
def replaceSlices (d : Dev) (env : Env) (pid : Nat) (g : Grove) (table : List (Nat × Slice)) (lost : List Nat) (routed : Bool) : Dev :=
  match d.plot pid with
  | none => d
  | some p =>
    let ss := newSlices g table p.cores lost
    if p.cores.isEmpty || !routed || copyBad env p.cluster || !ss.all (fun s => capacityOk g.info.fold s && featuresOk g.info.fold s)
    then failReplacement d env pid
    else
      let d := (installAll d p g.info ss).updPlot pid fun p =>
        { p with activeGrove := some { g with slices := ss }, shadowGrove := none, state := .active
                 restart := p.restart.replaced p.startsHere }
      reportFences d pid

/-- Steps 6 to 9 of R430 (R433 to R435). A plot without an active grove is patched alone, its shadow cleared (R282). -/
def rePlacement (pid : Nat) (env : Env) (d : Dev) : Dev :=
  match d.plot pid with
  | none => d
  | some p =>
    let lost := fencedIn d p
    if lost.isEmpty then d
    else
      let (d, routed) := patchAll d pid lost
      if p.restart = .failed then reportFences d pid
      else match p.activeGrove with
      | some g => replaceSlices d env pid g (sliceTable p g) lost routed
      | none =>
        reportFences ((clearShadows d pid).updPlot pid fun p =>
          { p with state := .empty, restart := p.restart.replaced p.startsHere }) pid

/-- RE_PLACEMENT (R434). -/
def execRePlacement (plot : Fin 256) (env : Env) (s : State) : Host.Outcome State Fault Refusal :=
  onDev (rePlacement plot.val env) s

/-! ### Replay -/

/-- Step 4 of R426 where nothing is left to wait for; on a failed plot, results that had to wait go out (R435). -/
def plotReplay (pid : Nat) (bad ecc : List Nat) (d : Dev) : Dev :=
  match d.plot pid with
  | none => d
  | some p =>
    if p.restart = .failed then failPlot d {} pid
    else if p.restart = .stopped false false && p.startsHere && p.reachable d then replayPlot d pid p bad ecc
    else d

/-- PLOT_REPLAY (R427). -/
def execPlotReplay (plot : Fin 256) (bad ecc : List Nat) (s : State) : Host.Outcome State Fault Refusal :=
  onDev (plotReplay plot.val bad ecc) s

end Sys2Proof.Machine
end

