-- ==== Sys2Proof/Machine/Hist.lean ====
section
/-! DEFINITION. Histogram mode: HIST_BUILD, SPLIT_FIND, PARTITION and LEAF_FIT (R286 to R312). -/
namespace Sys2Proof.Machine

/-- HIST_INVALID (R313). -/
def stHistInvalid : Status := 0x1070
/-- TREE_INVALID. -/
def stTreeInvalid : Status := 0x1071
/-- TRAIN_RANGE. -/
def stTrainRange : Status := 0x2070

/-! ### Node words, maps and sets -/

/-- EXCLUDED (R288). -/
def nodeExcluded : Nat := 0xFFFFFFFF

/-- The forms of a node word (R288). -/
inductive NodeWord where
  | active (n : Nat)
  | done
  | excluded
  | bad
deriving DecidableEq, Repr

/-- The form of a node word's value (R288). -/
def NodeWord.of (w : Nat) : NodeWord :=
  if w < 4096 then .active w else if w = nodeExcluded then .excluded
  else if 0x80000000 ≤ w && w < 0x80100000 then .done else .bad

/-- A valid column of a feature map: its place, feature and number of bins (R290). -/
structure Column where
  k : Nat
  feature : Nat
  nbins : Nat
deriving DecidableEq, Repr

/-- A feature map (R290). -/
structure FeatureMap where
  cores : Nat
  slots : Nat
  binStride : Nat
  words : List Nat
deriving DecidableEq, Repr

/-- The map that bytes spell. -/
def parseMap (b : Bytes) : FeatureMap :=
  { cores := field b 2 2, slots := field b 4 2, binStride := field b 6 2
    words := tab (field b 2 2 * field b 4 2) fun i => field b (0x10 + 4 * i) 4 }

/-- The bytes of a map whose first 16 bytes are given. -/
def mapBytes (h : Bytes) : Nat := 16 + 4 * field h 2 2 * field h 4 2

/-- The valid columns of the core at chain position `p`, in ascending k. -/
def FeatureMap.columns (m : FeatureMap) (p : Nat) : List Column :=
  (List.range m.slots).filterMap fun k =>
    let w := at' 0 m.words (p * m.slots + k)
    if bit w 31 then some ⟨k, bits w 0 12, bits w 12 9⟩ else none

/-- Every valid column of the map. -/
def FeatureMap.all (m : FeatureMap) : List Column := (List.range m.cores).flatMap m.columns

/-- The features of a list of columns are distinct. -/
def distinctFeatures : List Column → Bool
  | [] => true
  | c :: t => !t.any (fun x => x.feature = c.feature) && distinctFeatures t

/-- The rules of R290 on a map's bytes for a plot of so many cores. -/
def mapOk (b : Bytes) (cores : Nat) : Bool :=
  let m := parseMap b
  field b 0 2 == 1 && crcZeroed b 8 == field b 8 4 && zeroFrom b 0xC 0x10 && m.cores == cores && 1 ≤ m.slots && m.slots ≤ 512 &&
  8 ≤ m.binStride && m.binStride ≤ 8192 && m.binStride % 8 == 0 &&
  m.words.all (fun w => if bit w 31 then bits w 21 10 == 0 else w == 0) &&
  m.all.all (fun c => 2 ≤ c.nbins && c.nbins ≤ 256 && 2 * c.feature + 2 ≤ m.binStride) && distinctFeatures m.all && !m.all.isEmpty

/-- What R291 asks of a set's tile whatever the map. -/
def setForm (w nodes : Nat) : Bool :=
  let t := TileWord.of w
  t.core == 0 && t.mode == 0 && t.col0 == 0 && t.cols == 64 && t.rows % (8 * max 1 nodes) == 0

/-- The tile's rows are those of the map's columns (R291), and the set fits (R293). -/
def setOk (w nodes slots : Nat) : Bool := (TileWord.of w).rows == 8 * nodes * slots && nodes * slots ≤ 512

/-- The state checks of a histogram set in every core of a plot (R176, R177, R184, R291). -/
def setState (d : Dev) (p : Plot) (w : Nat) : List (Bool × Status) := p.cores.flatMap fun n => tileState d (atCore w n)

/-- The tiles of a set, one in each core (R183, R309). -/
def setTiles (p : Plot) (w : Nat) : List Nat := p.cores.map (atCore w)

/-- The state checks of a histogram-mode descriptor on its plot (R286). -/
def trainState (d : Dev) (pid : Nat) : List (Bool × Status) := [(!(d.plot pid).any (·.trains), stStateConflict)]

/-- The map at an address with the checks of R290, then what follows. -/
def withMap (d : Dev) (env : Env) (a cores : Nat) (f : FeatureMap → Verdict) : Verdict :=
  if !d.addrOk .read false a 16 then .reject stAddressInvalid
  else match d.readG env a 16 with
    | .error e => .fail e
    | .ok h =>
      if field h 2 2 ≠ cores || 512 < field h 4 2 then .reject stHistInvalid
      else if !d.addrOk .read false a (mapBytes h) then .reject stAddressInvalid
      else match d.readG env a (mapBytes h) with
        | .error e => .fail e
        | .ok b => if mapOk b cores then f (parseMap b) else .reject stHistInvalid

/-- The map at an address as it stands. -/
def mapNow (d : Dev) (j : Job) (a : Nat) : FeatureMap := parseMap (d.blockOf j a (mapBytes (d.blockOf j a 16)))

/-- A condition of histogram mode counted in a core (R312): 0 bin range, 1 node range, 2 excluded. -/
def Core.histEvent (c : Core) (i : Nat) : Core :=
  let (st, cnt) := event c.regs.histStatus c.regs.histCnt i
  let r := { c.regs with histStatus := st, histCnt := cnt }
  { c with regs := r }

/-- Records handled in histogram mode (R311): every 4,096 of a core add one to its progress. -/
def Core.trainWork (c : Core) (n : Nat) : Core := { c with trained := (c.trained + n) % 4096 }.work ((c.trained + n) / 4096)

/-! ### HIST_BUILD -/

/-- The operands of a HIST_BUILD (R293). -/
structure HistOps where
  tile : Nat
  grad : Nat
  bins : Nat
  map : Nat
  count : Nat
  plot : Nat
  first : Nat
  nodes : Nat
  acc : Nat
  parity : Nat
  chunk : Nat
deriving DecidableEq, Repr

/-- The operand fields of a HIST_BUILD. -/
def histOps (x : Desc) : HistOps :=
  { tile := x.op 0x10 8, grad := x.op 0x18 8, bins := x.op 0x20 8, map := x.op 0x28 8, count := x.op 0x30 4, plot := x.op 0x34 2
    first := x.op 0x36 2, nodes := x.op 0x38 2, acc := bits (x.op 0x3A 1) 0 2, parity := bits (x.op 0x3A 1) 2 1
    chunk := x.op 0x3B 1 }

/-- The operand rules of R293. -/
def histForm (x : Desc) : List (Bool × Status) :=
  let o := histOps x
  tileForm (o.tile) ++
  [(o.grad % 64 != 0 || o.bins % 8 != 0 || o.map % 64 != 0 || o.count == 0 || 4095 < o.first || o.nodes == 0 || 512 < o.nodes ||
     4096 < o.first + o.nodes || 8 ≤ x.op 0x3A 1 || o.acc == 3 || !setForm o.tile o.nodes ||
     (if o.acc = 2 then o.chunk != 0 else !(o.chunk == 0 || (4 ≤ o.chunk && o.chunk ≤ 64))), stHistInvalid)]

/-- HIST_BUILD's checks (R286, R290, R291, R293). -/
def checkHist (d : Dev) (x : Desc) (env : Env) : Verdict :=
  let o := histOps x
  match d.plot o.plot with
  | none => checks (histForm x ++ [(true, stStateConflict)])
  | some p =>
    (checks (histForm x ++ trainState d o.plot ++ setState d p o.tile ++
      [(!d.addrOk .read false o.grad (16 * o.count), stAddressInvalid)])).andThen
    (fun _ => withMap d env o.map p.lay.coreCount fun m =>
      checks [(!setOk o.tile o.nodes m.slots, stHistInvalid),
        (!d.addrOk .read false o.bins (m.binStride * o.count), stAddressInvalid)])

/-- The node word of a gradient record (R287). -/
def nodeWord (d : Dev) (env : Env) (grad r parity : Nat) : Nat := le (d.readOr env (grad + 16 * r + 8 + 4 * parity) 4)

/-- The row and column of a histogram cell: `h` is 0 for G and 1 for H (R291). -/
def cellAt (slots n k b h : Nat) : Nat × Nat := (8 * (n * slots + k) + b / 32, 2 * (b % 32) + h)

/-- A core's HIST_BUILD in progress: the core, its chunk store by cell (value and count), the flags, whether a bin or
node word was out of range, and whether a bin of the present record was. -/
structure HistSt where
  core : Core
  chunks : Tbl (Nat × Nat)
  flags : NFlags
  range : Bool
  bad : Bool

/-- A cell's chunk promoted into its FP32 total (R187, R294). -/
def promoteCell (t : TileWord) (fmt : Fmt) (cell : Nat) (v : Nat) (c : Core) : Core × NFlags :=
  let (w, f1) := convert fmt 0 .fp32 0 .rne v
  let (s, f2) := fAdd .fp32 .rne (c.elem t (cell / 64) (cell % 64)) w
  (c.setElem t (cell / 64) (cell % 64) s, f1 ||| f2)

/-- One value added into a cell (R294): directly, or through its chunk column. -/
def addCell (o : HistOps) (t : TileWord) (s : HistSt) (cell v : Nat) : HistSt :=
  if o.acc = 2 then
    let (x, f) := fAdd .fp32 .rne (s.core.elem t (cell / 64) (cell % 64)) v
    { s with core := s.core.setElem t (cell / 64) (cell % 64) x, flags := s.flags ||| f }
  else
    let fmt : Fmt := if o.acc = 0 then .bf16 else .fp16
    let (u, f1) := convert .fp32 0 fmt 0 .rne v
    let old := Tbl.get (0, 0) cell s.chunks
    let (x, f2) := fAdd fmt .rne old.1 u
    if old.2 + 1 = (if o.chunk = 0 then 16 else o.chunk) then
      let (c, f3) := promoteCell t fmt cell x s.core
      { s with core := c, chunks := Tbl.del cell s.chunks, flags := s.flags ||| f1 ||| f2 ||| f3 }
    else { s with chunks := Tbl.set (0, 0) cell (x, old.2 + 1) s.chunks, flags := s.flags ||| f1 ||| f2 }

/-- One column of one record in the node range (R294). -/
def histColumn (d : Dev) (env : Env) (o : HistOps) (m : FeatureMap) (t : TileWord) (r n : Nat) (s : HistSt) (col : Column) : HistSt :=
  let b := le (d.readOr env (o.bins + r * m.binStride + 2 * col.feature) 2)
  if col.nbins ≤ b then { s with bad := true }
  else
    let cell (h : Nat) : Nat := let p := cellAt m.slots n col.k b h; 64 * p.1 + p.2
    let g (i : Nat) : Nat := le (d.readOr env (o.grad + 16 * r + 4 * i) 4)
    addCell o t (addCell o t s (cell 0) (g 0)) (cell 1) (g 1)

/-- One record of a HIST_BUILD in one core (R294, R312). -/
def histRecord (d : Dev) (env : Env) (o : HistOps) (m : FeatureMap) (t : TileWord) (cols : List Column) (s : HistSt) (r : Nat) : HistSt :=
  match NodeWord.of (nodeWord d env o.grad r o.parity) with
  | .bad => { s with core := s.core.histEvent 1, range := true }
  | .active w =>
    if w < o.first || o.first + o.nodes ≤ w then s
    else
      let g := { s.core.regs with histRecords := s.core.regs.histRecords + 1 }
      let s := cols.foldl (histColumn d env o m t r (w - o.first)) { s with core := { s.core with regs := g }, bad := false }
      if s.bad then { s with core := s.core.histEvent 0, range := true } else s
  | _ => s

/-- A HIST_BUILD in one core: every record in ascending order, then the promotion of every cell left (R294). -/
def histCore (d : Dev) (env : Env) (o : HistOps) (m : FeatureMap) (n pos : Nat) : Core × NFlags × Bool :=
  let t := TileWord.of (atCore o.tile n)
  let s := (List.range o.count).foldl (histRecord d env o m t (m.columns pos)) ⟨d.core n, [], 0, false, false⟩
  let (c, f) := foldFlags s.chunks s.core fun c p => promoteCell t (if o.acc = 0 then .bf16 else .fp16) p.1 p.2.1 c
  let fl := s.flags ||| f
  ((c.flagTile (atCore o.tile n) fl).trainWork o.count, fl, s.range)

/-- The status of the first range that cannot be read. -/
def firstBad (d : Dev) (env : Env) (l : List (Nat × Nat)) : Option ReadFail := l.findSome? fun p => d.readFail env p.1 p.2

/-- HIST_BUILD's work (R294). -/
def histRun (j : Job) (p : Plot) (d : Dev) : Dev :=
  let o := histOps j.desc
  let m := mapNow d j o.map
  match firstBad d j.env [(o.grad, 16 * o.count), (o.bins, m.binStride * o.count)] with
  | some e => d.endRead j e
  | none =>
    let ms := tab p.cores.length fun i => (at' 0 p.cores i, histCore d j.env o m (at' 0 p.cores i) i)
    let f := ms.foldl (fun a x => a ||| x.2.2.1) (0 : NFlags)
    (ms.foldl (fun d x => d.setCore x.1 x.2.1) d).finishJob j.id (if ms.any (·.2.2.2) then stTrainRange else 0) f

/-- A histogram-mode descriptor on a plot, in its place among operations on its set (R183, R309). -/
def startTrain (pid : Nat) (tiles : Plot → List Nat) (run : Job → Plot → Dev → Dev) (j : Job) (d : Dev) : Dev :=
  let d := d.updJob j.id fun j => { j with plot := some pid }
  match d.plot pid with
  | none => d.finishJob j.id stStateConflict
  | some p => runTiles j (tiles p) (run j p) d

/-- HIST_BUILD (R293, R309). -/
def startHist (j : Job) (d : Dev) : Dev :=
  let o := histOps j.desc
  startTrain o.plot (fun p => setTiles p o.tile) histRun j d

/-! ### SPLIT_FIND -/

/-- The operands of a SPLIT_FIND (R296), −0 taken as +0. -/
structure SplitOps where
  tile : Nat
  map : Nat
  level : Nat
  lambda : Nat
  gamma : Nat
  minChild : Nat
  plot : Nat
  first : Nat
  nodes : Nat
  last : Bool
  release : Bool
deriving DecidableEq, Repr

/-- −0 counts as +0 (R296). -/
def plusZero (c : Nat) : Nat := if c = 0x80000000 then 0 else c

/-- The operand fields of a SPLIT_FIND. -/
def splitOps (x : Desc) : SplitOps :=
  { tile := x.op 0x10 8, map := x.op 0x18 8, level := x.op 0x20 8, lambda := plusZero (x.op 0x28 4), gamma := plusZero (x.op 0x2C 4)
    minChild := plusZero (x.op 0x30 4), plot := x.op 0x34 2, first := x.op 0x36 2, nodes := x.op 0x38 2
    last := bit (x.op 0x3A 1) 0, release := bit (x.op 0x3A 1) 1 }

/-- An FP32 code is finite and not negative. -/
def notNegative (c : Nat) : Bool := finite32 c && !Val.lt (floatVal .fp32 c) (.fin false 0 0 false)

/-- The operand rules of R296. -/
def splitForm (x : Desc) : List (Bool × Status) :=
  let o := splitOps x
  tileForm o.tile ++
  [(o.level % 64 != 0 || o.map % 64 != 0 || !notNegative o.lambda || !notNegative o.gamma || !notNegative o.minChild || 4095 < o.first ||
     o.nodes == 0 || 512 < o.nodes || 4096 < o.first + o.nodes || 4 ≤ x.op 0x3A 1 || x.op 0x3B 1 != 0 ||
     !setForm o.tile o.nodes, stHistInvalid)]

/-- A level block (R297). -/
structure Level where
  childNext : Nat
  leafNext : Nat
  table : Nat
  leafGh : Nat
  winners : Nat
deriving DecidableEq, Repr

/-- The level block that 64 bytes spell. -/
def parseLevel (b : Bytes) : Level :=
  { childNext := field b 0 4, leafNext := field b 4 4, table := field b 8 8, leafGh := field b 0x10 8, winners := field b 0x18 8 }

/-- The checks of a level block (R296, R297). -/
def levelChecks (d : Dev) (o : SplitOps) (b : Bytes) : List (Bool × Status) :=
  let l := parseLevel b
  [(!zeroFrom b 0x20 0x40 || l.table % 8 != 0 || 4096 < l.childNext + 2 * o.nodes || 65536 < l.leafNext + 2 * o.nodes, stHistInvalid),
   (!d.addrOk .write false (l.table + 8 * o.first) (8 * o.nodes) || !d.addrOk .write false (l.leafGh + 8 * l.leafNext) (16 * o.nodes) ||
     (l.winners != 0 && !d.addrOk .write false (l.winners + 32 * o.first) (32 * o.nodes)), stAddressInvalid)]

/-- SPLIT_FIND's checks (R286, R290, R291, R296). -/
def checkSplit (d : Dev) (x : Desc) (env : Env) : Verdict :=
  let o := splitOps x
  match d.plot o.plot with
  | none => checks (splitForm x ++ [(true, stStateConflict)])
  | some p =>
    ((checks (splitForm x ++ trainState d o.plot ++ setState d p o.tile ++
      [(!d.addrOk .write false o.level 64, stAddressInvalid)])).andThen
    (fun _ => withMap d env o.map p.lay.coreCount fun m => checks [(!setOk o.tile o.nodes m.slots, stHistInvalid)])).andThen
    (fun _ => match d.readG env o.level 64 with
     | .error e => .fail e
     | .ok b => checks (levelChecks d o b))

/-- A candidate: gain and index as a result pair, and its children's totals (R298). -/
structure Cand where
  pair : RedVal
  gl : Nat
  hl : Nat
  gr : Nat
  hr : Nat
deriving DecidableEq, Repr

/-- No candidate (R298): −∞ and the index that loses to every other. -/
def Cand.none : Cand := ⟨(0xFF800000, 0xFFFFFFFF), 0, 0, 0, 0⟩

/-- The better of two candidates (R203, R298). -/
def Cand.better (a b : Cand) : Cand := if redBest 1 .fp32 a.pair b.pair = a.pair then a else b

/-- A histogram's cells in a core: G and H of every bin (R291). -/
def histCells (c : Core) (w slots n k nbins : Nat) : List (Nat × Nat) :=
  let t := TileWord.of w
  tab nbins fun b => (let p := cellAt slots n k b 0; c.elem t p.1 p.2, let p := cellAt slots n k b 1; c.elem t p.1 p.2)

/-- The gain of a candidate (R298). -/
def gainOf (o : SplitOps) (g h gl hl gr hr : FV) : FV :=
  let part (x y : FV) : FV := FV.div (.mul x x) (.add y (.c o.lambda))
  FV.sub (.mul (.c 0x3F000000) (.sub (.add (part gl hl) (part gr hr)) (part g h))) (.c o.gamma)

/-- A scan in progress: the running left totals, the best candidate, and the flags. -/
structure ScanSt where
  gl : FV
  hl : FV
  best : Cand
  flags : NFlags

/-- One threshold of a scan (R298). -/
def scanStep (o : SplitOps) (feature : Nat) (g h : FV) (cells : List (Nat × Nat)) (s : ScanSt) (t : Nat) : ScanSt :=
  let p := at' (0, 0) cells t
  let gl := FV.add s.gl (.c p.1)
  let hl := FV.add s.hl (.c p.2)
  let gr := FV.sub g gl
  let hr := FV.sub h hl
  let ge (x : FV) : Bool := Val.le (floatVal .fp32 o.minChild) (floatVal .fp32 x.1)
  let s := { s with gl := gl, hl := hl, flags := s.flags ||| gr.2 ||| hr.2 }
  if ge hl && ge hr then
    let v := gainOf o g h gl hl gr hr
    let s := { s with flags := s.flags ||| v.2 }
    if Val.lt (.fin false 0 0 false) (floatVal .fp32 v.1) then
      { s with best := s.best.better ⟨(v.1, feature * 256 + t), gl.1, hl.1, gr.1, hr.1⟩ }
    else s
  else s

/-- A histogram scanned: its best candidate, its totals, and the flags (R298). -/
def scan (o : SplitOps) (feature : Nat) (cells : List (Nat × Nat)) : Cand × Nat × Nat × NFlags :=
  let g := cells.foldl (fun (a : FV) p => a.add (.c p.1)) (.c 0)
  let h := cells.foldl (fun (a : FV) p => a.add (.c p.2)) (.c 0)
  let s := (List.range (cells.length - 1)).foldl (scanStep o feature g h cells) ⟨.c 0, .c 0, .none, g.2 ||| h.2⟩
  (s.best, g.1, h.1, s.flags ||| s.gl.2 ||| s.hl.2)

/-- What a core finds for one node: the best over its columns, each column's feature with its totals, and the flags
(R299). -/
def scanNode (c : Core) (o : SplitOps) (w slots n : Nat) (cols : List Column) : Cand × List (Nat × Nat × Nat) × NFlags :=
  cols.foldl (fun a col =>
    let (b, g, h, f) := scan o col.feature (histCells c w slots n col.k col.nbins)
    (a.1.better b, a.2.1 ++ [(col.feature, g, h)], a.2.2 ||| f)) (.none, [], 0)

/-- The winner of a node and its totals over the whole plot (R299): the totals are those of the lowest feature. -/
structure Winner where
  best : Cand
  g : Nat
  h : Nat
deriving DecidableEq, Repr

/-- The winner of node `n` of the set, with each core's flags. -/
def nodeWinner (d : Dev) (p : Plot) (o : SplitOps) (m : FeatureMap) (n : Nat) : Winner × List NFlags :=
  let rs := tab p.cores.length fun i =>
    let k := at' 0 p.cores i
    scanNode (d.core k) o (atCore o.tile k) m.slots n (m.columns i)
  let best := rs.foldl (fun (a : Cand) r => a.better r.1) .none
  let low := (rs.flatMap (·.2.1)).foldl (fun (a : Option (Nat × Nat × Nat)) x =>
    match a with | none => some x | some y => if x.1 < y.1 then some x else some y) none
  (⟨best, (low.map (·.2.1)).getD 0, (low.map (·.2.2)).getD 0⟩, rs.map (·.2.2))

/-- A node entry's word with its CRC (R114, R116). -/
def nodeWordOf (feature threshold left : Nat) (terminal pad : Bool) : Nat :=
  let e := feature * 2 ^ 52 + threshold * 2 ^ 36 + left * 2 ^ 16 + b2n terminal * 2 ^ 8 + b2n pad * 2 ^ 10
  e + nodeCrc e

/-- The tail's writing in progress (R300): the device and the running counters. -/
structure SplitSt where
  dev : Dev
  child : Nat
  leaf : Nat

/-- A leaf's totals written (R297). -/
def putLeaf (j : Job) (l : Level) (i g h : Nat) (d : Dev) : Dev := d.writeG j.id (l.leafGh + 8 * i) (toLe 4 g ++ toLe 4 h)

/-- One node's entry, leaves and winner record written (R300). -/
def putNode (j : Job) (o : SplitOps) (l : Level) (s : SplitSt) (x : Nat × Winner) : SplitSt :=
  let (n, w) := x
  let b := w.best
  let ix := b.pair.2
  let none' := ix == 0xFFFFFFFF
  let e := if none' then nodeWordOf 0 0 s.leaf true true
    else nodeWordOf (ix / 256) (ix % 256) (if o.last then s.leaf else s.child) o.last false
  let d := s.dev.writeG j.id (l.table + 8 * n) (toLe 8 e)
  let d := if l.winners = 0 then d else
    d.writeG j.id (l.winners + 32 * n) (toLe 4 b.pair.1 ++ toLe 4 ix ++ toLe 4 b.gl ++ toLe 4 b.hl ++ toLe 4 b.gr ++ toLe 4 b.hr ++
      toLe 4 w.g ++ toLe 4 w.h)
  if none' then ⟨putLeaf j l s.leaf w.g w.h d, s.child, s.leaf + 1⟩
  else if o.last then ⟨putLeaf j l (s.leaf + 1) b.gr b.hr (putLeaf j l s.leaf b.gl b.hl d), s.child, s.leaf + 2⟩
  else ⟨d, s.child + 2, s.leaf⟩

/-- A core's part of a SPLIT_FIND counted (R311, R312): a candidate for each threshold of each histogram, a unit of work for each
node. -/
def Core.countSplit (c : Core) (cols : List Column) (nodes : Nat) : Core :=
  let k := nodes * (cols.map fun x => x.nbins - 1).sum
  let r := { c.regs with histSplits := c.regs.histSplits + BitVec.ofNat 64 k }
  { c with regs := r }.work nodes

/-- The pairs of two cores combined, node by node (R203, R299). -/
def splitMerge (a b : List RedVal) : List RedVal := tab b.length fun i => redBest 1 .fp32 (at' (0, 0) a i) (at' (0, 0) b i)

/-- The tail's writes of a SPLIT_FIND (R297, R300), of the pairs that reached it. A pair brings no totals under R209's layout: they are
taken from the histogram of its index, so a set is released only then (log 15). -/
def splitEnd (j : Job) (p : Plot) (rs : List RedVal) (d : Dev) : Dev :=
  let o := splitOps j.desc
  let l := parseLevel (d.blockOf j o.level 64)
  let m := mapNow d j o.map
  let ws := tab o.nodes fun i =>
    let w := (nodeWinner d p o m i).1
    (o.first + i, { w with best := { w.best with pair := at' (redNone .fp32) rs i } })
  let s := ws.foldl (putNode j o l) ⟨d, l.childNext, l.leafNext⟩
  let d := s.dev.writeG j.id o.level (toLe 4 s.child ++ toLe 4 s.leaf)
  (p.cores.foldl (fun d n => releaseIf o.release (atCore o.tile n) d) d).finishJob j.id 0

/-- What core `i` of the chain does for a SPLIT_FIND (R198, R209, R298, R299): its own pairs, combined with the incoming ones, end at the
tail or go on as a reduction packet. -/
def splitCore (j : Job) (p : Plot) (i : Nat) (ins : Option (List RedVal)) (d : Dev) : Dev :=
  let o := splitOps j.desc
  let m := mapNow d j o.map
  let n := at' 0 p.cores i
  let ws := tab o.nodes fun k => scanNode (d.core n) o (atCore o.tile n) m.slots k (m.columns i)
  let f := ws.foldl (fun (a : NFlags) w => a ||| w.2.2) 0
  let own := ws.map fun w => w.1.pair
  let rs := match ins with | some a => splitMerge a own | none => own
  let d := d.updCore n fun c => (c.flagTile (atCore o.tile n) f).countSplit (m.columns i) o.nodes
  let d := d.updJob j.id fun y => { y with cursor := y.cursor + 1, nflags := y.nflags ||| f }
  if i + 1 == p.cores.length then splitEnd j p rs d
  else sendSum d o.plot p n true (redPacket j.chan j.seq 1 0 0 rs) (.reduction n j.id)

/-- SPLIT_FIND's work (R297 to R300) begins in the first core of the chain; the others do theirs as packets reach them. -/
def splitRun (j : Job) (p : Plot) (d : Dev) : Dev :=
  match d.readFail j.env (splitOps j.desc).level 64 with
  | some e => d.endRead j e
  | none => splitCore j p 0 none d

/-- SPLIT_FIND (R296, R309). -/
def startSplit (j : Job) (d : Dev) : Dev :=
  let o := splitOps j.desc
  startTrain o.plot (fun p => setTiles p o.tile) splitRun j d

/-! ### PARTITION -/

/-- The operands of a PARTITION (R302). -/
structure PartOps where
  grad : Nat
  bins : Nat
  src : Nat
  count : Nat
  stride : Nat
  plot : Nat
  splits : Nat
  frames : Bool
  parity : Nat
deriving DecidableEq, Repr

/-- The operand fields of a PARTITION. -/
def partOps (x : Desc) : PartOps :=
  { grad := x.op 0x10 8, bins := x.op 0x18 8, src := x.op 0x20 8, count := x.op 0x28 4, stride := x.op 0x2C 2, plot := x.op 0x2E 2
    splits := x.op 0x30 2, frames := bit (x.op 0x32 1) 0, parity := bits (x.op 0x32 1) 1 1 }

/-- The operand rules of R302. -/
def partForm (x : Desc) : List (Bool × Status) :=
  let o := partOps x
  [(!x.onlyOps [(0x10, 8), (0x18, 8), (0x20, 8), (0x28, 4), (0x2C, 2), (0x2E, 2), (0x30, 2), (0x32, 1)], stDescriptorInvalid),
   (o.grad % 64 != 0 || o.bins % 8 != 0 || o.src % 8 != 0 || o.count == 0 || o.stride % 8 != 0 || o.stride < 8 || 8192 < o.stride ||
     4 ≤ x.op 0x32 1 || (if o.frames then o.splits != 0 else o.splits == 0 || 4096 < o.splits), stHistInvalid)]

/-- The features of a plot's active sieve table, which bound the FEATURE of an entry (R114; log 17). -/
def Dev.featureBound (d : Dev) (pid : Nat) : Option Nat := ((d.plot pid).bind d.plotSieve).map fun t => t.features.length

/-- A node entry keeps R114 and R115, its CRC apart. -/
def entryOk (bound : Option Nat) (e : Nat) : Bool :=
  let n := Node.ofWord e
  n.reserved == 0 && bound.all (n.feature < ·) && (!n.pad || (n.terminal && !n.invert && n.feature == 0 && n.threshold == 0))

/-- The checks of PARTITION with FROM_FRAMES (R303). -/
def checkPartFrames (d : Dev) (env : Env) (p : Plot) (o : PartOps) : Verdict :=
  match d.plotSieve p with
  | none => .reject stStateConflict
  | some _ =>
    (checks [(!d.addrOk .read false o.src 16, stAddressInvalid)]).andThen
    (fun _ => match framePlaces d env o.count o.src with
     | .error e => .fail e
     | .ok fs => checks [(!d.addrOk .read false o.src (framesSpan o.src fs), stAddressInvalid)])

/-- The checks of PARTITION without FROM_FRAMES (R304). -/
def checkPartTable (d : Dev) (env : Env) (o : PartOps) : Verdict :=
  if !d.addrOk .read false o.src (8 * o.splits) then .reject stAddressInvalid
  else match d.readG env o.src (8 * o.splits) with
    | .error e => .fail e
    | .ok b => checks [(!(wordsOf b).all (entryOk (d.featureBound o.plot)), stTreeInvalid), (!(wordsOf b).all fun e => nodeCrc e == bits e 0 8, stNodeCrc)]

/-- PARTITION's checks (R286, R302 to R304). -/
def checkPart (d : Dev) (x : Desc) (env : Env) : Verdict :=
  let o := partOps x
  match d.plot o.plot with
  | none => checks (partForm x ++ [(true, stStateConflict)])
  | some p =>
    (checks (partForm x ++ [(o.frames && (d.plotSieve p).any fun t => o.stride < 2 * t.features.length, stHistInvalid)] ++
      trainState d o.plot ++ [(o.frames && !p.binsFrames, stStateConflict),
      (!d.addrOk .write false o.grad (16 * o.count) ||
         !d.addrOk (if o.frames then .write else .read) false o.bins (o.stride * o.count), stAddressInvalid)])).andThen
    (fun _ => if o.frames then checkPartFrames d env p o else checkPartTable d env o)

/-- A record routed or binned by PARTITION, counted in its core (R311, R312). -/
def Core.routed (c : Core) : Core :=
  let r := { c.regs with histRouted := c.regs.histRouted + 1 }
  { c with regs := r }.trainWork 1

/-- One frame of a PARTITION with FROM_FRAMES (R303). -/
def partFrame (j : Job) (o : PartOps) (p : Plot) (t : SieveTable) (s : BatchSt) (x : Nat × Nat × Bytes) : BatchSt :=
  if s.bad.isSome then s
  else
    let (r, a, h) := x
    match s.dev.readG j.env (a + 16) (field h 2 2) with
    | .error e => { s with bad := some e }
    | .ok b =>
      let n := p.headOf r
      let (d, bn) := binFrame s.dev j.env o.plot n t r h b
      let ok := bn.status == 0#16
      let bins := if ok then bn.bins.flatMap (toLe 2) else []
      let word := if ok then 0 else nodeExcluded
      let d := d.writeG j.id (o.bins + r * o.stride) (bins ++ List.replicate (o.stride - bins.length) 0#8)
      let d := d.writeG j.id (o.grad + 16 * r + 8) (toLe 4 word ++ toLe 4 word)
      let d := d.updCore n fun c => (if ok then c else c.histEvent 2).routed
      { s with dev := d, flags := s.flags ||| bn.nflags }

/-- PARTITION with FROM_FRAMES (R303). -/
def partFrames (j : Job) (o : PartOps) (p : Plot) (d : Dev) : Dev :=
  match d.plotSieve p, framePlaces d j.env o.count o.src with
  | some t, .ok fs =>
    let s := (tab fs.length fun r => (r, at' (0, []) fs r)).foldl (partFrame j o p t) ⟨d, 0, none⟩
    (match s.bad with | some e => s.dev.endRead j e s.flags | none => s.dev.finishJob j.id 0 s.flags)
  | _, .error e => d.endRead j e
  | none, _ => d.finishJob j.id stStateConflict

/-- The node word that PARTITION writes for a record, and whether its word was out of range (R304). -/
def routeWord (table : List Nat) (bin : Nat → Nat) (w : Nat) : Nat × Bool :=
  match NodeWord.of w with
  | .excluded => (w, false)
  | .done => (w, false)
  | .bad => (nodeExcluded, true)
  | .active n =>
    if table.length ≤ n then (nodeExcluded, true)
    else
      let e := Node.ofWord (at' 0 table n)
      if e.pad then (0x80000000 + e.left, false)
      else
        let b := if decide (bin e.feature ≤ e.threshold) != e.invert then 0 else 1
        (if e.terminal then 0x80000000 + e.left + b else e.left + b, false)

/-- An entry of the partition table that a core's lane reads breaks its CRC, as the surroundings say (R154, R304; log 54). -/
def entryBroken (env : Env) (n : Nat) : Bool := env.codes.contains (16 + n)

/-- A node check of a lane that reads entry `i` of the partition table (R154, R158, R304, R416): the core stops until it is fenced. The
CRCs it found are free, and the capture's fields for a record's path are zero (log 54). -/
def partFault (d : Dev) (n i : Nat) : Dev :=
  let v := (Config.freeValue d.free).toNat
  let f : DescFault := ⟨2, 0, 0, 0, 0, v % 256, v / 256 % 256, i⟩
  ({ d with free := d.free + 1 }.updCore n fun c => c.capture f 0).detect n stNodeCheck 3 [] none

/-- One record of a PARTITION without FROM_FRAMES (R304); a core that is stopped routes none. -/
def partRecord (j : Job) (o : PartOps) (p : Plot) (table : List Nat) (s : Dev × Bool) (r : Nat) : Dev × Bool :=
  let d := s.1
  let bin (f : Nat) : Nat := le (d.readOr j.env (o.bins + r * o.stride + 2 * f) 2)
  let w := nodeWord d j.env o.grad r o.parity
  let (out, bad) := routeWord table bin w
  let n := at' 0 p.cores (r % max 1 p.cores.length)
  if d.stopped n then s
  else if (match NodeWord.of w with | .active i => entryBroken j.env n && decide (i < table.length) | _ => false) then (partFault d n w, s.2)
  else
  let d := d.writeG j.id (o.grad + 16 * r + 8 + 4 * (1 - o.parity)) (toLe 4 out)
  (d.updCore n fun c => (if bad then c.histEvent 1 else c).routed, s.2 || bad)

/-- PARTITION without FROM_FRAMES (R304), on the table as it was read at dispatch: while a core of the plot is stopped by a fault it
does not end, and the core's fence ends it (R432). -/
def partTable (j : Job) (o : PartOps) (p : Plot) (d : Dev) : Dev :=
  match firstBad d j.env [(o.grad, 16 * o.count), (o.bins, o.stride * o.count)] with
  | some e => d.endRead j e
  | none =>
    let table := wordsOf (d.blockOf j o.src (8 * o.splits))
    let s := (List.range o.count).foldl (partRecord j o p table) (d, false)
    if p.cores.any s.1.stopped then s.1 else s.1.finishJob j.id (if s.2 then stTrainRange else 0)

/-- PARTITION (R302, R309). -/
def startPart (j : Job) (d : Dev) : Dev :=
  let o := partOps j.desc
  startTrain o.plot (fun _ => []) (fun j p d => if o.frames then partFrames j o p d else partTable j o p d) j d

/-! ### LEAF_FIT -/

/-- The operands of a LEAF_FIT (R306). -/
structure FitOps where
  tree : Nat
  leafGh : Nat
  out : Nat
  lambda : Nat
  eta : Nat
  count : Nat
  slot : Nat
  plot : Nat
  valueFmt : Nat
  scale : Int
deriving DecidableEq, Repr

/-- The operand fields of a LEAF_FIT. -/
def fitOps (x : Desc) : FitOps :=
  { tree := x.op 0x10 8, leafGh := x.op 0x18 8, out := x.op 0x20 8, lambda := x.op 0x28 4, eta := x.op 0x2C 4, count := x.op 0x30 4
    slot := x.op 0x34 2, plot := x.op 0x36 2, valueFmt := x.op 0x38 1, scale := sbyte (x.op 0x39 1) }

/-- The operand rules of R306 and R307. -/
def fitForm (x : Desc) : List (Bool × Status) :=
  let o := fitOps x
  [(!x.onlyOps [(0x10, 8), (0x18, 8), (0x20, 8), (0x28, 4), (0x2C, 4), (0x30, 4), (0x34, 2), (0x36, 2), (0x38, 1), (0x39, 1)],
    stDescriptorInvalid),
   (o.tree % 64 != 0 || o.out % 8 != 0 || !notNegative o.lambda || !finite32 o.eta || o.count == 0 || 65536 < o.count ||
     4095 < o.slot || 1 < o.valueFmt || (o.valueFmt == 0 && o.scale != 0), stHistInvalid),
   (!scaleOk o.scale, stFxScaleInvalid)]

/-- A level of a tree block: its table and how many entries it holds (R306). -/
structure TreeLevel where
  table : Nat
  entries : Nat
deriving DecidableEq, Repr

/-- The levels of a tree block. -/
def parseTree (b : Bytes) : List TreeLevel := tab (field b 0 1) fun i => ⟨field b (0x10 + 16 * i) 8, field b (0x18 + 16 * i) 4⟩

/-- The rules of R306 on a tree block. -/
def treeBlockOk (b : Bytes) : Bool :=
  let ls := parseTree b
  1 ≤ ls.length && ls.length ≤ 16 && zeroFrom b 1 0x10 && ls.all (fun l => 1 ≤ l.entries && l.entries ≤ 4096) &&
  (ls.head?).all (fun l => l.entries == 1) && (List.range ls.length).all fun i => field b (0x1C + 16 * i) 4 == 0

/-- A walk of a tree in progress: entries reached, leaves reached with depth and path bits, and the first failure
(R307). -/
structure FitWalk where
  seen : List (Nat × Nat)
  leaves : List (Nat × Nat × Nat)
  bad : Option Status
deriving DecidableEq, Repr

/-- A leaf reached (R307): below LEAF_COUNT, and only once. -/
def FitWalk.leaf (w : FitWalk) (count i d p : Nat) : FitWalk :=
  if w.bad.isSome then w
  else if count ≤ i || w.leaves.any fun x => x.1 = i then { w with bad := some stTreeInvalid }
  else { w with leaves := w.leaves ++ [(i, d, p)] }

/-- The walk of R307 from entry `i` of level `lv`, with path bits `p` of `lv` comparisons; `fuel` levels at most. -/
def fitWalk (bound : Option Nat) (tables : List (List Nat)) (count : Nat) : Nat → Nat → Nat → Nat → FitWalk → FitWalk
  | 0, _, _, _, w => { w with bad := some stTreeInvalid }
  | fuel + 1, lv, i, p, w =>
    if w.bad.isSome then w
    else
      let t := at' [] tables lv
      if t.length ≤ i || w.seen.contains (lv, i) then { w with bad := some stTreeInvalid }
      else
        let e := at' 0 t i
        let n := Node.ofWord e
        let w := { w with seen := (lv, i) :: w.seen }
        if nodeCrc e ≠ n.crc then { w with bad := some stNodeCrc }
        else if !entryOk bound e then { w with bad := some stTreeInvalid }
        else if n.pad then w.leaf count n.left lv p
        else if n.terminal then (w.leaf count n.left (lv + 1) p).leaf count (n.left + 1) (lv + 1) (p + 2 ^ lv)
        else fitWalk bound tables count fuel (lv + 1) (n.left + 1) (p + 2 ^ lv) (fitWalk bound tables count fuel (lv + 1) n.left p w)

/-- The outcome of the walk of a whole tree (R307): every leaf reached. -/
def treeWalk (bound : Option Nat) (tables : List (List Nat)) (count : Nat) : FitWalk :=
  let w := fitWalk bound tables count tables.length 0 0 0 ⟨[], [], none⟩
  if w.bad.isNone && (w.leaves.length != count || !(tables.getLastD []).all fun e => (Node.ofWord e).terminal) then
    { w with bad := some stTreeInvalid }
  else w

/-- The tables of a tree, where they can be read. -/
def treeTables (d : Dev) (env : Env) : List TreeLevel → Except ReadFail (List (List Nat))
  | [] => .ok []
  | l :: ls =>
    match d.readG env l.table (8 * l.entries), treeTables d env ls with
    | .ok b, .ok t => .ok (wordsOf b :: t)
    | .error e, _ => .error e
    | _, .error e => .error e

/-- The bytes of a tree block whose first byte is given. -/
def treeBytes (b : Bytes) : Nat := 0x10 + 16 * field b 0 1

/-- LEAF_FIT's checks on the tree (R306, R307). -/
def fitData (d : Dev) (env : Env) (o : FitOps) : Verdict :=
  match d.readG env o.tree 16 with
  | .error e => .fail e
  | .ok h =>
    if 16 < field h 0 1 then .reject stHistInvalid
    else if !d.addrOk .read false o.tree (treeBytes h) then .reject stAddressInvalid
    else match d.readG env o.tree (treeBytes h) with
      | .error e => .fail e
      | .ok b =>
        let ls := parseTree b
        (checks [(!treeBlockOk b, stHistInvalid), (!ls.all (fun l => d.addrOk .read false l.table (8 * l.entries)), stAddressInvalid)]).andThen
        (fun _ => match treeTables d env ls with
         | .error e => .fail e
         | .ok ts => Verdict.ofFail (treeWalk (d.featureBound o.plot) ts o.count).bad)

/-- LEAF_FIT's checks (R286, R306, R307). -/
def checkFit (d : Dev) (x : Desc) (env : Env) : Verdict :=
  let o := fitOps x
  (checks (fitForm x ++ trainState d o.plot ++
    [(!d.addrOk .read false o.tree 16 || !d.addrOk .read false o.leafGh (8 * o.count) || !d.addrOk .write false o.out (8 * o.count),
      stAddressInvalid)])).andThen (fun _ => fitData d env o)

/-- The value of a leaf from its totals (R307), as its record holds it. -/
def leafFitValue (o : FitOps) (g h : Nat) : FV :=
  let q := FV.div (.c g) (.add (.c h) (.c o.lambda))
  let v := FV.mul (.c o.eta) q
  let n := Val.neg (floatVal .fp32 v.1)
  if o.valueFmt = 0 then let (c, f) := rnd .fp32 .rne n; (c, v.2 ||| f)
  else
    let s := match n with | .fin b m e k => Val.fin b m (e + o.scale) k | x => x
    let (c, f) := encodeVal .int32 0 .rne s
    (c, v.2 ||| f)

/-- One leaf record written (R117, R119, R307). -/
def fitLeaf (j : Job) (o : FitOps) (s : Dev × NFlags) (x : Nat × Nat × Nat) : Dev × NFlags :=
  let (i, dep, p) := x
  let b := s.1.readOr j.env (o.leafGh + 8 * i) 8
  let (v, f) := leafFitValue o (field b 0 4) (field b 4 4)
  (s.1.writeG j.id (o.out + 8 * i) (toLe 4 v ++ toLe 2 i ++ toLe 2 (pathSignature o.slot dep p)), s.2 ||| f)

/-- The class 2 status that flags lead to (R74, R307). -/
def flagStatus (f : NFlags) : Status := if hasFlag f Fl.nan then stNanResult else if isSaturated f then stSaturated else 0

/-- LEAF_FIT's work (R75, R307): the flags show in the tail, whose finisher computes the values. -/
def fitRun (j : Job) (p : Plot) (d : Dev) : Dev :=
  let o := fitOps j.desc
  let ls := parseTree (d.blockOf j o.tree (treeBytes (d.blockOf j o.tree 16)))
  match treeTables d j.env ls, d.readFail j.env o.leafGh (8 * o.count) with
  | .ok ts, none =>
    let ws := (treeWalk none ts o.count).leaves
    let sorted := (List.range o.count).filterMap fun i => ws.find? fun x => x.1 = i
    let s := sorted.foldl (fitLeaf j o) (d, 0)
    (p.last.elim s.1 fun n => s.1.updCore n fun c => c.note s.2).finishJob j.id (flagStatus s.2) s.2
  | .error e, _ => d.endRead j e
  | _, some e => d.endRead j e

/-- LEAF_FIT (R306, R309). -/
def startFit (j : Job) (d : Dev) : Dev := startTrain (fitOps j.desc).plot (fun _ => []) fitRun j d

end Sys2Proof.Machine
end

