-- ==== Sys2Proof/Machine/Copy.lean ====
section
/-! DEFINITION. The copy engines: COPY, its checks, what it moves, and how it ends (R397 to R402, R406, R409, R419). -/
namespace Sys2Proof
open Machine

/-- SRC_HOST (R397). -/
def Desc.srcHost (x : Desc) : Bool := bit (x.op 0x29 1) 0
/-- DST_HOST (R397). -/
def Desc.dstHost (x : Desc) : Bool := bit (x.op 0x29 1) 1
/-- BYTES of COPY (R397). -/
def Desc.copyBytes (x : Desc) : Nat := x.op 0x20 8

namespace Machine

/-- COPY_INVALID (R397). -/
def stCopyInvalid : Status := 0x10A0

/-- The first engine of a COPY's class and their number (R397). -/
def copyClass (x : Desc) : Nat × Nat := if x.srcHost then (0, 8) else if x.dstHost then (8, 8) else (16, 4)

/-- The form of a COPY's operands, where R397 names no status (R541). -/
def copyForm (x : Desc) : Bool :=
  x.onlyOps [(0x10, 8), (0x18, 8), (0x20, 8), (0x28, 1), (0x29, 1)] && 1 ≤ x.copyBytes && x.copyBytes ≤ 2 ^ 40 &&
  (x.op 0x28 1 < 20 || x.op 0x28 1 == 0xFF) && x.op 0x29 1 < 32

/-- The combinations that COPY_INVALID names (R397). -/
def copyPaired (x : Desc) : Bool :=
  let e := x.op 0x28 1
  let (lo, n) := copyClass x
  let f := x.op 0x29 1
  !(x.srcHost && x.dstHost) && (e == 0xFF || (lo ≤ e && e < lo + n)) &&
  (x.dstHost || f / 4 == 0) && !(bit f 4 && x.flush == 1)

/-- COPY's checks: its form, its combinations, and the global ranges under R27 (R397, R541). -/
def checkCopy (d : Dev) (x : Desc) : Verdict :=
  checks [(!copyForm x, stDescriptorInvalid), (!copyPaired x, stCopyInvalid),
    (!x.srcHost && !d.addrOk .read true (x.op 0x10 8) x.copyBytes, stAddressInvalid),
    (!x.dstHost && !d.addrOk .write false (x.op 0x18 8) x.copyBytes, stAddressInvalid)]

/-- The descriptors queued on a copy engine. -/
def Dev.engineLoad (d : Dev) (e : Nat) : Nat := (d.jobs.filter (d.onEngine e)).length

/-- The engine of a COPY: the named one, or of its class the one with the fewest descriptors queued, the lowest number on
a tie (R397). -/
def pickEngine (d : Dev) (x : Desc) : Nat :=
  let (lo, n) := copyClass x
  if x.op 0x28 1 ≠ 0xFF then x.op 0x28 1
  else (List.range n).foldl (fun b i => if d.engineLoad (lo + i) < d.engineLoad b then lo + i else b) lo

/-- The answers from an address up, as far as there are any. -/
def answerPrefix (l : List (Nat × Byte)) (a : Nat) : Nat → Bytes
  | 0 => []
  | n + 1 => match l.find? (fun p => p.1 = a) with
    | some p => p.2 :: answerPrefix l (a + 1) n
    | none => []

/-- How many of `n` bytes at a host address come before the first whose access fails (R397, R403). -/
def hostPrefix (d : Dev) (env : Env) (a n : Nat) : Nat := ((tab n id).takeWhile fun i => !hostDenied d env (a + i) 1).length

/-- The bytes of a local range before its first uncorrectable error. -/
def goodPrefix (d : Dev) (env : Env) (a n : Nat) : Bytes :=
  ((tab n id).takeWhile fun i => !env.ecc.any fun p => overlaps p.1 p.2 (a + i) 1).map fun i => d.localByte (addrLocal a + i)

/-- An uncorrectable error in copy-engine staging, the 8 MiB at offset 0x140_0000 of hub SRAM (R30, R419, R517). -/
def stagingBad (env : Env) : Bool := env.ecc.any fun p => overlaps p.1 p.2 0xF001400000 0x800000

/-- The bytes a COPY reads, up to its first failure, and the failure's status (R397, R406, R419, R474). A register source
is read with the effects of its read. -/
def copyRead (mc : Mc) (d : Dev) (env : Env) (x : Desc) : Dev × Bytes × Status :=
  let a := x.op 0x10 8
  let n := x.copyBytes
  let short (b : Bytes) (st : Status) : Dev × Bytes × Status := (d, b, if b.length = n then 0 else st)
  if x.srcHost then
    let b := (answerPrefix env.host a n).take (hostPrefix d env a n)
    (d.hostRead a b.length, b, if b.length = n then 0 else stHostAccessFault)
  else if addrDevice a ≠ d.deviceId then
    short (if (d.routePort (addrDevice a)).isSome then answerPrefix env.remote a n else []) stLinkLost
  else if (regionOf (addrLocal a)).1 == .regs then
    let (d, v) := regReadFx mc d (addrLocal a - 0xFE00000000)
    (d, toLe 8 v, 0)
  else short (goodPrefix d env a n) stEcc

/-- The error record of an uncorrectable error in the staging of an engine (R419, R439). -/
def stagingError (d : Dev) (e chan seq : Nat) : Dev :=
  d.report { errRec stEcc 4 0 2 e with chan := chan, descSeq := seq, detail := toLe 1 7 }

/-- The bytes before staging loses them: a free number of them where it does (R419). -/
def staged (j : Job) (e : Nat) (d : Dev) (b : Bytes) (st : Status) : Dev × Bytes × Status :=
  if stagingBad j.env then
    (stagingError { d with free := d.free + 1 } e j.chan j.seq, b.take ((Config.freeValue d.free).toNat % (b.length + 1)), stEcc)
  else (d, b, st)

/-- A copy whose destination overlaps its source: what a byte read after an earlier byte was written over it holds is not
specified, so those bytes are free (log 20). -/
def overlapFree (d : Dev) (x : Desc) (b : Bytes) : Dev × Bytes :=
  let s := x.op 0x10 8
  let t := x.op 0x18 8
  if x.srcHost || x.dstHost || s = t || !overlaps s b.length t b.length then (d, b)
  else
    let f (i : Nat) : Byte :=
      if t ≤ s + i && s + i < t + b.length then (Config.freeValue (d.free + i)).setWidth 8 else at' 0 b i
    ({ d with free := d.free + b.length }, tab b.length f)

/-- The host writes that an engine has made on a traffic class (R400, R402). -/
def noteHostWrite (d : Dev) (e tc last n : Nat) : Dev :=
  d.updEngine e fun g => { g with flushBytes := g.flushBytes + BitVec.ofNat 64 n, last := Tbl.set none tc (some last) g.last }

/-- Bytes of a COPY written to the host, up to the first address that fails: how many (R397, R406). -/
def writeHost (d : Dev) (env : Env) (job e a : Nat) (b : Bytes) (relaxed : Bool) (tc : Nat) : Dev × Nat :=
  let ok := hostPrefix d env a b.length
  if ok = 0 then (d, 0) else (noteHostWrite (d.toHost (.data a (b.take ok) relaxed tc job)) e tc (a + ok - 1) ok, ok)

/-- A COPY's bytes written to the host (R397, R406); a hold keeps them all, and none has been moved yet (R409). -/
def copyToHost (d : Dev) (j : Job) (e : Nat) (b : Bytes) : Dev × Nat × Status :=
  let x := j.desc
  let a := x.op 0x18 8
  let relaxed := bit (x.op 0x29 1) 2
  let tc := if bit (x.op 0x29 1) 3 then d.host.altTc.toNat else 0
  if d.host.held then
    ((d.toHost (.data a b relaxed tc j.id)).updJob j.id fun j => { j with hostHeld := true }, 0, 0)
  else
    let (d, ok) := writeHost d j.env j.id e a b relaxed tc
    (d, ok, if ok = b.length then 0 else stHostAccessFault)

/-- A COPY's bytes written to their destination: how many, and the status of what failed (R24, R397, R474). -/
def copyWrite (d : Dev) (j : Job) (e : Nat) (b : Bytes) : Dev × Nat × Status :=
  let a := j.desc.op 0x18 8
  if j.desc.dstHost then copyToHost d j e b
  else if addrDevice a ≠ d.deviceId && (d.routePort (addrDevice a)).isNone then (d, 0, stLinkLost)
  else (d.writeG j.id a b, b.length, 0)

/-- Bytes that a COPY moved: counted by its engine and in its DETAIL0 (R51, R391); those written to another device count there as
their writes are acknowledged. -/
def noteMoved (d : Dev) (job e moved : Nat) : Dev :=
  (d.updEngine e fun g => { g with progress := g.progress + BitVec.ofNat 64 ((moved + 4095) / 4096) }).updJob job fun j =>
    { j with detail0 := j.detail0 + (if j.desc.dstHost || addrDevice (j.desc.op 0x18 8) == d.deviceId then moved else 0) }

/-- A COPY ends with the bytes it moved: a failed access ends its chain and stands beside the bytes moved (R391, R406). -/
def endCopy (d : Dev) (j : Job) (e moved : Nat) (st : Status) : Dev :=
  let d := ((noteMoved d j.id e moved).countAccessFault j.chan st).finishJob j.id st
  if st = 0 then d else d.updJob j.id fun j => { j with desc := { j.desc with next := 0 } }

/-- A COPY waits: for an earlier descriptor on its engine (R397, R408), or for the end of a hold, during which no host read is made
(R409); so too a read of a CE_FLUSH (R402). -/
def copyWaits (d : Dev) (j : Job) (e : Nat) : Bool :=
  let x := j.desc
  let host := x.srcHost || (addrDevice (x.op 0x10 8) == d.deviceId && (regionOf (addrLocal (x.op 0x10 8))).1 == .regs &&
    (flushReg (addrLocal (x.op 0x10 8) - 0xFE00000000)).isSome)
  ((d.before j.id).any fun k => k.engine == some e && occupies d k) || (host && (d.host.held || d.fatal))

/-- COPY on its engine: the bytes read, in order, up to a failure, and written (R397, R406, R409, R419). -/
def startCopy (mc : Mc) (j : Job) (d : Dev) : Dev :=
  let e := j.engine.getD (pickEngine d j.desc)
  let d := d.updJob j.id fun j => { j with engine := some e, phase := .queued }
  if copyWaits d j e then d
  else
    let (d, b, rst) := copyRead mc d j.env j.desc
    let d := if rst = stEcc then d.hbmError (j.desc.op 0x10 8 + b.length) j.chan j.seq else d
    let (d, b, rst) := staged j e d b rst
    let (d, b) := overlapFree d j.desc b
    let (d, n, wst) := copyWrite d j e b
    endCopy d j e n (if wst = 0 then rst else wst)

end Machine
end Sys2Proof
end

