-- ==== Sys2Proof/Machine/Reset.lean ====
section
/-! DEFINITION. The device reset: what it keeps, what it loses, and the cores it finds unfit (R409, R412, R437, R442). -/
namespace Sys2Proof.Machine

/-- What a device reset leaves of the digital part (R442): the flash, the device ID that the MC sets again (R24), and the
model's own counter and output. All memory reads as memory that nothing has written (log 2). -/
def Dev.cleared (d : Dev) : Dev := { deviceId := d.deviceId, flash := d.flash, free := d.free, out := d.out }

/-- A core fenced from the start (R437), with its error record. -/
def retireCore (d : Dev) (n : Nat) : Dev :=
  let seq := d.err.seqNext.toNat
  (d.report (errRec stCoreFenced 13 2 0 n)).updCore n fun c =>
    { c with fenced := true, retired := true, cause := stCoreFenced, errSeq := BitVec.ofNat 32 seq }

/-- The cores that a reset finds unfit: a failed self-test, or three fences over the module's life (R437). -/
def unfit (mc : Mc) (failed : List Nat) : List Nat :=
  (List.range 256).filter fun n => failed.contains n || 3 ≤ Tbl.get 0 n mc.fences

/-- The digital part after a device reset; in test mode it takes no descriptors (R441, R442, R532). -/
def Dev.afterReset (mc : Mc) (failed : List Nat) (d : Dev) : Dev :=
  let d := (unfit mc failed).foldl retireCore d.cleared
  { d with err := { d.err with fatalState := if mc.testMode then 1 else 0 } }

/-- The MC's registers after a device reset: at their reset values, but for what MC flash holds (R442, R508). -/
def Mc.afterReset (mc : Mc) : Mc :=
  let p : Power := { state := mc.pwr.state, input := mc.pwr.input, uvlo := mc.pwr.uvlo, autoOn := mc.pwr.autoOn, trip := mc.pwr.trip, sampleNo := mc.pwr.sampleNo,
                     lastRaise := mc.pwr.lastRaise }
  let c : Cool := { sampleNo := mc.cool.sampleNo, hourTj := mc.cool.hourTj, hourVdd := mc.cool.hourVdd,
                    hourCool := mc.cool.hourCool, hourPower := mc.cool.hourPower }
  { mc with pwr := p, cool := c }

/-- A device reset (R442). -/
def resetDevice (failed : List Nat) (s : State) : State :=
  if s.mc.pwr.state = .on then { s with dev := s.dev.afterReset s.mc failed, mc := s.mc.afterReset } else s

/-- DEVICE_RESET (R442). -/
def execDeviceReset (failed : List Nat) (s : State) : Host.Outcome State Fault Refusal := .next (resetDevice failed s)

end Sys2Proof.Machine
end

