-- ==== Sys2Proof/Machine/HostLink.lean ====
section
/-! DEFINITION. The host link: holds and reattachment, blocked completions, translation, masked vectors (R395, R402 to
R412). -/
namespace Sys2Proof.Machine

/-! ### Holds -/

/-- A token is armed (R409, R412, CE_ATTACH.ARMED). -/
def HostLink.armed (h : HostLink) : Bool := h.token != 0

/-- What a link or function reset resets by the PCIe specification: configuration space, the MSI-X table and its pending
bits, Bus Master Enable, with translation off and its cache empty (R403, R409). -/
def HostLink.pcieReset (h : HostLink) : HostLink :=
  { h with ats := false, busMaster := false, masked := BitVec.allOnes 128, msixTable := [], msixPending := [], atc := [],
           bar4Log2 := 30 }

/-- A channel at the start of a hold (R382, R409). -/
def Chan.detach (c : Chan) : Chan :=
  match c.state with
  | .running | .waiting | .halted => { c with state := .detached, wait := .none }
  | _ => c

/-- Every channel that has left its reset state, changed. -/
def Dev.mapChans (d : Dev) (f : Chan → Chan) : Dev := (d.chans.map (·.1)).foldl (fun d i => d.updChan i f) d

/-- A hold begins, or goes on over a further reset of the link (R409). -/
def beginHold (d : Dev) : Dev :=
  let h := d.host.pcieReset
  { d with host := { h with held := true, holds := if h.held then h.holds else h.holds + 1 },
           debugOn := false }.mapChans Chan.detach

/-- The host link goes down or the function is reset: a hold, or a device reset where none is armed or the device is
fatal (R409, R441, R442). -/
def hostLinkDown (failed : List Nat) (s : State) : State :=
  let d := s.dev
  if d.host.holdOnReset && d.host.armed && !d.fatal then
    if s.mc.pwr.state = .on then { s with dev := beginHold d } else s
  else resetDevice failed s

/-- HOST_LINK_DOWN: by DL_Down, a hot or secondary bus reset, PERST#, or a Function Level Reset alike (R409). -/
def execHostLinkDown (_flr : Bool) (failed : List Nat) (s : State) : Host.Outcome State Fault Refusal :=
  .next (hostLinkDown failed s)

/-! ### Delivery of stored records -/

/-- The stored records of a channel written into their slots in store order, each with FROM_STORE, up to the first whose
write fails: that one blocks the channel again (R405). -/
def deliverStored (env : Env) (c : Nat) : List Stored → Dev → Dev × Bool
  | [], d => (d, true)
  | r :: rs, d =>
    let ch := d.chan c
    if hostDenied d env ch.slotAddr 32 then (d, false)
    else
      let d := { d with host := { d.host with ucs := replaceOnce r d.host.ucs } }
      deliverStored env c rs (writeRecord d c r.seq r.fields true)
where
  /-- A list without the first occurrence of an element. -/
  replaceOnce (r : Stored) : List Stored → List Stored
    | [] => []
    | x :: xs => if x = r then xs else x :: replaceOnce r xs

/-- A repeated failure of a blocked channel: CHN_BLOCK takes it, an error record is made, the error vector fires (R405). -/
def blockAgain (d : Dev) (c kind addr : Nat) : Dev :=
  blockChannel (d.updChan c fun ch => { ch with blocked := false }) c kind addr 0

/-- The stored records of a channel, then its completion word (R405, R411): whether every write was made. -/
def deliverChannel (env : Env) (d : Dev) (c : Nat) : Dev × Bool :=
  let (d, ok) := deliverStored env c (d.storedOf c) d
  let ch := d.chan c
  if !ok then (blockAgain d c 0 ch.slotAddr, false)
  else if ch.cwAddr ≠ 0 && hostDenied d env ch.cwAddr.toNat 8 then
    (blockAgain d c 1 ch.cwAddr.toNat, false)
  else (writeWord d c, true)

/-! ### Withheld results -/

/-- A channel's results go to its ring, which has room (R375). -/
def ownRing (d : Dev) (c : Nat) (x : Ctx) : Bool :=
  (d.feed x.src).any fun f => f.dstKind == 1 && f.chan == c && ringRoom d c

/-- The withheld results of a tail for a channel's ring, in their order, `fuel` of them at most, up to one that does not pass
its check or whose slot cannot be written (R230, R233, R405). -/
def releaseTail (env : Env) (c n : Nat) : Nat → Dev → Dev
  | 0, d => d
  | fuel + 1, d =>
    match d.plotOf n with
    | none => d
    | some (pid, p) =>
      if d.stopped n || !p.isTail n then d
      else match pickResult (ownRing d c) [] (d.core n).ctxs with
        | none => d
        | some x =>
          let b := (x.result.map (·.bytes)).getD []
          releaseTail env c n fuel (if resultOk p x b then deliverResult d env n pid p x b else resultFault d n x.recordId)

/-- The withheld results of a channel, each with its producer word (R375, R405, R411). -/
def releaseResults (env : Env) (c : Nat) (d : Dev) : Dev :=
  (d.cores.map (·.1)).foldl (fun d n => releaseTail env c n (d.core n).ctxs.length d) d

/-! ### Reattachment -/

/-- A channel moved out of DETACHED (R411): RUNNING, or RUNNING and at once HALTED; a blocked one enters
COMPLETION_BLOCKED as it becomes RUNNING (R404). -/
def Chan.reattach (c : Chan) (halt : Bool) : Chan :=
  let back : ChanState := if halt then .halted else .running
  if c.state ≠ .detached then c
  else if c.blocked then { c with state := .blocked, before := back } else { c with state := back }

/-- One channel at REATTACH: what it owes is delivered unless it is blocked; then it leaves DETACHED (R411). -/
def reattachChan (env : Env) (halt : Bool) (d : Dev) (c : Nat) : Dev :=
  if (d.chan c).state ≠ .detached then d
  else
    let d := if (d.chan c).blocked then d else (deliverChannel env d c).1
    d.updChan c fun ch => ch.reattach halt

/-- A held copy's bytes written, up to the first address that fails, which ends the descriptor (R397, R402, R406). -/
def releaseCopy (env : Env) (d : Dev) (j : Job) (e a : Nat) (b : Bytes) (relaxed : Bool) (tc : Nat) : Dev :=
  let (d, ok) := writeHost d env j.id e a b relaxed tc
  let d := noteMoved d j.id e ok
  if ok = b.length then d else accessFault d j

/-- A held input-log entry written where the log lies now (R410, R450). -/
def releaseLog (env : Env) (d : Dev) (j : Job) (b : Bytes) : Dev :=
  let a := d.surv.logAddr (j.desc.op 0x10 8)
  if hostDenied d env a b.length then accessFault d j else writeLog d j a b

/-- One held write released, with what its translation makes of it (R396, R402, R406, R409, R411). -/
def releaseHeld (env : Env) (d : Dev) (o : HostOut) : Dev :=
  match o with
  | .data a b relaxed tc id =>
    match d.job id with
    | none => d.toHost o
    | some j => match j.engine with
      | some e => releaseCopy env d j e a b relaxed tc
      | none => releaseLog env d j b
  | .peer c a _ =>
    if hostDenied d env a 4 then d.updChan c fun ch => { ch with hostCnt := laneBump ch.hostCnt 1 } else d.toHost o
  | .write _ _ => d.toHost o
  | .msix v _ _ => d.msix v
  | .flush e => (ceFlush d e).emit (.readValue (toLe 8 (d.engine e).flushBytes.toNat))

/-- The held writes released in their order (R411). -/
def releaseWrites (env : Env) (d : Dev) : Dev :=
  let held := d.host.heldWrites
  let d := held.foldl (releaseHeld env) { d with host := { d.host with heldWrites := [] } }
  { d with jobs := d.jobs.map fun j => { j with hostHeld := false } }

/-- What a write to CE_REATTACH does (R411, R412); the settling of queued work follows in `settle`. -/
def reattach (v : Nat) (bme : Bool) (env : Env) (d : Dev) : Dev :=
  if !d.host.held || !bit v 32 then { d with host := { d.host with busMaster := bme } }
  else if v % 2 ^ 32 ≠ d.host.token.toNat || !d.host.armed || !bme then
    { d with host := { d.host with busMaster := bme, refused := d.host.refused + 1 } }
  else
    let d := { d with host := { d.host with busMaster := true, held := false } }
    let d := (d.chans.map (·.1)).foldl (reattachChan env (bit v 33)) d
    let d := releaseWrites env d
    ((d.chans.map (·.1)).foldl (fun d c => releaseResults env c d) d).errVector

/-- DISCARD: a device reset while held (R412). -/
def execDiscard (failed : List Nat) (s : State) : Host.Outcome State Fault Refusal :=
  .next (if s.dev.host.held && s.live then resetDevice failed s else s)

/-! ### Blocked completions -/

/-- The producer word of a channel written again (R375, R405): a word that cannot be written blocks the channel. -/
def producerWord (env : Env) (c : Nat) (d : Dev) : Dev :=
  let ch := d.chan c
  if ch.outLog2 = 0 || ch.outProducer = 0 || ch.outTail = 0 then d
  else if hostDenied d env ch.outProducer.toNat 8 then blockChannel d c 3 ch.outProducer.toNat 0
  else d.toHost (.write ch.outProducer.toNat (toLe 8 ch.outTail.toNat))

/-- RESUME_COMPLETION of a channel (R382, R405): in any other state it is refused; while a write fails the channel stays blocked. -/
def resumeCompletion (c : Nat) (env : Env) (d : Dev) : Dev :=
  if (d.chan c).state ≠ .blocked then d.updChan c Chan.refuse
  else if d.host.held || d.fatal then d
  else
    let (d, ok) := deliverChannel env d c
    if !ok then d
    else
      let tail := (d.chan c).outTail
      let d := releaseResults env c (d.updChan c fun ch => { ch with blocked := false })
      let d := if (d.chan c).blocked || (d.chan c).outTail ≠ tail then d else producerWord env c d
      if (d.chan c).blocked then d else d.updChan c fun ch => { ch with state := ch.before }

/-- RESUME_COMPLETION (R385, R405). -/
def execResumeCompletion (c : Fin 64) (env : Env) (s : State) : Host.Outcome State Fault Refusal :=
  onDev (resumeCompletion c.val env) s

/-- The address of a completion write, by its kind (R403, R404, R413). -/
def Chan.blockAddrOf (c : Chan) : Nat → Nat
  | 0 => c.slotAddr
  | 1 => c.cwAddr.toNat
  | 2 => c.outBase.toNat + c.outTail.toNat % 2 ^ c.outLog2.toNat * c.outSlot.toNat
  | _ => c.outProducer.toNat

/-- A completion write of a channel failed (R404): what it carried is stored, deferred or withheld, and the channel blocks.
A record is that of the completed descriptor `job`. -/
def completionBlocked (c kind job : Nat) (d : Dev) : Dev :=
  let ch := d.chan c
  let a := ch.blockAddrOf kind
  if !d.host.ats || d.host.held || ch.state = .disabled || a = 0 then d
  else match kind with
    | 0 =>
      match d.job job with
      | some j =>
        if j.chan = c && j.launch.isNone && ch.cqLog2 ≠ 0 && d.jobComplete j && !completionHeld d j then
          completeJob job { deny := [(a, 32)] } d
        else d
      | none => d
    | 1 => blockChannel d c 1 a 0
    | _ => if ch.outLog2 ≠ 0 then blockChannel d c kind a 0 else d

/-- COMPLETION_BLOCKED (R404). -/
def execCompletionBlocked (c : Fin 64) (kind : Fin 4) (job : Nat) (s : State) : Host.Outcome State Fault Refusal :=
  onDev (completionBlocked c.val kind.val job) s

/-! ### Data addresses -/

/-- A host access on a data address of a channel failed (R406): a descriptor in progress ends with HOST_ACCESS_FAULT, its
bytes moved standing, and a zero-length read that failed ends it too; without one, the channel's record-ring read failed. -/
def hostAccessFault (c : Nat) (job : Option Nat) (d : Dev) : Dev :=
  match job with
  | some id =>
    match d.job id with
    | some j =>
      if j.chan ≠ c then d
      else if flushDue d j then (accessFault d j).updJob id fun k => { k with flushDone := true }
      else if j.engine.isSome && (j.desc.srcHost || j.desc.dstHost) && !d.jobComplete j then accessFault d j
      else d
    | none => d
  | none =>
    match d.ringFeed c with
    | some f =>
      let ch := d.chan c
      if ch.inRetry || d.host.held then d else ringReadFailed c (ch.inAddr (ch.inHead.toNat + f.queue.length)) d
    | none => d

/-- HOST_ACCESS_FAULT (R406). -/
def execHostAccessFault (c : Fin 64) (job : Option Nat) (s : State) : Host.Outcome State Fault Refusal :=
  onDev (hostAccessFault c.val job) s

/-- PCIE_COMPLETION_TIMEOUT: a read answered by no completion in time fails as one answered in error (R39, R403, R406). -/
def execPcieCompletionTimeout (c : Fin 64) (job : Option Nat) (s : State) : Host.Outcome State Fault Refusal :=
  onDev (hostAccessFault c.val job) s

/-! ### Engine flush, vectors, translation -/

/-- CE_FLUSH: a read of the register, which a hold keeps waiting (R402, R409). -/
def execCeFlush (e : Fin 20) (s : State) : Host.Outcome State Fault Refusal :=
  onAny (fun d =>
    if d.host.held && !d.fatal then d.toHost (.flush e.val)
    else
      let (d, v) := regReadFx s.mc d (0x200000 + 0x100 * e.val + 0x10)
      d.emit (.readValue (toLe 8 v))) s

/-- A vector unmasked: its withheld messages are sent, one for each (R395). -/
def unmask (v : Nat) (d : Dev) : Dev :=
  let n := Tbl.get 0 v d.host.msixPending
  let h := { d.host with masked := d.host.masked &&& ~~~(BitVec.ofNat 128 (2 ^ v)), msixPending := Tbl.set 0 v 0 d.host.msixPending }
  (List.range n).foldl (fun d _ => d.toHost (d.msixMsg v)) { d with host := h }

/-- MSIX_UNMASK (R395). -/
def execMsixUnmask (v : Fin 128) (s : State) : Host.Outcome State Fault Refusal := onDev (unmask v.val) s

/-- The cached translations of a range dropped, and the completion of the invalidation sent (R403). -/
def atsInvalidate (a n : Nat) (d : Dev) : Dev :=
  { d with host := { d.host with atc := d.host.atc.filter fun p => !overlaps (4096 * p) 4096 a n } }.emit (.invalidated a n)

/-- ATS_INVALIDATE (R403). -/
def execAtsInvalidate (addr : BitVec 64) (bytes : Nat) (s : State) : Host.Outcome State Fault Refusal :=
  onAny (atsInvalidate addr.toNat bytes) s

/-- ATS_ENABLE: the host sets or clears the ATS Enable bit (R403); disabled, the translation cache is empty. -/
def execAtsEnable (on : Bool) (s : State) : Host.Outcome State Fault Refusal :=
  onAny (fun d => { d with host := { d.host with ats := on, atc := if on then d.host.atc else [] } }) s

end Sys2Proof.Machine
end

