-- ==== Sys2Proof/Machine/Survive.lean ====
section
/-! DEFINITION. Training survival: SNAPSHOT_MARK, the input log, the mirror at the source and at the partner, drains into
flash (R447 to R460). -/
namespace Sys2Proof.Machine

/-! ### SNAPSHOT_MARK -/

/-- KIND of a SNAPSHOT_MARK (R447). -/
def markKind (x : Desc) : Nat := x.op 0x2A 1
/-- DRAIN of a SNAPSHOT_MARK (R447). -/
def markDrain (x : Desc) : Bool := bit (x.op 0x2B 1) 0
/-- SOURCE of a SNAPSHOT_MARK of KIND 3 (R447). -/
def markSource (x : Desc) : Nat := bits (x.op 0x2B 1) 1 2

/-- The operand rules of a KIND that need no state (R447). -/
def markForm (x : Desc) : Bool :=
  match markKind x with
  | 0 => x.onlyOps [(0x10, 8), (0x18, 8), (0x28, 2), (0x2A, 1)] && x.op 0x28 2 == 0xFFFF && x.op 0x18 8 % 8 == 0
  | 1 | 2 => x.onlyOps [(0x28, 2), (0x2A, 1), (0x2B, 1)] && x.op 0x2B 1 < 2
  | 3 => x.onlyOps [(0x18, 8), (0x20, 8), (0x28, 2), (0x2A, 1), (0x2B, 1), (0x30, 8)] && x.op 0x28 2 == 0xFFFF &&
      x.op 0x2B 1 % 2 == 0 && x.op 0x2B 1 < 8 && x.op 0x18 8 % 4096 == 0 && x.op 0x20 8 % 4096 == 0 &&
      x.op 0x20 8 != 0 && x.op 0x30 8 % 4096 == 0
  | _ => false

/-- A snapshot slot of the flash. -/
def Flash.slot (f : Flash) (i : Nat) : FlashSlot := if i = 0 then f.slot0 else f.slot1

/-- Bytes of a snapshot slot: 3,584 GiB (R459). -/
def slotLength : Nat := 3584 * 2 ^ 30
/-- Bytes of the flash log area: 2^24 entries (R459). -/
def logAreaLength : Nat := 2 ^ 31

/-- The length of the source that a KIND 3 names, where it holds valid data (R447, R460). -/
def Flash.sourceLength (f : Flash) (src : Nat) : Nat :=
  match src with
  | 0 => if f.slot0.valid then slotLength else 0
  | 1 => if f.slot1.valid then slotLength else 0
  | 2 => if f.logArea.isEmpty then 0 else logAreaLength
  | _ => 0

/-- The plot IDs that a template names. -/
def templatePlots (t : Bytes) : List Nat := (tab 4 fun i => field t (0x18 + 2 * i) 2).filter (· ≠ 0xFFFF)

/-- A template keeps R449: what the FEC fills and what is reserved is zero, and every plot named exists. -/
def templateOk (d : Dev) (t : Bytes) : Bool :=
  field t 0 8 == 0 && field t 0x10 8 == 0 && field t 0x20 16 == 0 && field t 0x70 4 == 0 && field t 0x78 8 == 0 &&
  (templatePlots t).all fun p => (d.plot p).isSome

/-- The checks of a KIND 0 (R447, R450). -/
def checkMarkStep (d : Dev) (x : Desc) (env : Env) : Verdict :=
  (checks [(x.op 0x10 8 != d.surv.stepNext.toNat, stSnapshotInvalid), (!d.addrOk .read false (x.op 0x18 8) 128, stAddressInvalid)]).andThen
    (fun _ => match d.readG env (x.op 0x18 8) 128 with
     | .error e => .fail e
     | .ok t => checks [(!templateOk d t, stSnapshotInvalid)])

/-- SNAPSHOT_MARK's checks (R447). -/
def checkMark (d : Dev) (x : Desc) (env : Env) : Verdict :=
  if !markForm x then .reject stSnapshotInvalid
  else match markKind x with
  | 0 => checkMarkStep d x env
  | 3 => checks [(d.flash.sourceLength (markSource x) < x.op 0x30 8 + x.op 0x20 8, stSnapshotInvalid),
      (!d.addrOk .write false (x.op 0x18 8) (x.op 0x20 8), stAddressInvalid)]
  | _ => checks [((d.partnerOf (x.op 0x28 2)).isNone || d.otherPartner (x.op 0x28 2), stSnapshotInvalid)]

/-! ### The input log -/

/-- FAULTED of the entry of a mark (R449): a descriptor before it on its channel has completed with a class 4 status since the
last entry. -/
def faultedBy (d : Dev) (j : Job) : Bool :=
  (d.chan j.chan).faulted || (d.before j.id).any fun k => k.chan == j.chan && !k.noted && d.jobComplete k && (finalStatus d k).1.cls == 4

/-- The statuses that an entry has taken into FAULTED count for no later entry (R449). -/
def noteFaulted (d : Dev) (j : Job) : Dev :=
  let old := (d.before j.id).map (·.id)
  let mark (k : Job) : Job := if k.chan = j.chan && old.contains k.id && d.jobComplete k then { k with noted := true } else k
  { d with jobs := d.jobs.map mark }.updChan j.chan fun c => { c with faulted := false }

/-- The input-log entry of a mark, from its template (R449). -/
def logEntry (d : Dev) (j : Job) (t : Bytes) : Bytes :=
  let versions := (tab 4 fun i => (((d.plot (field t (0x18 + 2 * i) 2)).bind (·.activeGrove)).map (·.info.version)).getD 0)
  let b := toLe 8 (j.desc.op 0x10 8) ++ slice t 8 8 ++ toLe 4 (d.layout.elim 0 (·.hash)) ++ toLe 4 d.surv.epochOpen.toNat ++
    slice t 0x18 8 ++ (versions.map (toLe 4)).flatten ++ slice t 0x30 64 ++ toLe 4 (b2n (faultedBy d j)) ++
    slice t 0x74 4 ++ toLe 4 0
  b ++ toLe 4 (crc32c b)

/-- Step 1 of R450: the host write of an entry, none where there is no host log, one that a hold keeps (R409). Nothing
where its translation fails. -/
def logToHost (d : Dev) (j : Job) (e : Bytes) : Option Dev :=
  let a := d.surv.logAddr (j.desc.op 0x10 8)
  if d.surv.logLog2 = 0 then some d
  else if d.host.held then
    some ((d.toHost (.data a e false 0 j.id)).updJob j.id fun j => { j with hostHeld := true, detail0 := j.desc.op 0x10 8 })
  else if hostDenied d j.env a 128 then none
  else some (writeLog d j a e)

/-- An entry programmed into the flash log area (R450 step 2). -/
def Flash.program (f : Flash) (step : Nat) (e : Bytes) : Flash :=
  { f with logArea := Tbl.set [] (step % 2 ^ 24) e f.logArea, writes := f.writes + 1 }

/-- A mark's entry recorded, from the template that its dispatch checked (R450 steps 1 and 2); the mark then awaits the
flash's acknowledgement. -/
def recordEntry (j : Job) (d : Dev) : Dev :=
  let e := logEntry d j (d.blockOf j (j.desc.op 0x18 8) 128)
  let epoch := d.surv.epochOpen.toNat
  let d' := noteFaulted d j
  match logToHost d' j e with
  | none => (d'.countAccessFault j.chan stHostAccessFault).finishJob j.id stHostAccessFault
  | some d' =>
    { d' with flash := d'.flash.program (j.desc.op 0x10 8) e }.updJob j.id fun j =>
      { j with phase := .active, cursor := 1, detail0 := j.desc.op 0x10 8, detail1 := epoch }

/-- KIND 0 at its dispatch, and again while it waits for the earlier descriptors of its channel (R360, R450). -/
def startMarkStep (j : Job) (d : Dev) : Dev :=
  let d := if j.phase == .active then
      { d with surv := { d.surv with stepNext := d.surv.stepNext + 1 } }.updJob j.id fun j => { j with phase := .queued }
    else d
  if d.earlierDone j.chan j.id j.launch then recordEntry j d else d

/-- The flash acknowledges its programs (R39, R450 step 3): the marks whose entries it holds complete. -/
def flashPoll (d : Dev) : Dev :=
  (d.jobs.filter fun j => j.desc.code == 0x34 && markKind j.desc == 0 && j.phase == .active && j.cursor == 1).foldl
    (fun d j => d.finishJob j.id 0) d

/-- FLASH_POLL (R39, R450). -/
def execFlashPoll (s : State) : Host.Outcome State Fault Refusal := onDev flashPoll s

/-! ### The mirror at its source -/

/-- APPLIED_STEP of a close that is made now (R456). -/
def Survive.appliedStep (s : Survive) : Nat := (s.stepNext - 1).toNat

/-- Every UPDATE with MIRROR dispatched before a mark has ended, its mirror writes acknowledged (R456 step 2). -/
def mirrorsDone (d : Dev) (id : Nat) : Bool :=
  (d.before id).all fun j => j.ended || !(j.desc.code == 0x41 && (updateOps j.desc).mirror)

/-- A mark ends with MIRROR_LOST (R457). -/
def markLost (d : Dev) (j : Job) : Dev := (d.mirrorFails (j.desc.op 0x28 2)).countLost.finishJob j.id stMirrorLost

/-- A close frame sent to the partner (R456 step 2, R469). -/
def sendClose (d : Dev) (j : Job) (p : Partner) : Dev :=
  let body := toLe 4 j.cursor ++ toLe 1 (b2n (markDrain j.desc)) ++ toLe 3 0 ++ toLe 8 j.detail0
  let (d, tag) := sendRequest d p.deviceId 10 (j.desc.op 0x28 2) j.id 0 0 j.cursor fun _ => body
  d.updJob j.id fun j => { j with phase := .active, wait := [tag] }

/-- KIND 1 at its dispatch: the next epoch opens (R456 step 1); where the copy is lost there is no close (R457). -/
def openEpoch (j : Job) (d : Dev) : Dev :=
  let e := d.surv.epochOpen
  { d with surv := { d.surv with epochOpen := e + 1 } }.updJob j.id fun j =>
    { j with phase := .queued, cursor := e.toNat, detail0 := d.surv.appliedStep, detail1 := e.toNat }

/-- The close frame goes once the earlier mirrored UPDATEs are done (R456 step 2). -/
def closeEpoch (id : Nat) (d : Dev) : Dev :=
  match d.job id, d.surv.bound with
  | some j, some p =>
    if !mirrorsDone d id then d
    else if d.surv.lost || (d.routePort p.deviceId).isNone then markLost d j
    else sendClose d j p
  | some j, none => markLost d j
  | none, _ => d

/-- KIND 1 (R456). -/
def startMarkEpoch (j : Job) (d : Dev) : Dev :=
  if j.phase == .active && d.surv.lost then markLost d j
  else closeEpoch j.id (if j.phase == .active then openEpoch j d else d)

/-- The mirror header that a source writes (R454, R458). -/
def mirrorHeader (d : Dev) (epoch step : Nat) : Bytes :=
  let w := d.surv.window
  let b := toLe 4 0x5252494D ++ toLe 1 1 ++ toLe 1 0 ++ toLe 2 d.deviceId ++ toLe 8 w.1 ++ toLe 8 w.2 ++
    toLe 8 (d.surv.logMib.toNat * 2 ^ 20) ++ toLe 8 step ++ toLe 4 epoch ++ toLe 4 (d.layout.elim 0 (·.hash)) ++
    List.replicate 12 0#8
  b ++ toLe 4 (crc32c b)

/-- One Write unit of a mark to its partner: it names the mark's plot, so that the partner knows it for mirror traffic. -/
def mirrorWrite (j : Job) (p : Partner) (d : Dev) (w : Nat × Bytes) : Dev :=
  let body (t : Nat) : Bytes := toLe 8 w.1 ++ toLe 4 w.2.length ++ toLe 4 t ++ w.2
  let (d, tag) := sendRequest d p.deviceId 7 (j.desc.op 0x28 2) j.id w.1 w.2.length j.cursor body
  d.updJob j.id fun j => { j with wait := j.wait ++ [tag] }

/-- KIND 2's copy: the next epoch opens, the window and then the header go to the partner (R458). -/
def copyWindow (j : Job) (p : Partner) (win : Bytes) (d : Dev) : Dev :=
  let e := d.surv.epochOpen
  let step := d.surv.appliedStep
  let h := mirrorHeader d e.toNat step
  let j := { j with phase := .active, cursor := e.toNat, detail0 := step, detail1 := e.toNat }
  let d := { d with surv := { d.surv with epochOpen := e + 1 } }.updJob j.id fun _ => j
  (writePieces (win.length / 4096 + 1) (p.mirrorBase + 0x1000) win ++ [(p.mirrorBase, h)]).foldl (mirrorWrite j p) d

/-- KIND 2 once it waits for nothing (R458). -/
def fullMark (id : Nat) (d : Dev) : Dev :=
  match d.job id, d.surv.bound with
  | some j, some p =>
    if !mirrorsDone d id then d
    else if (d.routePort p.deviceId).isNone then markLost d j
    else
      let w := d.surv.window
      match d.readG j.env (d.deviceId * 2 ^ 40 + w.1) w.2 with
      | .error e => d.endRead j e
      | .ok b => copyWindow j p b d
  | _, _ => d

/-- KIND 2 (R458): the first one binds the partner (R453). -/
def startMarkFull (j : Job) (d : Dev) : Dev :=
  let d := if j.phase == .active then
      { d with surv := { d.surv with bound := d.partnerOf (j.desc.op 0x28 2) } }.updJob j.id fun j => { j with phase := .queued }
    else d
  fullMark j.id d

/-- A closed epoch: CLOSED follows, a KIND 2 ends what R457 says of a lost copy, and the mark ends (R456 step 5, R458). -/
def markDone (d : Dev) (j : Job) : Dev :=
  let full := markKind j.desc == 2
  { d with surv := { d.surv with valid := d.surv.valid || full, lost := d.surv.lost && !full,
                                 epochClosed := BitVec.ofNat 32 (max d.surv.epochClosed.toNat j.cursor) } }.finishJob j.id 0

/-- An answer to a mark's request: a failed one loses the copy (R457); with the last write of a KIND 2 acknowledged, its
drain is asked of the partner, if it wants one (R458, R459). -/
def markAnswered (d : Dev) (id : Nat) (kind : Nat) (st : Status) : Dev :=
  match d.job id with
  | none => d
  | some j =>
    if j.phase == .done then d
    else if st ≠ 0 then (markLost d j).updJob id fun j => { j with wait := [] }
    else if !j.wait.isEmpty then d
    else match d.surv.bound with
      | some p =>
        if kind = 7 && markDrain j.desc then
          (if (d.routePort p.deviceId).isNone then markLost d j else sendClose d j p)
        else markDone d j
      | none => d

/-! ### KIND 3 -/

/-- A byte of a snapshot slot: what a drain wrote into the header and the base (R459); the rest is not specified. -/
def slotByte (f : Flash) (i o : Nat) : Byte :=
  let s := f.slot i
  if o < s.header.length then at' 0 s.header o
  else if 0x1000 ≤ o && o < 0x1000 + s.base.length then at' 0 s.base (o - 0x1000)
  else Config.flashByte f.writes o

/-- A byte of the flash log area: an entry's, or not specified where none has been programmed (R450). -/
def logAreaByte (f : Flash) (o : Nat) : Byte :=
  match Tbl.get [] (o / 128) f.logArea with
  | [] => Config.flashByte f.writes o
  | e => at' 0 e (o % 128)

/-- KIND 3: bytes of the flash copied into global memory (R448, R460); those for another device are copied as their writes are
acknowledged. -/
def startMarkReadback (j : Job) (d : Dev) : Dev :=
  let src := markSource j.desc
  let b := tab (j.desc.op 0x20 8) fun i =>
    let o := j.desc.op 0x30 8 + i
    if src = 2 then logAreaByte d.flash o else slotByte d.flash src o
  let a := j.desc.op 0x18 8
  let d := d.updJob j.id fun j =>
    { j with detail0 := if addrDevice a = d.deviceId then b.length else 0, detail1 := if src = 2 then 0 else (d.flash.slot src).epoch }
  if addrDevice a ≠ d.deviceId && (d.routePort (addrDevice a)).isNone then d.finishJob j.id stLinkLost
  else (d.writeG j.id a b).finishJob j.id 0

/-- SNAPSHOT_MARK's work, by its KIND. -/
def startMark (j : Job) (d : Dev) : Dev :=
  match markKind j.desc with
  | 0 => startMarkStep j d
  | 1 => startMarkEpoch j d
  | 2 => startMarkFull j d
  | _ => startMarkReadback j d

/-! ### The mirror at the partner -/

/-- A field of the mirror header at the start of the incoming region (R454). -/
def mirField (d : Dev) (o n : Nat) : Nat := le (d.localBytes (4096 * d.surv.inStart.toNat + o) n)

/-- A range of local offsets lies inside the incoming region (R454, FEC_MIRROR_IN). -/
def inMirrorRegion (s : Survive) (o n : Nat) : Bool :=
  4096 * s.inStart.toNat ≤ o && o + n ≤ 4096 * (s.inStart.toNat + s.inPages.toNat)

/-- A mirror frame from a device that the header does not name, or with no region that holds it, is foreign (R454). -/
def foreign (d : Dev) (src : Nat) : Bool := !inMirrorRegion d.surv (4096 * d.surv.inStart.toNat) 0x1000 || mirField d 6 2 != src

/-- FOREIGN counted (R454, R462). -/
def countForeign (d : Dev) : Dev := { d with surv := { d.surv with status := laneBump (setBit d.surv.status 2) 3 } }

/-- The answer to a mirror record or close (R455, R456; a tag of the partner's own making, as the units carry none). -/
def answerMirror (d : Dev) (dst plot epoch : Nat) (close : Bool) (st : Status) : Dev :=
  sendUnit d dst 14 plot (toLe 4 (2 ^ 31 + b2n close * 2 ^ 30 + epoch % 2 ^ 30) ++ toLe 2 st.toNat ++ toLe 2 0)

/-- Log `e mod 2` of the partner. -/
def Survive.log (s : Survive) (e : Nat) : MirrorLog := if e % 2 = 0 then s.log0 else s.log1
/-- Log `e mod 2` replaced. -/
def Survive.setLog (s : Survive) (e : Nat) (l : MirrorLog) : Survive := if e % 2 = 0 then { s with log0 := l } else { s with log1 := l }

/-- The local offset at which log `e mod 2` starts (R454). -/
def logStart (d : Dev) (e : Nat) : Nat :=
  4096 * d.surv.inStart.toNat + 0x1000 + mirField d 0x10 8 + e % 2 * mirField d 0x18 8

/-- A log record appended to its log, or discarded where it does not fit: the epoch is then overflowed (R455, R457). -/
def appendRecord (d : Dev) (e : Nat) (r : Bytes) : Dev :=
  let l := d.surv.log e
  if l.overflow then d
  else if mirField d 0x18 8 < l.used + r.length then
    { d with surv := { d.surv.setLog e { l with overflow := true } with status := laneBump (setBit d.surv.status 1) 2 } }
  else
    let d := d.setLocalBytes (logStart d e + l.used) r
    { d with surv := d.surv.setLog e { l with used := l.used + r.length } }

/-- An earlier write from the same device waits in the same port, so that a mirror unit does not pass it (R18, R458). -/
def behindWrite (p : Port) (u : RxUnit) : Bool := (p.rx.takeWhile (· != u)).any fun v => v.kind = 7 && v.src = u.src

/-- A mirror record taken (R454, R455, R457): it waits for the log of its epoch to be emptied. -/
def mirrorTake (pn : Nat) (d : Dev) : Dev :=
  let free (u : RxUnit) : Bool :=
    let e := field u.body 8 4
    u.kind = 9 && !behindWrite (d.port pn) u && (foreign d u.src || mirField d 4 1 != 1 || e ≤ mirField d 0x28 4 + 2)
  match (d.port pn).rx.find? free with
  | none => d
  | some u =>
    let e := field u.body 8 4
    let d := d.takeUnit pn u
    let o := 4096 * d.surv.inStart.toNat + 0x1000 + field u.body 0 8
    if foreign d u.src || !inMirrorRegion d.surv o (field u.body 12 2) ||
        !inMirrorRegion d.surv (logStart d e) (mirField d 0x18 8) then
      answerMirror (countForeign d) u.src u.plot e false stMirrorLost
    else if mirField d 4 1 ≠ 1 then answerMirror d u.src u.plot e false stMirrorLost
    else answerMirror (appendRecord d e u.body) u.src u.plot e false 0

/-- MIRROR_RECORD (R455). -/
def execMirrorRecord (p : Fin 16) (s : State) : Host.Outcome State Fault Refusal := onDev (mirrorTake p.val) s

/-- The records of a log, applied to the base in log order (R456 step 3); `n` bounds their number. -/
def applyLog (base : Nat) : Nat → Bytes → Dev → Dev
  | 0, _, d => d
  | n + 1, b, d =>
    if b.length = 0 then d
    else
      let x := field b 12 2
      applyLog base n (b.drop (alignUp (16 + x) 64)) (d.setLocalBytes (base + field b 0 8) (slice b 16 x))

/-- The mirror header rewritten with fields replaced, and its CRC (R454). -/
def rewriteHeader (d : Dev) (new : List (Nat × Bytes)) : Dev :=
  let a := 4096 * d.surv.inStart.toNat
  let b := new.foldl (fun b p => overlay b p.1 p.2) (d.localBytes a 0x3C)
  d.setLocalBytes a (b ++ toLe 4 (crc32c b))

/-- The close of an epoch at the partner (R456 step 3, R457): its log applied and the header written, or the log of an
overflowed epoch discarded; whether the base stands. An epoch that the base holds already is not applied again. -/
def applyEpoch (d : Dev) (e step hash : Nat) : Dev × Bool :=
  let l := d.surv.log e
  let empty (d : Dev) : Dev := { d with surv := d.surv.setLog e {} }
  if e ≤ mirField d 0x28 4 then (d, true)
  else if l.overflow then (empty (rewriteHeader d [(4, toLe 1 2)]), false)
  else
    let b := d.localBytes (logStart d e) l.used
    let d := applyLog (4096 * d.surv.inStart.toNat + 0x1000) (l.used / 64 + 1) b d
    (empty (rewriteHeader d [(0x20, toLe 8 step), (0x28, toLe 4 e), (0x2C, toLe 4 hash)]), true)

/-- A close frame taken (R454, R456): it waits for a drain in progress and for the close before it. The frame carries no
layout hash; `hash` is the source's at the close. -/
def mirrorClose (pn hash : Nat) (d : Dev) : Dev :=
  match (d.port pn).rxOf 10 with
  | none => d
  | some u =>
    let e := field u.body 0 4
    if foreign d u.src then answerMirror (countForeign (d.takeUnit pn u)) u.src u.plot e true stMirrorLost
    else if mirField d 4 1 ≠ 1 then answerMirror (d.takeUnit pn u) u.src u.plot e true stMirrorLost
    else if d.surv.drain.isSome || behindWrite (d.port pn) u || mirField d 0x28 4 + 1 < e then d
    else
      let (d, ok) := applyEpoch (d.takeUnit pn u) e (field u.body 8 8) hash
      if !ok then answerMirror d u.src u.plot e true stMirrorLost
      else if field u.body 4 1 = 1 then { d with surv := { d.surv with drain := some (u.src, e, u.plot) } }
      else answerMirror d u.src u.plot e true 0

/-- MIRROR_CLOSE (R456). -/
def execMirrorClose (p : Fin 16) (hash : BitVec 32) (s : State) : Host.Outcome State Fault Refusal :=
  onDev (mirrorClose p.val hash.toNat) s

/-- The slot that a drain writes (R459). -/
def drainSlot (d : Dev) : FlashSlot :=
  let a := 4096 * d.surv.inStart.toNat
  let base := d.localBytes (a + 0x1000) (mirField d 0x10 8)
  let h := overlay (d.localBytes a 0x3C) 4 (toLe 1 1) ++ (tab 4 fun i => Config.flashByte d.flash.writes (0x3C + i)) ++
    toLe 4 (crc32c base)
  { valid := true, epoch := mirField d 0x28 4, header := h ++ toLe 4 (crc32c h), base := base }

/-- A drain in progress ends: the slot is valid, and the close that asked for it is answered (R456 step 4, R459). The drain
is number n of the module, and takes slot n mod 2. -/
def mirrorDrain (d : Dev) : Dev :=
  match d.surv.drain with
  | none => d
  | some (src, e, plot) =>
    let s := drainSlot d
    let f : Flash := { d.flash with drains := d.flash.drains + 1, writes := d.flash.writes + 1 }
    let f := if f.drains % 2 = 0 then { f with slot0 := s } else { f with slot1 := s }
    answerMirror { d with flash := f, surv := { d.surv with drain := none } } src plot e true 0

/-- MIRROR_DRAIN (R459). -/
def execMirrorDrain (s : State) : Host.Outcome State Fault Refusal := onDev mirrorDrain s

/-- The mirror header names its source: it has been written, and its state is not EMPTY (R454; log 36). -/
def sourceNamed (d : Dev) : Bool := mirField d 0 4 == 0x5252494D && mirField d 4 1 != 0

/-- A Write unit of a mirror's rebuild (R454, R458): foreign where the incoming region does not hold it, or where the header names
another source; the header's write empties both logs. -/
def mirrorWritten (d : Dev) (src o : Nat) (b : Bytes) : Dev × Status :=
  if !inMirrorRegion d.surv o b.length || (sourceNamed d && mirField d 6 2 != src) then (countForeign d, stMirrorLost)
  else
    let d := d.setLocalBytes o b
    if o = 4096 * d.surv.inStart.toNat then ({ d with surv := { d.surv with log0 := {}, log1 := {} } }, 0) else (d, 0)

end Sys2Proof.Machine
end

