-- ==== Sys2Proof/Machine/Links.lean ====
section
/-! DEFINITION. Chain links: sessions, frames received, retransmission, link loss, routes, and the units that ask something
of this device or answer it (R464 to R477, R485). -/
namespace Sys2Proof.Machine

/-! ### Ethernet frames -/

/-- A big-endian field, as the network's headers have them. -/
def beField (b : Bytes) (o n : Nat) : Nat := le (slice b o n).reverse

/-- The Ethernet type of a frame and what follows it, past at most one 802.1Q tag (R468, R478). -/
def ethPayload (f : Bytes) : Nat × Bytes :=
  if beField f 12 2 = 0x8100 then (beField f 16 2, f.drop 18) else (beField f 12 2, f.drop 14)

/-- The LCP frame that an Ethernet frame carries (R468). -/
def lcpPayload (f : Bytes) : Option Bytes := let (type, b) := ethPayload f; if type = lcpType then some b else none

/-! ### Sessions -/

/-- The 64-byte blocks that a chain link grants to each class: a quarter of 3 MiB of receive buffer, or of half of it (R464,
R470). -/
def Dev.classBlocks (d : Dev) (pn : Nat) : Nat := if d.isSplit pn then 6144 else 12288

/-- An LCP frame's header and units carry their CRC (R468). -/
def lcpOk (f : Bytes) : Bool := field f (0x20 + field f 0x18 2) 4 == crc32c (f.take (0x20 + field f 0x18 2)) && 0x24 ≤ f.length

/-- A HELLO frame sent (R472): it names this side's last session and what it grants. -/
def sendHello (d : Dev) (pn : Nat) : Dev :=
  let p := d.port pn
  let body := toLe 2 d.deviceId ++ toLe 1 pn ++ toLe 5 0 ++ toLe 2 p.session.toNat ++
    (tab 4 fun _ => toLe 2 (d.classBlocks pn)).flatten ++ toLe 14 0
  (d.updPort pn fun p => { p with progress := p.progress + 1 }).emit
    (.frame pn lcpType (lcpFrame 3 0 0 0 0 d.deviceId 0xFFFF [] p.session.toNat body))

/-- A port leaves DISABLED (R464, R465): an odd one only where the physical port runs split. -/
def portEnable (pn : Nat) (d : Dev) : Dev :=
  let p := d.port pn
  if p.state ≠ .disabled || p.mode.toNat = 0 || p.mode.toNat = 3 || (pn % 2 = 1 && !d.isSplit pn) then d
  else d.updPort pn fun p => { p with state := .training, dgramSeq := 0 }

/-- PORT_ENABLE (R465, R485). -/
def execPortEnable (p : Fin 16) (s : State) : Host.Outcome State Fault Refusal := onDev (portEnable p.val) s

/-- The PCS is aligned (R472): a chain link sends its HELLO, a record port is up. -/
def pcsAlignment (pn : Nat) (d : Dev) : Dev :=
  let p := d.port pn
  if p.state = .disabled || p.state = .up then d
  else if p.mode.toNat = 1 then sendHello (d.updPort pn fun p => { p with state := .training }) pn
  else d.updPort pn fun p => { p with state := .up }

/-- PCS_ALIGNMENT (R472). -/
def execPcsAlignment (p : Fin 16) (s : State) : Host.Outcome State Fault Refusal := onDev (pcsAlignment p.val) s

/-- A port as a new session begins: sequence numbers at 0, every class at what the other side granted; units of the last
session that still wait free no block of this one (R470, R472). -/
def Port.begin (p : Port) (session : Nat) (grants : List Nat) : Port :=
  { p with state := .up, session := BitVec.ofNat 16 session, nextSeq := 0, expectSeq := 0, nakSent := false, retries := 0,
           unacked := [], txq := [], credits := grants, peerFreed := [0, 0, 0, 0], freed := [0, 0, 0, 0],
           rx := p.rx.map fun u => { u with frame := u.frame + 2 ^ 32, blocks := 0 } }

/-- A port can carry traffic. -/
def Dev.portUp (d : Dev) (pn : Nat) : Bool := (d.port pn).state == .up

/-- A route as the ports now stand (R466, R473, R485): PORT where it is up, else ALT_PORT where that is up, else down. -/
def Route.settle (d : Dev) (r : Route) : Route :=
  if r.portValid && d.portUp r.port.toNat then { r with usingAlt := false, down := false }
  else if r.altValid && d.portUp r.alt.toNat then { r with usingAlt := true, down := false }
  else { r with down := r.portValid || r.altValid }

/-- Every route that satisfies a test settled again. -/
def Dev.settleRoutes (d : Dev) (p : Route → Bool) : Dev :=
  { d with routes := d.routes.map fun x => if p x.2 then (x.1, x.2.settle d) else x }

/-- A HELLO received (R472). -/
def hello (pn : Nat) (f : Bytes) (d : Dev) : Dev :=
  let p := d.port pn
  if p.mode.toNat ≠ 1 || p.state ≠ .training || !lcpOk f || field f 0 1 ≠ 1 || field f 1 1 ≠ 3 then d
  else
    let dev := field f 0x20 2
    let d := d.updPort pn fun p => { p with progress := p.progress + 1 }
    if !p.expectAny && dev ≠ p.expectDevice.toNat then
      d.updPort pn fun p => { p with peer := BitVec.ofNat 16 dev, status := setBit p.status 2 }
    else
      let session := (max p.session.toNat (field f 0x28 2) + 1) % 65536
      let d := d.updPort pn fun p => { p.begin session (tab 4 fun i => field f (0x2A + 2 * i) 2) with peer := BitVec.ofNat 16 dev }
      d.settleRoutes (·.down)

/-- HELLO (R472). -/
def execHello (p : Fin 16) (frame : Bytes) (s : State) : Host.Outcome State Fault Refusal :=
  onDev (fun d => (lcpPayload frame).elim d fun f => hello p.val f d) s

/-! ### Answers to requests -/

/-- Bytes that a COPY or a READBACK wrote to another device are acknowledged: they count in DETAIL0 (R391, R448). -/
def Job.remoteMoved (j : Job) (n : Nat) : Job :=
  if j.desc.code = 0x60 || (j.desc.code = 0x34 && markKind j.desc = 3) then { j with detail0 := j.detail0 + n } else j

/-- A mirror write of an UPDATE failed (R457): the copy is lost, and the UPDATE reports MIRROR_LOST, before any status but
ROW_UNREADABLE of the same link. -/
def recordLost (d : Dev) (j : Job) : Dev :=
  let d := d.mirrorFails (updateOps j.desc).plot
  if j.status = stMirrorLost || j.status = stRowUnreadable then d
  else d.countLost.updJob j.id fun j =>
    { j with status := stMirrorLost, chainStatus := if j.earlier = 0 then stMirrorLost else j.earlier, desc := { j.desc with next := 0 } }

/-- A request is answered, or its link is lost: its descriptor waits for it no longer; a failure ends the descriptor's chain
and is its status (R332, R457, R469, R474). -/
def answered (d : Dev) (p : Pending) (st : Status) : Dev :=
  let d := { d with pendings := d.pendings.filter fun q => q.tag ≠ p.tag }
  let d := d.updJob p.job fun j => { j with wait := j.wait.filter (· ≠ p.tag) }
  match d.job p.job with
  | none => if p.kind = 9 && st ≠ 0 then d.mirrorFails 0xFFFF else d
  | some j =>
    if j.desc.code = 0x34 && markKind j.desc ≠ 3 then markAnswered d p.job p.kind st
    else if st = 0 then d.updJob p.job fun j => j.remoteMoved p.bytes
    else if p.kind = 9 then recordLost d j
    else d.updJob p.job fun j =>
        { j with chainStatus := if j.chainStatus = 0 then st else j.chainStatus,
                 desc := if st.cls = 4 then { j.desc with next := 0 } else j.desc }

/-- The status with which a request ends when its link is lost (R457, R474). -/
def Pending.lost (p : Pending) : Status := if p.kind = 9 || p.kind = 10 then stMirrorLost else stLinkLost

/-- The request that a tag answers: one of this device's own tags, or the partner's tag for the oldest mirror record or
close of an epoch. -/
def Dev.pendingOf (d : Dev) (src tag : Nat) : Option Pending :=
  if tag < 2 ^ 31 then d.pendings.find? fun p => p.tag = tag
  else
    let kind := if bit tag 30 then 10 else 9
    d.pendings.find? fun p => p.kind = kind && p.dst = src && p.epoch % 2 ^ 30 = tag % 2 ^ 30

/-! ### Link loss -/

/-- The destinations whose traffic a port carries now (R473). -/
def Dev.carries (d : Dev) (pn : Nat) : List Nat :=
  (d.routes.map (·.1)).filter fun i => d.routePort i == some pn

/-- The batches whose results were on their way to a lost destination (R474). -/
def loseResults (d : Dev) (ps : List Pending) : Dev :=
  { d with feeds := d.feeds.map fun (f : Feed) => if ps.any (fun p => p.kind = 7 && p.job = f.src.jobId) then { f with linkLost := true } else f }

/-- The plots whose chain crosses to a device on a lost route wait for a restart (R474). -/
def restartCrossing (d : Dev) (lost : List Nat) : Dev :=
  (d.plotList.filter fun x => lost.contains x.2.lay.prevDevice || lost.contains x.2.lay.nextDevice).foldl
    (fun d x => if d.restartWait.contains x.1 then d else { d with restartWait := d.restartWait ++ [x.1] }) d

/-- A chain link lost (R473, R474). -/
def loseLink (d : Dev) (pn : Nat) : Dev :=
  if (d.port pn).state ≠ .up || (d.port pn).mode.toNat ≠ 1 then d
  else
    let lost := d.carries pn
    let senders := (d.port pn).unacked.flatMap (·.senders) ++ (d.port pn).txq.map (·.sender)
    let d := d.updPort pn fun p =>
      { p with state := .lost, status := setBit p.status 0, cnt := laneBump p.cnt 0, unacked := [], txq := [],
               nakSent := false, retries := 0 }
    let d := d.report (errRec stLinkLost 12 0 7 pn)
    let d := d.settleRoutes fun r => (if r.usingAlt then r.alt else r.port).toNat = pn
    let ps := d.pendings.filter fun p => lost.contains p.dst
    let d := senders.foldl senderLost d
    restartCrossing (ps.foldl (fun d p => resultAnswered (answered d p p.lost) p.tag) (loseResults d ps)) lost

/-- LINK_LOST: the PCS of a chain link loses alignment (R473). -/
def execLinkLost (p : Fin 16) (s : State) : Host.Outcome State Fault Refusal := onDev (fun d => loseLink d p.val) s

/-- DISABLE of a port (R485): a chain link is lost first. -/
def portDisable (pn : Nat) (d : Dev) : Dev := (loseLink d pn).updPort pn fun p => { p with state := .disabled }

/-- PORT_DISABLE (R485). -/
def execPortDisable (p : Fin 16) (s : State) : Host.Outcome State Fault Refusal := onDev (portDisable p.val) s

/-- A record port drops its datagrams and counts them (R483). -/
def Port.dropAll (p : Port) : Port :=
  let bump (w : Word) (i n : Nat) : Word := (List.range n).foldl (fun w _ => laneBump w i) w
  { p with dgrams := [], txDgrams := [], rpCnt := bump (bump p.rpCnt 2 p.dgrams.length) 3 p.txDgrams.length }

/-- A port reset (R424, R473, R483). -/
def portReset (pn : Nat) (d : Dev) : Dev :=
  if (d.port pn).mode.toNat = 2 then d.updPort pn Port.dropAll else loseLink d pn

/-- PORT_RESET (R424, R485). -/
def execPortReset (p : Fin 16) (s : State) : Host.Outcome State Fault Refusal := onDev (portReset p.val) s

/-! ### Frames received -/

/-- An ACK and the CREDITS of a frame applied (R470, R471): acknowledged frames leave the buffer, freed blocks come back, and
room in the transmit buffer with them. -/
def Port.acknowledge (p : Port) (f : Bytes) : Port :=
  let ack := field f 8 4
  let rest := p.unacked.filter fun x => !precedes x.seq ack
  let credit (i : Nat) : Nat := field f (0x10 + 2 * i) 2
  { p with unacked := rest, retries := if rest.length < p.unacked.length then 0 else p.retries,
           credits := tab 4 fun i => at' 0 p.credits i + (credit i + 65536 - at' 0 p.peerFreed i) % 65536,
           peerFreed := tab 4 credit, progress := p.progress + 1 }

/-- A port takes the ACK and the CREDITS of a frame; who sent the units of the frames it acknowledges learns of it (R22, R212,
R471, R476). -/
def Dev.acknowledge (d : Dev) (pn : Nat) (f : Bytes) : Dev :=
  let gone := (d.port pn).unacked.filter fun x => precedes x.seq (field f 8 4)
  (gone.flatMap (·.senders)).foldl senderAcked (d.updPort pn fun p => p.acknowledge f)

/-- The units of a DATA frame (R469), as (KIND, PLOT_ID, body); `n` bounds their number. -/
def parseUnits : Nat → Bytes → List (Nat × Nat × Bytes)
  | 0, _ => []
  | n + 1, b =>
    if b.length < 8 then []
    else (field b 0 1, field b 2 2, slice b 8 (field b 4 4)) :: parseUnits n (b.drop (8 + alignUp (field b 4 4) 8))

/-- A frame's units put into the receive buffer; those of an unknown KIND are discarded and counted (R469). A frame with
nothing left frees its blocks at once. -/
def Port.accept (p : Port) (f : Bytes) : Port :=
  let us := parseUnits 1024 (slice f 0x20 (field f 0x18 2))
  let good := us.filter fun u => 1 ≤ u.1 && u.1 ≤ 15
  let cls := field f 2 1
  let blocks := frameBlocks (field f 0x18 2)
  let bad := (List.range (us.length - good.length)).foldl (fun w _ => laneBump w 3) p.cnt
  let p := { p with cnt := bad }
  if good.isEmpty then { p with freed := setAt p.freed cls ((at' 0 p.freed cls + blocks) % 65536) }
  else
    { p with rx := p.rx ++ good.map fun u => ⟨u.1, u.2.1, field f 0xC 2, u.2.2, cls, field f 4 4, blocks⟩ }

/-- A frame for another device (R467): forwarded with one hop more, or at the hop limit discarded, its route lost. -/
def forward (d : Dev) (pn : Nat) (f : Bytes) : Dev :=
  let dst := field f 0xE 2
  let cls := field f 2 1
  let units := slice f 0x20 (field f 0x18 2)
  let d := d.updPort pn fun p => { p with freed := setAt p.freed cls ((at' 0 p.freed cls + frameBlocks units.length) % 65536) }
  if field f 3 1 = max 1 d.maxHops.toNat then
    let d := d.updPort pn fun p => { p with cnt := laneBump p.cnt 2 }
    match d.routePort dst with
    | some q => loseLink d q
    | none => d
  else match d.routePort dst with
    | none => d
    | some q =>
      let u : TxUnit := { dst := dst, src := field f 0xC 2, hops := field f 3 1 + 1, cls := cls, bytes := units }
      pump (d.updPort q fun p => { p with txq := p.txq ++ [u] }) q

/-- A frame's SESSION is current on a link that is up. -/
def Port.current (p : Port) (f : Bytes) : Bool := p.state == .up && p.mode == 1#2 && field f 0x1A 2 == p.session.toNat

/-- A NAK, at most one for each expected sequence number (R471). -/
def sendNak (d : Dev) (pn : Nat) : Dev :=
  let p := d.port pn
  if p.state ≠ .up || p.mode.toNat ≠ 1 || p.nakSent then d
  else sendReport (d.updPort pn fun p => { p with nakSent := true }) pn 2

/-- A DATA frame received (R467, R470, R471). -/
def lcpData (pn : Nat) (f : Bytes) (fcsOk : Bool) (d : Dev) : Dev :=
  let p := d.port pn
  if !(fcsOk && lcpOk f && p.current f && field f 1 1 == 0 && field f 4 4 == p.expectSeq.toNat) then sendNak d pn
  else
    let d := (d.acknowledge pn f).updPort pn fun p => { p with expectSeq := p.expectSeq + 1, nakSent := false }
    let d := if field f 0xE 2 = d.deviceId then (d.updPort pn fun p => p.accept f).deliverPort pn else forward d pn f
    pump (sendReport d pn 1) pn

/-- An Ethernet frame received on a chain link as DATA (R468, R471): one that carries no LCP is passed over, unless its FCS fails. -/
def lcpReceived (pn : Nat) (frame : Bytes) (fcsOk : Bool) (d : Dev) : Dev :=
  match lcpPayload frame with
  | some f => lcpData pn f fcsOk d
  | none => if fcsOk then d else sendNak d pn

/-- LCP_DATA (R471). -/
def execLcpData (p : Fin 16) (frame : Bytes) (fcsOk : Bool) (s : State) : Host.Outcome State Fault Refusal :=
  onDev (lcpReceived p.val frame fcsOk) s

/-- Every unacknowledged frame sent again in its order, each counted (R471). -/
def retransmit (d : Dev) (pn : Nat) : Dev :=
  (d.port pn).unacked.foldl (fun d f =>
    let d := d.updPort pn fun p => { p with status := setBit p.status 1, cnt := laneBump p.cnt 1, progress := p.progress + 1 }
    d.emit (.frame pn lcpType ((d.port pn).dataFrame f))) d

/-- A CONTROL or NAK frame received: its ACK and CREDITS apply; a NAK calls for the frames from its ACK on (R471). -/
def lcpReport (pn : Nat) (f : Bytes) (nak : Bool) (d : Dev) : Dev :=
  if !(lcpOk f && (d.port pn).current f && field f 1 1 == (if nak then 2 else 1)) then d
  else
    let d := d.acknowledge pn f
    pump (if nak then retransmit d pn else d) pn

/-- LCP_NAK (R471). -/
def execLcpNak (p : Fin 16) (frame : Bytes) (s : State) : Host.Outcome State Fault Refusal :=
  onDev (fun d => (lcpPayload frame).elim d fun f => lcpReport p.val f true d) s

/-- LCP_CONTROL (R470). -/
def execLcpControl (p : Fin 16) (frame : Bytes) (s : State) : Host.Outcome State Fault Refusal :=
  onDev (fun d => (lcpPayload frame).elim d fun f => lcpReport p.val f false d) s

/-- The retransmission timer expires (R39, R471). -/
def retransmitTimer (pn : Nat) (d : Dev) : Dev :=
  let p := d.port pn
  if p.state ≠ .up || p.mode.toNat ≠ 1 || p.unacked.isEmpty then d
  else if max 1 p.retryLimit.toNat ≤ p.retries + 1 then loseLink d pn
  else retransmit (d.updPort pn fun p => { p with retries := p.retries + 1 }) pn

/-- LCP_RETRANSMIT_TIMER (R39, R471). -/
def execLcpRetransmitTimer (p : Fin 16) (s : State) : Host.Outcome State Fault Refusal := onDev (retransmitTimer p.val) s

/-! ### The routing table -/

/-- A route entry that a plot in force or an unacknowledged frame pins (R466). -/
def Dev.routePinned (d : Dev) (dst : Nat) : Bool :=
  (d.plotList.any fun x => x.2.lay.prevDevice == dst || x.2.lay.nextDevice == dst) ||
  (List.range 16).any fun i => (d.port i).unacked.any fun f => f.dst = dst

/-- A write of a route entry (R466, R485). -/
def routeWrite (dst v : Nat) (d : Dev) : Dev :=
  let r := d.route dst
  let changes := bits v 0 4 != r.port.toNat || bits v 5 4 != r.alt.toNat
  if changes && d.routePinned dst then
    d.updPort r.port.toNat fun p => { p with status := setBit p.status 3 }
  else
    let r' : Route := { port := BitVec.ofNat 4 (bits v 0 4), portValid := bit v 4, alt := BitVec.ofNat 4 (bits v 5 4), altValid := bit v 9 }
    { d with routes := Tbl.set {} dst (r'.settle d) d.routes }

/-- ROUTE_ENTRY_WRITE (R466). -/
def execRouteEntryWrite (dev : Fin 4096) (v : BitVec 64) (s : State) : Host.Outcome State Fault Refusal :=
  onDev (routeWrite dev.val v.toNat) s

/-! ### Units of requests and answers -/

/-- The first request of a kind at a port that no earlier write or event of its source stands before. -/
def Port.requestOf (p : Port) (kind : Nat) : Option RxUnit :=
  (p.rxOf kind).bind fun u =>
    if (p.rx.takeWhile (· != u)).any fun v => v.src = u.src && (v.kind = 6 || v.kind = 7 || v.kind = 8) then none else some u

/-- The bytes of memory that another device reads, none where they hold an uncorrectable error. -/
def remoteBytes (env : Env) (a n : Nat) (d : Dev) : Option Bytes :=
  if env.ecc.any (fun p => overlaps p.1 p.2 a n) then none else some (d.localBytes (addrLocal a) n)

/-- What a read on behalf of another device returns (R24, R318, R469): memory, or a register for eight bytes of one. Whether it
is a row that another device's table engine asks its home engine for is free (log 7). -/
def remoteRead (mc : Mc) (env : Env) (a n : Nat) (d : Dev) : Dev × Option Bytes :=
  match regionOf (addrLocal a) with
  | (.regs, o) =>
    let (d, v) := regReadFx mc d o
    (d, some (toLe 8 v))
  | (.hbm _, _) =>
    if Config.tableUnit d.free then
      match { d with free := d.free + 1 }.rowRead env a n with
      | (d, .ok b) => (d.cacheRow a b, some b)
      | (d, .error _) => (d, none)
    else ({ d with free := d.free + 1 }, remoteBytes env a n d)
  | _ => (d, remoteBytes env a n d)

/-- A Read unit served (R469). -/
def readUnit (mc : Mc) (pn : Nat) (env : Env) (d : Dev) : Dev :=
  match (d.port pn).requestOf 6 with
  | none => d
  | some u =>
    let (d, b) := remoteRead mc env (field u.body 0 8) (field u.body 8 4) (d.takeUnit pn u)
    let st : Status := if b.isSome then 0 else stEcc
    sendUnit d u.src 13 u.plot (toLe 4 (field u.body 12 4) ++ toLe 2 st.toNat ++ toLe 2 0 ++ b.getD [])

/-- READ_UNIT (R469). -/
def execReadUnit (p : Fin 16) (env : Env) (s : State) : Host.Outcome State Fault Refusal := onDev (readUnit s.mc p.val env) s

/-- Memory written for another device (R24, R319): where the write is an UPDATE's of a row, which is free (log 7), its home
engine writes the cached copy too. -/
def remoteWrite (a : Nat) (b : Bytes) (d : Dev) : Dev :=
  match regionOf (addrLocal a) with
  | (.hbm _, _) =>
    let d' := { d with free := d.free + 1 }.setLocalBytes (addrLocal a) b
    if Config.tableUnit d.free then (d'.cacheRow a b).countAccess a (accesses b.length) false else d'
  | _ => d.setLocalBytes (addrLocal a) b

/-- A Write unit served and acknowledged (R24, R469); one that names a plot is mirror traffic (R454). -/
def writeUnit (pn : Nat) (d : Dev) : Dev :=
  match (d.port pn).requestOf 7 with
  | none => d
  | some u =>
    let d := d.takeUnit pn u
    let o := addrLocal (field u.body 0 8)
    let b := slice u.body 16 (field u.body 8 4)
    let (d, st) := if u.plot = 0xFFFF then (remoteWrite (field u.body 0 8) b d, 0) else mirrorWritten d u.src o b
    sendUnit d u.src 14 u.plot (toLe 4 (field u.body 12 4) ++ toLe 2 st.toNat ++ toLe 2 0)

/-- WRITE_UNIT (R469). -/
def execWriteUnit (p : Fin 16) (s : State) : Host.Outcome State Fault Refusal := onDev (writeUnit p.val) s

/-- An Event unit: the event is recorded and the answer carries its status (R360, R362, R469). -/
def eventUnit (pn : Nat) (d : Dev) : Dev :=
  match (d.port pn).requestOf 8 with
  | none => d
  | some u =>
    let d := d.takeUnit pn u
    let i := field u.body 8 2
    let (v, st) := eventRecord (d.eventVal i) (field u.body 0 8) (bit (field u.body 10 1) 0)
    sendUnit (d.setEvent i v) u.src 14 u.plot (toLe 4 (field u.body 12 4) ++ toLe 2 st.toNat ++ toLe 2 0)

/-- EVENT_UNIT (R362, R469). -/
def execEventUnit (p : Fin 16) (s : State) : Host.Outcome State Fault Refusal := onDev (eventUnit p.val) s

/-- A Read response or an acknowledgement sunk into its tag (R469). -/
def sinkAnswer (kind pn : Nat) (d : Dev) : Dev :=
  match (d.port pn).rxOf kind with
  | none => d
  | some u =>
    let d := d.takeUnit pn u
    match d.pendingOf u.src (field u.body 0 4) with
    | some p => resultAnswered (answered d p (BitVec.ofNat 16 (field u.body 4 2))) p.tag
    | none => d

/-- READ_RESPONSE (R469). -/
def execReadResponse (p : Fin 16) (s : State) : Host.Outcome State Fault Refusal := onDev (sinkAnswer 13 p.val) s

/-- WRITE_ACKNOWLEDGEMENT (R469). -/
def execWriteAcknowledgement (p : Fin 16) (s : State) : Host.Outcome State Fault Refusal := onDev (sinkAnswer 14 p.val) s

/-- The records of a stream up to a sequence number accepted at the tail (R477): their entries leave the replay buffer, and
their sources count them. -/
def acceptUpTo (pid stream seq : Nat) (d : Dev) : Dev :=
  match d.plot pid with
  | none => d
  | some p =>
    let gone (r : Rec) : Bool := r.stream = stream && !precedes seq r.seq
    let d := (p.replay.filter gone).foldl (fun d r => countAccepted d r.src 0 0) d
    d.updPlot pid fun p => { p with replay := p.replay.filter fun r => !gone r }

/-- An Accept unit taken: the head device releases, a device in between passes it on (R477; log 15). -/
def acceptUnit (pn : Nat) (d : Dev) : Dev :=
  match (d.port pn).rxOf 12 with
  | none => d
  | some u =>
    let d := d.takeUnit pn u
    match d.plot u.plot with
    | none => d
    | some p =>
      if p.startsHere then acceptUpTo u.plot (field u.body 0 1) (field u.body 4 4) d
      else sendAcceptUnit d p.lay.prevDevice u.plot (field u.body 0 1) (field u.body 4 4)

/-- ACCEPT (R477). -/
def execAccept (p : Fin 16) (s : State) : Host.Outcome State Fault Refusal := onDev (acceptUnit p.val) s

end Sys2Proof.Machine
end

