-- ==== Sys2Proof/Machine/Ports.lean ====
section
/-! DEFINITION. Record ports: record datagrams received, result datagrams sent, flow control (R464, R478 to R483). -/
namespace Sys2Proof.Machine

/-! ### The frames that a record port takes -/

/-- The sum of 16-bit big-endian words, of an odd last byte as the high one. -/
def wordSum : Bytes → Nat
  | a :: b :: t => a.toNat * 256 + b.toNat + wordSum t
  | [a] => a.toNat * 256
  | [] => 0

/-- A ones' complement sum is all ones: no error found (RFC 768). -/
def sumOk (n : Nat) : Bool := 0 < n && n % 65535 == 0

/-- A UDP segment with what its checksum covers of the IP header: the addresses' bytes. -/
structure Segment where
  addrs : Bytes
  udp : Bytes
  v4 : Bool
deriving DecidableEq, Repr

/-- The UDP segment of an IPv4 packet that is no fragment, options permitted (R478). -/
def ipv4Segment (b : Bytes) : Option Segment :=
  let ihl := 4 * (field b 0 1 % 16)
  if field b 0 1 / 16 = 4 && 20 ≤ ihl && ihl ≤ beField b 2 2 && beField b 2 2 ≤ b.length && beField b 6 2 % 0x4000 == 0 &&
      field b 9 1 == 17 then
    some { addrs := slice b 12 8, udp := slice b ihl (beField b 2 2 - ihl), v4 := true }
  else none

/-- The UDP segment of an IPv6 packet with no extension header (R478). -/
def ipv6Segment (b : Bytes) : Option Segment :=
  if field b 0 1 / 16 = 6 && field b 6 1 == 17 && beField b 4 2 + 40 ≤ b.length then
    some { addrs := slice b 8 32, udp := slice b 40 (beField b 4 2), v4 := false }
  else none

/-- The UDP payload of a segment with its destination port, when its length and checksum are right; a zero checksum is
taken over IPv4 (R478). -/
def udpPayload (s : Segment) : Option (Nat × Bytes) :=
  let n := beField s.udp 4 2
  let sum := wordSum s.addrs + 17 + n + wordSum (s.udp.take n)
  if n < 8 || s.udp.length < n then none
  else if (s.v4 && beField s.udp 6 2 == 0) || (beField s.udp 6 2 != 0 && sumOk sum) then some (beField s.udp 2 2, slice s.udp 8 (n - 8))
  else none

/-- The UDP port and the record frames of a datagram that a record port takes (R478, R479). -/
def recordDatagram (f : Bytes) : Option (Nat × Bytes) :=
  let (type, b) := ethPayload f
  let seg := if type = 0x0800 then ipv4Segment b else if type = 0x86DD then ipv6Segment b else none
  (seg.bind udpPayload).bind fun (port, p) =>
    if 8 ≤ p.length && field p 0 2 == 0x444C && field p 2 2 == 0 then some (port, p.drop 8) else none

/-! ### Reception -/

/-- The receive buffer of a record port (R464). -/
def Dev.rxBytes (d : Dev) (pn : Nat) : Nat := if d.isSplit pn then 3 * 2 ^ 19 else 3 * 2 ^ 20

/-- Bytes that wait in a record port's receive buffer. -/
def Port.rxUsed (p : Port) : Nat := (p.dgrams.map fun g => g.2.length).sum

/-- A counter of LNK_RP_CNT one up. -/
def Port.countRp (p : Port) (i : Nat) : Port := { p with rpCnt := laneBump p.rpCnt i }

/-- A task takes the datagrams of a port for a UDP port (R480); one that is stopped takes none. -/
def Dev.taskBound (d : Dev) (pn udp : Nat) : Bool := d.taskFeeds.any fun f => f.port = pn && f.udp = udp && f.stopping.isNone

/-- A priority flow-control frame sent on the port's priority (R51, R481). -/
def sendPfc (d : Dev) (pn : Nat) (xoff : Bool) : Dev :=
  (d.updPort pn fun p => { p with progress := p.progress + 1 }).emit (.pfc pn (d.port pn).priority.toNat xoff)

/-- Priority flow control as the buffer fills (R481; log 22). -/
def fillPfc (d : Dev) (pn : Nat) : Dev :=
  let p := d.port pn
  if p.pfc && !p.xoff && d.rxBytes pn < p.rxUsed + p.mtu.toNat then sendPfc (d.updPort pn fun p => { p with xoff := true }) pn true
  else d

/-- A frame received at a record port (R478 to R481). -/
def recordRx (pn : Nat) (f : Bytes) (fcsOk : Bool) (d : Dev) : Dev :=
  let p := d.port pn
  if p.state ≠ .up || p.mode.toNat ≠ 2 || beField f 0 6 ≠ p.srcMac.toNat then d
  else
    let d := d.updPort pn fun p => { p with progress := p.progress + 1 }
    if !fcsOk || p.mtu.toNat < f.length + 4 then d.updPort pn fun p => p.countRp 1
    else match recordDatagram f with
      | none => d.updPort pn fun p => p.countRp 1
      | some (udp, b) =>
        if !d.taskBound pn udp then d.updPort pn fun p => p.countRp 0
        else if d.rxBytes pn < p.rxUsed + b.length then fillPfc (d.updPort pn fun p => p.countRp 2) pn
        else fillPfc (d.updPort pn fun p => { p with dgrams := p.dgrams ++ [(udp, b)] }) pn

/-- RECORD_DATAGRAM_RX (R478 to R481). -/
def execRecordDatagramRx (p : Fin 16) (frame : Bytes) (fcsOk : Bool) (s : State) : Host.Outcome State Fault Refusal :=
  onDev (recordRx p.val frame fcsOk) s

/-- XOFF ends as the buffer falls below half full (R481). -/
def pfcRelease (pn : Nat) (d : Dev) : Dev :=
  let p := d.port pn
  if p.xoff && 2 * p.rxUsed < d.rxBytes pn then sendPfc (d.updPort pn fun p => { p with xoff := false }) pn false else d

/-- PFC_RELEASE (R481). -/
def execPfcRelease (p : Fin 16) (s : State) : Host.Outcome State Fault Refusal := onDev (pfcRelease p.val) s

/-- PAUSE_RX: a PAUSE or priority flow-control frame received (R51, R481). -/
def execPauseRx (p : Fin 16) (quanta : BitVec 16) (s : State) : Host.Outcome State Fault Refusal :=
  onDev (fun d => d.updPort p.val fun x => { x with paused := quanta != 0, progress := x.progress + 1 }) s

/-- A PAUSE timer of a port runs out (R39): what a received frame held goes on, or an XOFF in force is sent again. While both
timers run, which of them it is is free (log 22). -/
def pauseTimer (pn : Nat) (d : Dev) : Dev :=
  let p := d.port pn
  let d' := if p.paused && p.xoff then { d with free := d.free + 1 } else d
  if p.paused && (!p.xoff || Config.pauseEnds d.free) then d'.updPort pn fun p => { p with paused := false }
  else if p.xoff then sendPfc d' pn true else d

/-- PAUSE_TIMER (R39). -/
def execPauseTimer (p : Fin 16) (s : State) : Host.Outcome State Fault Refusal := onDev (pauseTimer p.val) s

/-! ### Results -/

/-- The bytes of a result datagram's frame beside its results: Ethernet with FCS, IP, UDP, the datagram header (R482). -/
def Port.dgramOverhead (p : Port) : Nat := 18 + (if p.ipv6 then 40 else 20) + 8 + 8

/-- The results that fill one datagram: the first, and those after it that fit (R482). -/
def packResults : Nat → List TxResult → List TxResult
  | _, [] => []
  | room, t :: ts => if t.bytes.length ≤ room then t :: packResults (room - t.bytes.length) ts else []

/-- The datagram of results (R479, R482). -/
def Port.dgram (p : Port) (ts : List TxResult) : Dgram :=
  { srcMac := p.srcMac.toNat, dstMac := p.dstMac.toNat, ipv6 := p.ipv6,
    srcIp := p.srcIpLo.toNat + p.srcIpHi.toNat * 2 ^ 64, dstIp := p.dstIpLo.toNat + p.dstIpHi.toNat * 2 ^ 64,
    srcUdp := bits p.udp.toNat 0 16, dstUdp := bits p.udp.toNat 16 16,
    bytes := toLe 2 0x444C ++ toLe 1 1 ++ toLe 1 0 ++ toLe 4 p.dgramSeq.toNat ++ (ts.map (·.bytes)).flatten }

/-- A datagram of results enters the transmit buffer when it has room for it (R482). -/
def resultSend (pn : Nat) (d : Dev) : Dev :=
  let p := d.port pn
  match p.txResults with
  | [] => d
  | t :: ts =>
    let sent := t :: packResults (p.mtu.toNat - p.dgramOverhead - t.bytes.length) ts
    let g := p.dgram sent
    if p.state ≠ .up || p.mode.toNat ≠ 2 || p.paused ||
        d.txBytes pn < (p.txDgrams.map fun x => x.2.bytes.length).sum + g.bytes.length then d
    else
      sent.foldl acceptPacked (d.updPort pn fun p =>
        { p with txResults := p.txResults.drop sent.length, txDgrams := p.txDgrams ++ [(sent.length, g)], dgramSeq := p.dgramSeq + 1 })

/-- RESULT_DATAGRAM_SEND (R482). -/
def execResultDatagramSend (p : Fin 16) (s : State) : Host.Outcome State Fault Refusal := onDev (resultSend p.val) s

/-- The oldest result datagram has left the MAC completely (R482). -/
def txDone (pn : Nat) (d : Dev) : Dev :=
  let p := d.port pn
  match p.txDgrams with
  | [] => d
  | (n, g) :: rest =>
    if p.paused then d
    else (d.updPort pn fun p =>
      { p with txDgrams := rest, egressAck := p.egressAck + BitVec.ofNat 64 n, progress := p.progress + 1 }).emit (.datagram pn g)

/-- DATAGRAM_TX_DONE (R482). -/
def execDatagramTxDone (p : Fin 16) (s : State) : Host.Outcome State Fault Refusal := onDev (txDone p.val) s

end Sys2Proof.Machine
end

