-- ==== Sys2Proof/Machine/TableRuns.lean ====
section
/-! DEFINITION. The table engines at work: an engine reset, and the requests and descriptors that an engine serves unless it meets
an illegal code (R35, R92, R321, R322, R326, R328, R416, R424). -/
namespace Sys2Proof.Machine

/-! ### Engine reset -/

/-- The descriptors of an engine reset end with STALLED (R424); one whose last writes still wait for their answers is in progress
too. -/
def abortStalled (d : Dev) (p : Job → Bool) : Dev :=
  ((d.jobs.filter fun j => p j && !j.ended).map (·.id)).foldl (fun d id => d.abortJob id stStalled) d

/-- The row addresses of the requests that a core has pending at the table engines: the slot its next look-up starts at, and the rows
of its leaf keys (R92, R326). -/
def requestRows (d : Dev) (n : Nat) : List Nat :=
  let c := d.core n
  let looks := match c.sieveActive with
    | some (_, t) => c.headWork.filterMap fun w => (w.needs (parseSieve t)).map fun x => x.1.slotAddr (x.1.home x.2)
    | none => []
  let rows (b : KeyBlock) : List Nat := match (d.feed b.src).bind (·.keyGather) with
    | some kg => (tab (field b.bytes 0xC 2) fun i => field b.bytes (0x10 + 8 * i) 8).filterMap fun k =>
        (kg.table.rowOf k).map kg.table.addr
    | none => []
  looks ++ c.keyBlocks.flatMap rows

/-- A core has a request pending at the engines of cluster `k`: its own cluster's, or those of a row's home, to which they forward it
(R318, R424). -/
def requestAt (d : Dev) (k n : Nat) : Bool :=
  let rs := requestRows d n
  (n / 64 == k && !(rs.isEmpty && (d.core n).keyBlocks.isEmpty)) ||
  rs.any fun a => addrDevice a == d.deviceId && homeOf a / 4 == k

/-- The plots with a request pending on a cluster's table engines wait for a restart (R424). -/
def restartRequests (d : Dev) (k : Nat) : Dev :=
  ((List.range 256).filter (requestAt d k)).foldl
    (fun d n => match d.plotOf n with
      | some (pid, _) => if d.restartWait.contains pid then d else { d with restartWait := d.restartWait ++ [pid] }
      | none => d) d

/-- A table engine reset (R424): its descriptors end with STALLED, and the plots with a request pending on it are restarted. Which of
its cluster's engines holds a descriptor or a request is not specified, so a reset takes the cluster's (log 7). -/
def tabReset (t : Nat) (d : Dev) : Dev :=
  abortStalled (restartRequests d (t / 4)) fun j => 0x40 ≤ j.desc.code && j.desc.code ≤ 0x42 && onCluster d (t / 4) j

/-! ### Illegal codes -/

/-- The table engine that meets an illegal code as it serves, as the surroundings say (R35, R416). -/
def codeMet (env : Env) : Option Nat := env.codes.find? (· < 16)

/-- An illegal code in a table engine (R416): the engine is reset and the fault reported. -/
def tabCodeFault (t : Nat) (d : Dev) : Dev := (tabReset t d).report (errRec stCodeViolation 1 3 1 t)

/-- A request served by the table engines, unless one of them meets an illegal code: it then stays unserved (log 54). -/
def tabServe (env : Env) (f : Dev → Dev) (d : Dev) : Dev :=
  match codeMet env with
  | some t => tabCodeFault t d
  | none => f d

/-- A table descriptor's work, unless an engine meets an illegal code in it: it then ends with STALLED, none of the work done
(log 54). -/
def tabRun (j : Job) (f : Dev → Dev) (d : Dev) : Dev :=
  match codeMet j.env with
  | some t => (tabCodeFault t d).abortJob j.id stStalled
  | none => f d

/-! ### What the engines serve -/

/-- A head has a look-up to make and can make it (R35, R90 step 2). -/
def lookPending (d : Dev) (n : Nat) : Bool :=
  !d.stopped n && (match (d.core n).sieveActive with
    | some (_, t) => (d.core n).headWork.any fun w => (w.needs (parseSieve t)).isSome
    | none => false)

/-- ENTITY_LOOKUP (R92). -/
def execEntityLookup (core : Fin 256) (env : Env) (s : State) : Host.Outcome State Fault Refusal :=
  onDev (fun d => if lookPending d core.val then tabServe env (entityLookup core.val env) d else d) s

/-- KEY_GATHER_BAG (R326). -/
def execKeyGatherBag (core : Fin 256) (env : Env) (s : State) : Host.Outcome State Fault Refusal :=
  onDev (fun d => if (d.core core.val).keyBlocks.isEmpty then d else tabServe env (keyGatherBag core.val env) d) s

/-- GATHER, in its place among operations on an overlapping tile (R183, R322). -/
def startGather (j : Job) (d : Dev) : Dev :=
  let o := gatherOps j.desc
  runTiles j (if o.tile then [o.dst] else []) (tabRun j (gatherRun j)) d

/-- UPDATE (R183, R328): at its dispatch it takes the open epoch and, the first with MIRROR, binds the partner (R453,
R455). -/
def startUpdate (j : Job) (d : Dev) : Dev :=
  let o := updateOps j.desc
  let first := j.phase == .active
  let j := if first then { j with cursor := d.surv.epochOpen.toNat } else j
  let d := if first then d.updJob j.id fun y => { y with cursor := j.cursor } else d
  let d := if o.mirror && d.surv.bound.isNone then { d with surv := { d.surv with bound := d.partnerOf o.plot } } else d
  runTiles j (if o.tile then [o.grad] else []) (tabRun j (updateRun j)) d

/-- TABLE_SYNC's work (R321). -/
def startTableSync (j : Job) (d : Dev) : Dev :=
  let a := j.desc.op 0x10 8
  let t := tableNow d j a
  let named (r : Nat) : Bool := a == 0 || t.shards.any fun s => s.1 ≤ r && r < s.1 + s.2
  tabRun j (fun d => (dropCached d named).finishJob j.id 0) d

end Sys2Proof.Machine
end

