-- ==== Sys2Proof/Machine/Rake.lean ====
section
/-! DEFINITION. The error ring, the rake's scans and verdicts, and device-fatal conditions (R421 to R425, R438 to
R443). -/
namespace Sys2Proof.Machine

/-- FEC_LOCKSTEP. -/
def stFecLockstep : Status := 0x8001
/-- HUB_FATAL. -/
def stHubFatal : Status := 0x8002

/-! ### The error ring -/

/-- The 64 bytes of an error record with its PHASE (R438). -/
def ErrRec.bytes (r : ErrRec) (phase : Nat) : Bytes :=
  let b := toLe 8 r.seq ++ toLe 2 r.status.toNat ++ toLe 1 r.source ++ toLe 1 r.action ++ toLe 1 r.unitKind ++
    toLe 1 (phase + 2 * b2n r.addrHost + 4 * b2n r.recordId.isSome) ++ toLe 2 r.unit ++ toLe 2 r.plot ++ toLe 1 r.chan ++
    toLe 1 0 ++ toLe 4 r.version ++ toLe 8 (r.recordId.getD 0) ++ toLe 8 r.address ++ toLe 8 r.descSeq ++ r.detail ++
    List.replicate (12 - r.detail.length) 0#8
  b ++ toLe 4 (crc32c b)

/-- The host address of the next slot of the error ring (R440). -/
def Err.slot (e : Err) : Nat := e.ringBase.toNat + 64 * (e.written.toNat % 2 ^ e.ringLog2.toNat)

/-- One error record written into the next slot: PHASE is 1 on the first pass and flips at each wrap (R440). -/
def writeErr (d : Dev) (r : ErrRec) : Dev :=
  let e := d.err
  let phase := if bit e.written.toNat e.ringLog2.toNat then 0 else 1
  { d with err := { e with written := e.written + 1 } }.toHost (.write e.slot (r.bytes phase))

/-- A record of the queue can be written: the ring exists and has a free slot, and no hold is in progress (R409, R440). -/
def Dev.errRoom (d : Dev) : Bool := d.err.ringLog2 != 0 && !d.err.full && !d.host.held

/-- An error record dropped and counted (R440). -/
def Err.drop (e : Err) : Err := { e with status := setBit e.status 3, cnt := laneBump e.cnt 2 }

/-- The oldest unwritten error record goes to the ring, with a message on the error vector; one whose write fails
translation is dropped and counted (R440). -/
def errorRecordWrite (env : Env) (d : Dev) : Dev :=
  match d.err.queue with
  | [] => d
  | r :: rest =>
    if !d.errRoom then d
    else
      let d := { d with err := { d.err with queue := rest } }
      if hostDenied d env d.err.slot 64 then { d with err := d.err.drop } else (writeErr d r).errVector

/-- ERROR_RECORD_WRITE (R440). -/
def execErrorRecordWrite (env : Env) (s : State) : Host.Outcome State Fault Refusal := onDev (errorRecordWrite env) s

/-- A write of ERR_RING_BASE, which takes effect only while there is no ring (R443). -/
def setErrBase (v : Nat) (d : Dev) : Dev :=
  if d.err.ringLog2 ≠ 0 then d else { d with err := { d.err with ringBase := BitVec.ofNat 64 (v / 4096 * 4096) } }

/-- A write of ERR_RING_CFG.LOG2 (R443): with a ring set up, the queued records are written into it (R440). -/
def setErrLog2 (n : Nat) (env : Env) (d : Dev) : Dev :=
  if d.err.ringLog2 ≠ 0 || n < 4 || 16 < n then d
  else
    let d := { d with err := { d.err with ringLog2 := BitVec.ofNat 5 n } }
    (List.range d.err.queue.length).foldl (fun d _ => errorRecordWrite env d) d

/-- ERROR_RING_CONFIGURE (R440, R443). -/
def execErrorRingConfigure (base : BitVec 64) (log2 : BitVec 5) (env : Env) (s : State) : Host.Outcome State Fault Refusal :=
  onDev (fun d => setErrLog2 log2.toNat env (setErrBase base.toNat d)) s

/-! ### Device-fatal conditions -/

/-- The queue, the fault's own record last in it, as far as its records can be written (R441 step 5). -/
def writeLast : List ErrRec → Dev → Dev
  | [], d => d
  | r :: rs, d =>
    if d.errRoom then writeLast rs (writeErr { d with err := { d.err with queue := d.err.queue.drop 1 } } r) else d

/-- The device becomes fatal (R441): its last writes on the host link, one message on the error vector, and the cause. -/
def goFatal (st : Status) (source kind unit : Nat) (detail : Bytes) (d : Dev) : Dev :=
  if d.fatal then d
  else
    let r := { errRec st source 5 kind unit with seq := d.err.seqNext.toNat, detail := detail }
    let q := d.err.queue ++ [r]
    let d := writeLast q { d with err := { d.err with seqNext := d.err.seqNext + 1, queue := q } }
    let d := if 64 < d.err.queue.length then { d with err := { d.err.drop with queue := d.err.queue.take 64 } } else d
    let d := if d.host.held then d else d.errVector
    { d with err := { d.err with fatalState := 2, fatalCause := st } }

/-- FEC_LOCKSTEP (R441). -/
def execFecLockstep (s : State) : Host.Outcome State Fault Refusal := onDev (goFatal stFecLockstep 9 8 0xFFFF []) s

/-- HUB_FATAL: an illegal code on a die crossing, or an uncorrectable error in hub state (R419, R441). -/
def execHubFatal (crossing : Bool) (s : State) : Host.Outcome State Fault Refusal :=
  onDev (if crossing then goFatal stHubFatal 1 5 0xFFFF [] else goFatal stHubFatal 4 5 0xFFFF (toLe 1 7)) s

/-! ### Scans -/

/-- The engines of R51, numbered: 256 cores, 16 table engines, 20 copy engines, 16 ports, 64 channels, the FEC. -/
def engineCount : Nat := 373

/-- An engine by its kind: core, table engine, copy engine, port, channel, FEC, with its number. -/
inductive EngineId where
  | core (n : Nat) | table (n : Nat) | copy (n : Nat) | port (n : Nat) | chan (n : Nat) | fec
deriving DecidableEq, Repr

/-- The engine with a number. -/
def engineOf (i : Nat) : EngineId :=
  if i < 256 then .core i else if i < 272 then .table (i - 256) else if i < 292 then .copy (i - 272)
  else if i < 308 then .port (i - 292) else if i < 372 then .chan (i - 308) else .fec

/-- The progress counter of an engine (R51). -/
def progressOf (d : Dev) : EngineId → Nat
  | .core n => (d.core n).regs.progress.toNat
  | .table n => (d.tabEng n).progress.toNat
  | .copy n => (d.engine n).progress.toNat
  | .port n => (d.port n).progress.toNat
  | .chan n => (d.chan n).progress.toNat
  | .fec => d.fecProgress.toNat

/-- The pending indicator of an engine (R51); a fenced core is never judged (R422). -/
def pendingOf (d : Dev) : EngineId → Bool
  | .core n => !(d.core n).fenced && corePending d n (d.core n) != 0
  | .table n => tabPending d n != 0
  | .copy n => d.engineBusy n
  | .port n => (portReg (d.port n) 0x020).getD 0 != 0
  | .chan n => d.dispatchPending n
  | .fec => (List.range 64).any d.dispatchPending

/-- An engine waits on the host (R423): results for a full or blocked ring, host accesses that a hold stops, completions
that a full store holds. -/
def hostWait (d : Dev) : EngineId → Bool
  | .core n => (d.core n).ctxs.any fun x => x.result.isSome && !x.acked && (match d.feed x.src with
      | some f => f.dstKind == 1 && !ringRoom d f.chan
      | none => false)
  | .copy n => d.jobs.any fun j => j.engine == some n &&
      (j.hostHeld || (d.host.held && (j.desc.srcHost || j.desc.dstHost)) || (j.ended && completionHeld d j))
  | _ => false

/-- The handshakes that State itself holds (R423): a core whose pending work is only what it has sent and nobody acknowledged
waits on the next core, or on the port to the next device; a copy engine with nothing but writes to answer waits on a port. -/
def heldEdges (d : Dev) : List (Nat × Nat) :=
  ((List.range 256).filterMap fun n =>
    if (d.core n).fenced || corePending d n (d.core n) != 16 then none
    else (d.plotOf n).bind fun x => match x.2.after n with
      | some m => some (n, m)
      | none => (d.routePort x.2.lay.nextDevice).map fun p => (n, 292 + p)) ++
  ((List.range 20).filterMap fun e =>
    let js := d.jobs.filter fun j => j.engine == some e && !j.ended
    if js.all (·.phase == .done) then
      (js.findSome? fun j => (d.pendings.find? fun p => j.wait.contains p.tag).bind fun p => d.routePort p.dst).map fun p =>
        (272 + e, 292 + p)
    else none)

/-- An engine is blocked (R423): on an engine toward which it has raised a handshake, as `edges` say, or on one that has
refused its descriptor or its chain's next link. The FEC is, where every channel that waits for it is. -/
def blockedOn (d : Dev) (edges : List (Nat × Nat)) (i : Nat) : Bool :=
  let one (i : Nat) : Bool := edges.any (fun e => e.1 = i) || (match engineOf i with
    | .chan c => (d.chan c).held.any (·.busy) || d.jobs.any fun j => j.chan == c && j.refused
    | _ => false)
  one i || (engineOf i == .fec && (List.range 64).all fun c => !d.dispatchPending c || one (308 + c))

/-- An engine's rake entry after a scan; `first` where no scan came before it (R422, R423). -/
def scanEntry (d : Dev) (edges : List (Nat × Nat)) (first : Bool) (i : Nat) : RakeEntry :=
  let e : RakeEntry := Tbl.get {} i d.rake
  let id := engineOf i
  let v := progressOf d id
  if first || !pendingOf d id || v ≠ e.last then { last := v, count := 0, still := 0 }
  else if blockedOn d edges i || hostWait d id then { e with still := e.still + 1 }
  else { last := v, count := e.count + 1, still := e.still + 1 }

/-- The scan limit (R444). -/
def Err.limit (e : Err) : Nat := max 1 e.rakeLimit.toNat

/-- A rake entry of an engine set to no count, as a verdict leaves it. -/
def forgetEngine (d : Dev) (i : Nat) : Dev :=
  { d with rake := Tbl.upd {} i (fun e => { e with count := 0, still := 0 }) d.rake }

/-- STALL counted (R443). -/
def countStall (d : Dev) : Dev := let r := d.err; { d with err := { r with status := setBit r.status 2, cnt := laneBump r.cnt 1 } }

/-- DETAIL of a verdict's error record (R439): the count and the scan number. -/
def stallDetail (d : Dev) (count : Nat) : Bytes := toLe 1 (min count 255) ++ toLe 4 0 ++ toLe 7 d.err.rakeScans.toNat

/-- The action of a verdict on an engine (R424). -/
def judge (count : Nat) (d : Dev) (i : Nat) : Dev :=
  let det := stallDetail d count
  let d := forgetEngine (countStall d) i
  match engineOf i with
  | .core n => d.detect n stStalled 8 det none
  | .table t =>
    (tabReset t d).report { errRec stStalled 8 3 1 t with detail := det }
  | .copy e => (abortStalled d fun j => j.engine == some e).report { errRec stStalled 8 3 2 e with detail := det }
  | .port p => (portReset p d).report { errRec stStalled 8 3 7 p with detail := det }
  | .chan c => goFatal stHubFatal 8 6 c det d
  | .fec => goFatal stHubFatal 8 8 0xFFFF det d

/-- The engine that another waits on. -/
def waitsOn (edges : List (Nat × Nat)) (i : Nat) : Option Nat := (edges.find? fun e => e.1 = i).map (·.2)

/-- The chain of blocked engines from one, `fuel` of them at most, up to where it meets `home` again. -/
def chainOf (edges : List (Nat × Nat)) (home : Nat) : Nat → Nat → Option (List Nat)
  | 0, _ => none
  | n + 1, i =>
    match waitsOn edges i with
    | none => none
    | some j => if j = home then some [i] else (chainOf edges home n j).map (i :: ·)

/-- The cycles of blocked engines, each from its lowest engine (R425). -/
def cycles (edges : List (Nat × Nat)) : List (List Nat) :=
  (List.range engineCount).filterMap fun i => (chainOf edges i edges.length i).bind fun l => if l.all (i ≤ ·) then some l else none

/-- The plots that have an engine in a cycle (R425): those of its cores, and those served by its channels and ports. -/
def plotsOf (d : Dev) (i : Nat) : List Nat :=
  match engineOf i with
  | .core n => ((d.plotOf n).map (·.1)).toList
  | .chan c => (d.feeds.filter fun f => f.chan = c).map (·.plot)
  | .port p => (d.feeds.filter fun f => f.port = p || (f.dstKind = 3 && f.dst = p)).map (·.plot)
  | _ => []

/-- A cycle judged as one stall (R425). -/
def judgeCycle (d : Dev) (l : List Nat) : Dev :=
  let d := l.foldl forgetEngine (countStall d)
  let d := (l.flatMap (plotsOf d)).foldl
    (fun d pid => if d.restartWait.contains pid then d else { d with restartWait := d.restartWait ++ [pid] }) d
  let low := l.foldl min engineCount
  let (kind, unit) := match engineOf low with
    | .core n => (0, n) | .table n => (1, n) | .copy n => (2, n) | .port n => (7, n) | .chan n => (6, n) | .fec => (8, 0xFFFF)
  d.report { errRec stStalled 8 1 kind unit with detail := stallDetail d d.err.limit }

/-- Every PROGRESS_SCAN in progress completes with a scan (R421). -/
def endScans (d : Dev) (verdicts still : Nat) : Dev :=
  let n := d.err.rakeScans.toNat
  (d.jobs.filter fun j => j.desc.code == 0x03 && j.phase != .done).foldl (fun d j =>
    (d.updJob j.id fun j => { j with detail0 := n, detail1 := verdicts % 65536 + still % 65536 * 65536 }).finishJob j.id
      (if verdicts = 0 then 0 else stStalled)) d

/-- A scan of every engine, with the handshakes that the engines show beside those State holds (R421 to R425): none where periodic scans are stopped and no PROGRESS_SCAN asks for one. -/
def rakeScan (raised : List (Nat × Nat)) (d : Dev) : Dev :=
  if d.err.rakeInterval = 0 && !(d.jobs.any fun j => j.desc.code == 0x03 && j.phase != .done) then d
  else
    let edges := raised ++ heldEdges d
    let first := d.err.rakeScans == 0
    let entries := tab engineCount (scanEntry d edges first)
    let lim := d.err.limit
    let stalled := (List.range engineCount).filter fun i => lim ≤ (at' {} entries i).count
    let loops := (cycles edges).filter fun l => l.all fun i => lim ≤ (at' {} entries i).still && !hostWait d (engineOf i)
    let still := (entries.filter fun e => e.still ≠ 0).length
    let d := { d with err := { d.err with rakeScans := d.err.rakeScans + 1 }
                      rake := (List.range engineCount).foldl (fun t i => Tbl.set {} i (at' {} entries i) t) d.rake }
    let d := stalled.foldl (fun d i => judge (at' {} entries i).count d i) d
    let d := loops.foldl judgeCycle d
    endScans d (stalled.length + loops.length) still

/-- RAKE_SCAN (R421). -/
def execRakeScan (blocked : List (Nat × Nat)) (s : State) : Host.Outcome State Fault Refusal :=
  onDev (rakeScan blocked) s

/-- PROGRESS_SCAN waits, dispatched, for its scan's end (R421). -/
def startProgressScan (j : Job) (d : Dev) : Dev := d.updJob j.id fun j => { j with phase := .queued }

end Sys2Proof.Machine
end

