-- ==== Sys2Proof/Machine/Fec.lean ====
section
/-! DEFINITION. The dispatch sequencer: the checks every descriptor passes, each opcode's checks and start by its code,
and work that waited for other work (R138, R303, R309, R345 to R348, R352 to R355, R541). -/
namespace Sys2Proof.Machine

/-! ### The common checks -/

/-- The opcode and form may carry a nonzero NEXT (R348, R357). -/
def chainable (x : Desc) : Bool :=
  [0x30, 0x31, 0x32, 0x33, 0x40, 0x41, 0x42, 0x52, 0x54, 0x60].contains x.code ||
  (x.code == 0x50 && x.op 0x26 1 == 0) || (x.code == 0x51 && x.op 0x22 1 == 0) || (x.code == 0x53 && x.op 0x24 1 == 0)

/-- The Channels column of R348, and debug mode for the debug family. -/
def classOk (d : Dev) (c : Nat) (x : Desc) : Bool :=
  if x.code = 0x10 then c < 4 else if x.code = 0x72 then 4 ≤ c else if 0xF0 ≤ x.code then c < 4 && d.debugOn else true

/-- Steps 1 to 3 of R352. -/
def commonChecks (d : Dev) (c : Nat) (x : Desc) : Verdict :=
  checks [(!opcodeKnown x.code, stOpcodeInvalid),
    (commonReserved x || x.flush == 3 || (x.next != 0 && !chainable x) || eventOperandsBad x, stDescriptorInvalid),
    (!classOk d c x, stChannelClass)]

/-! ### The engines of descriptors -/

/-- The tile words of a chainable tile descriptor. -/
def linkTiles (x : Desc) : List Nat :=
  match x.code with
  | 0x50 => preloadTiles x
  | 0x51 => [(redOps x).src, (redOps x).dst]
  | 0x53 => (finOps x).src :: (if (finOps x).kind = 1 then [(finOps x).opnd] else [])
  | 0x54 => (matOps x).c :: (if (matOps x).aTile then [(matOps x).a] else [])
  | _ => [x.op 0x10 8]

/-- The opcodes of table descriptors. -/
def tableOp (n : Nat) : Bool := [0x40, 0x41, 0x42].contains n
/-- The opcodes of histogram-mode descriptors. -/
def trainOp (n : Nat) : Bool := [0x30, 0x31, 0x32, 0x33].contains n
/-- The opcodes of tile descriptors. -/
def tileOp (n : Nat) : Bool := [0x50, 0x51, 0x52, 0x53, 0x54].contains n

/-! ### The opcodes -/

/-- A PARTITION with FROM_FRAMES or a DENSE_OUT runs on a plot (R303, R341). -/
def binningOn (d : Dev) (pid : Nat) : Bool :=
  d.jobs.any fun j => !j.ended && ((j.desc.code == 0x32 && (partOps j.desc).frames && (partOps j.desc).plot == pid) ||
    (j.desc.code == 0x55 && j.plot == some pid))

/-- The plot that a LOAD_GROVE with ACTIVATE, an EVICT_GROVE or a GRAFT changes (R303). -/
def changesPlot (x : Desc) : Option Nat :=
  match x.code with
  | 0x11 => if bit (x.op 0x1E 2) 0 then some (x.op 0x1C 2) else none
  | 0x12 => some (x.op 0x10 2)
  | 0x13 => some (x.op 0x1C 2)
  | _ => none

/-- The checks of an image descriptor, with the other image descriptors (R138) and binning (R303) out of its way. -/
def imageCheck (mc : Mc) (d : Dev) (x : Desc) (env : Env) : Verdict :=
  if imageBusy d then .busy
  else
    let v := match x.code with
      | 0x10 => checkLoadLayout d x env
      | 0x11 => checkLoadGrove mc d x env
      | 0x12 => checkEvict d x
      | _ => checkGraft mc d x env
    v.andThen (fun _ => if (changesPlot x).any (binningOn d) then Verdict.busy else Verdict.go)

/-- The plot that a histogram-mode descriptor names. -/
def trainPlot (x : Desc) : Nat :=
  match x.code with
  | 0x30 => (histOps x).plot
  | 0x31 => (splitOps x).plot
  | 0x32 => (partOps x).plot
  | _ => (fitOps x).plot

/-- A histogram-mode descriptor is in progress on a plot (R309). -/
def trainBusy (d : Dev) (pid : Nat) : Bool :=
  d.jobs.any fun j => [0x30, 0x31, 0x32, 0x33].contains j.desc.code && !j.ended && trainPlot j.desc == pid

/-- The checks of a histogram-mode descriptor, once the plot's earlier ones have completed (R309). -/
def trainCheck (d : Dev) (x : Desc) (env : Env) : Verdict :=
  if trainBusy d (trainPlot x) then .busy
  else match x.code with
    | 0x30 => checkHist d x env
    | 0x31 => checkSplit d x env
    | 0x32 => checkPart d x env
    | _ => checkFit d x env

/-- ACC_PRELOAD's checks, by its TARGET (R189, R191). -/
def preloadCheck (d : Dev) (c : Nat) (x : Desc) : Verdict :=
  match x.op 0x26 1 with
  | 0 => checkPreload d x
  | 1 => if bit (x.op 0x27 1) 3 then checkDisarm d x else checkArm d (d.chan c) x
  | _ => .reject stTileInvalid

/-- ACC_FINISH's checks, by its TARGET (R234, R236). -/
def finishCheck (d : Dev) (c : Nat) (x : Desc) (env : Env) : Verdict :=
  match x.op 0x24 1 with
  | 0 => checkAccFinish d x env
  | 1 => checkArmOperand d (d.chan c) x
  | _ => .reject stFinishInvalid

/-- The engine beside the copy engines that a descriptor is the work of (R138, R309, R357): the image loader, a plot in histogram
mode, a cluster's table engine, a core's tiles. -/
def engineKey (d : Dev) (x : Desc) : Option (Nat × Nat) :=
  if [0x10, 0x11, 0x12, 0x13].contains x.code then some (0, 0)
  else if trainOp x.code then some (1, trainPlot x)
  else if tableOp x.code then (tableCluster d x).map (2, ·)
  else if tileOp x.code then some (3, bits (at' 0 (linkTiles x) 0) 0 8)
  else none

/-- The engine of a descriptor keeps a completion that a full store cannot take, and takes no further work (R408). -/
def engineKeeps (d : Dev) (x : Desc) : Bool :=
  (engineKey d x).isSome && d.jobs.any fun j => keepsCompletion d j && engineKey d j.desc == engineKey d x

/-- Step 4 of R352: the opcode's own checks; a descriptor that its engine cannot take yet is busy. -/
def opcodeCheck (mc : Mc) (d : Dev) (c : Nat) (x : Desc) (env : Env) : Verdict :=
  match x.code with
  | 0x00 => .go
  | 0x01 => checkRecordEvent d x
  | 0x02 => checkWaitEvent d x
  | 0x03 => checks [(!x.onlyOps [], stDescriptorInvalid)]
  | 0x10 | 0x11 | 0x12 | 0x13 => imageCheck mc d x env
  | 0x20 => checkScore d (d.chan c) x env
  | 0x21 => checkResident d c x env
  | 0x22 => checkStop d c x
  | 0x30 | 0x31 | 0x32 | 0x33 => trainCheck d x env
  | 0x34 => checkMark d x env
  | 0x40 => checkGather d x env
  | 0x41 => checkUpdate d x env
  | 0x42 => checkTableSync d x env
  | 0x50 => preloadCheck d c x
  | 0x51 => checkReduce d x
  | 0x52 => checkRelease d x
  | 0x53 => finishCheck d c x env
  | 0x54 => checkMatmul d x
  | 0x55 => checkDense d x env
  | 0x60 => checkCopy d x
  | 0x70 => checkStoreGraph d x env
  | 0x71 => checkLaunchGraph d x
  | 0x72 => checkPatchGraph d x env
  | 0x73 => checkFreeGraph d x
  | 0xF0 => checkDbgRead d x
  | _ => .reject stDescriptorInvalid

/-- The checks of R352 on a descriptor; one whose engine takes no further work is busy. -/
def descCheck (mc : Mc) (d : Dev) (c : Nat) (x : Desc) (env : Env) : Verdict :=
  ((commonChecks d c x).andThen fun _ => opcodeCheck mc d c x env).andThen fun _ => if engineKeeps d x then .busy else .go

/-- A batch whose intake begins on a plot whose re-placement failed takes all its frames at once (R435). -/
def takeFailed (j : Job) (d : Dev) : Dev :=
  let pid := (scoreOps j.desc).plot
  if (d.plot pid).any (fun p => decide (p.restart = .failed)) && (d.feed (.job j.id)).any (fun f => !f.gated && !f.ended) then
    failPlot d j.env pid
  else d

/-- A dispatched descriptor handed to its engine. -/
def opcodeStart (mc : Mc) (j : Job) (d : Dev) : Dev :=
  match j.desc.code with
  | 0x01 => startRecordEvent j d
  | 0x03 => startProgressScan j d
  | 0x10 => startLoadLayout j d
  | 0x11 => startLoadGrove j d
  | 0x12 => startEvict j d
  | 0x13 => startGraft j d
  | 0x20 => takeFailed j (startScore j d)
  | 0x21 => startResident j d
  | 0x22 => startStop j d
  | 0x30 => startHist j d
  | 0x31 => startSplit j d
  | 0x32 => startPart j d
  | 0x33 => startFit j d
  | 0x34 => startMark j d
  | 0x40 => startGather j d
  | 0x41 => startUpdate j d
  | 0x42 => startTableSync j d
  | 0x50 => if j.desc.op 0x26 1 = 0 then startPreload j d else if bit (j.desc.op 0x27 1) 3 then startDisarm j d else startArm j d
  | 0x51 => startReduce j d
  | 0x52 => startRelease j d
  | 0x53 => if j.desc.op 0x24 1 = 0 then startAccFinish j d else startArmOperand j d
  | 0x54 => startMatmul j d
  | 0x55 => startDense j d
  | 0x60 => startCopy mc j d
  | 0x70 => startStoreGraph j d
  | 0x71 => startLaunchGraph j d
  | 0x72 => startPatchGraph j d
  | 0x73 => startFreeGraph j d
  | 0xF0 => startDbgRead j d
  | _ => startAtOnce j d

/-- The blocks that a descriptor's checks read, kept as they were at its dispatch (R234, R293, R297, R304, R306, R317,
R328, R449). -/
def blocksRead (d : Dev) (j : Job) : List (Nat × Bytes) :=
  let x := j.desc
  let get (a n : Nat) : Nat × Bytes := (a, d.readOr j.env a n)
  let sized (a head : Nat) (size : Bytes → Nat) : Nat × Bytes := get a (size (d.readOr j.env a head))
  match x.code with
  | 0x30 => [sized (histOps x).map 16 mapBytes]
  | 0x31 => [sized (splitOps x).map 16 mapBytes, get (splitOps x).level 64]
  | 0x32 => if (partOps x).frames then [] else [get (partOps x).src (8 * (partOps x).splits)]
  | 0x33 => [sized (fitOps x).tree 16 treeBytes]
  | 0x34 => if markKind x = 0 then [get (x.op 0x18 8) 128] else []
  | 0x40 => [sized (gatherOps x).table 64 tableBytes]
  | 0x41 => [sized (updateOps x).table 64 tableBytes, get (updateOps x).hyper 32]
  | 0x53 => if x.op 0x24 1 = 0 then [get (finOps x).cfg 768] else []
  | _ => []

/-- The ranges of data that a descriptor's work reads beside its blocks. -/
def dataRead (d : Dev) (j : Job) : List (Nat × Nat) :=
  let x := j.desc
  let map (a : Nat) : FeatureMap := parseMap (d.readOr j.env a (mapBytes (d.readOr j.env a 16)))
  let framesRead (a n : Nat) : Nat := match framePlaces d j.env n a with | .ok fs => framesSpan a fs | .error _ => 16
  let dim (a : Nat) : Nat := (parseTable (d.readOr j.env a (tableBytes (d.readOr j.env a 64)))).dim
  match x.code with
  | 0x10 | 0x11 | 0x13 | 0x70 => [(x.op 0x10 8, x.op 0x18 4)]
  | 0x20 => [((scoreOps x).src, (scoreOps x).bytes)]
  | 0x21 => [(x.op 0x10 8, 128)]
  | 0x30 =>
    let o := histOps x
    [(o.grad, 16 * o.count), (o.bins, (map o.map).binStride * o.count)]
  | 0x32 =>
    let o := partOps x
    if o.frames then [(o.src, framesRead o.src o.count)] else [(o.bins, o.count * o.stride), (o.grad, 16 * o.count)]
  | 0x33 => [((fitOps x).leafGh, 8 * (fitOps x).count)]
  | 0x40 =>
    let o := gatherOps x
    let os := gatherOffs d j.env o
    [(o.offs, 4 * (o.bags + 1)), (o.keys + 8 * at' 0 os 0, 8 * (at' 0 os o.bags - at' 0 os 0))]
  | 0x41 =>
    let o := updateOps x
    let n := 4 * dim o.table
    (o.keys, 8 * o.count) :: if o.tile then [] else (List.range o.count).map fun i => (o.grad + i * o.stride, n)
  | 0x50 => if x.op 0x26 1 = 0 && !bit (x.op 0x27 1) 0 then [(x.op 0x18 8, preloadSpan x)] else []
  | 0x53 =>
    let o := finOps x
    let t := TileWord.of o.src
    let w := (elemFmt (parseFin (d.readOr j.env o.cfg 768)).opndFmt).size
    if x.op 0x24 1 = 0 && o.kind = 2 then (List.range t.rows).map fun r => (o.opnd + r * o.opndStride, t.cols * w) else []
  | 0x55 => [((denseOps x).src, framesRead (denseOps x).src (denseOps x).count)]
  | 0x54 =>
    let o := matOps x
    let t := TileWord.of o.c
    let w := (elemFmt o.aFmt).size
    (o.b, storedSpan (storedShape o.transB o.kd t.cols) o.bStride w) ::
      if o.aTile then [] else [(o.a, storedSpan (storedShape o.transA t.rows o.kd) o.aStride w)]
  | 0x42 => if x.op 0x10 8 = 0 then [] else [(x.op 0x10 8, tableBytes (d.readOr j.env (x.op 0x10 8) 64))]
  | 0x60 => if x.srcHost then [] else [(x.op 0x10 8, x.copyBytes)]
  | 0x72 => if x.op 0x14 1 = 1 then [(x.op 0x30 8, 8 * x.op 0x13 1)] else []
  | _ => []

/-- Read units sent for what a descriptor reads of other devices (R24, R466, R469; log 5). -/
def askReads (d : Dev) (j : Job) : Dev :=
  ((blocksRead d j).map (fun b => (b.1, b.2.length)) ++ dataRead d j).foldl (fun d r => d.askRead r.1 r.2) d

/-- A descriptor just dispatched, or a link just presented, handed to its engine with the blocks its checks read. -/
def startNew (mc : Mc) (j : Job) (d0 : Dev) : Dev :=
  let d := askReads d0 j
  let bs := blocksRead d j
  if bs.isEmpty then opcodeStart mc j d
  else opcodeStart mc { j with blocks := bs } (d.updJob j.id fun k => { k with blocks := bs })

/-- Dispatched work that waited for other work goes on where it now can (R183, R355, R406, R450, R456). -/
def settle (mc : Mc) (d : Dev) : Dev :=
  ((d.jobs.filter fun j => j.phase == .queued).map (·.id)).foldl (fun d id =>
    match d.job id with
    | some j => if j.phase == .queued then opcodeStart mc j d else d
    | none => d) d

/-! ### One descriptor or node offered to the sequencer -/

/-- What became of an offered descriptor: dispatched or rejected, its channel waits, or its engine cannot take it. -/
inductive Turned where
  | taken
  | waits
  | busy
deriving DecidableEq, Repr

/-- A SCORE_BATCH that waits for a stream number of a plot whose re-placement failed (R435). -/
def orphanBatch (d : Dev) (h : Held) : Option Plot :=
  if h.desc.code = 0x20 && h.wait == .stream then
    (d.plot (scoreOps h.desc).plot).bind fun p => if p.restart = .failed then some p else none
  else none

/-- The verdict on a descriptor or node: BARRIER first (R355), then R352. -/
def verdictOf (mc : Mc) (d : Dev) (c : Nat) (h : Held) (env : Env) (launch : Option Nat) : Verdict :=
  match orphanBatch d h with
  | some p => streamWait p
  | none =>
    if h.desc.barrier && !d.earlierDone c d.nextJob launch then .wait .barrier
    else descCheck mc d c h.desc env

/-- One more descriptor, node or link dispatched or rejected (R386). -/
def Dev.fecStep (d : Dev) : Dev := { d with fecProgress := d.fecProgress + 1 }

/-- The channel's launch passes its present node, and ends its dispatching with the last one (R371). -/
def passNode (d : Dev) (c l : Nat) : Dev :=
  let d := { d with launches := d.launches.map fun (y : Launch) => if y.id = l then { y with next := y.next + 1 } else y }
  match d.launchOf l with
  | some y => if y.nodes.length ≤ y.next then d.updChan c fun ch => { ch with launch := none } else d
  | none => d

/-- What follows a dispatch: the offered descriptor is no longer held, and a launch passes its node. -/
def leaveHeld (d : Dev) (c : Nat) (launch : Option Nat) : Dev :=
  let d := d.updChan c fun ch => { ch with held := none }
  match launch with | some l => passNode d c l | none => d

/-- A descriptor dispatched (R345). -/
def dispatchDesc (mc : Mc) (d : Dev) (c : Nat) (h : Held) (env : Env) (launch : Option Nat) (node : Nat) : Dev :=
  let (d, j) := (leaveHeld d.fecStep c launch).addJob c h.seq h.desc env launch node
  takeConst (startNew mc j d) c h.desc

/-- A descriptor whose data could not be read ends at once with that status. -/
def endUnread (d : Dev) (c : Nat) (h : Held) (env : Env) (launch : Option Nat) (node : Nat) (e : ReadFail) : Dev :=
  let (d, j) := (leaveHeld d.fecStep c launch).addJob c h.seq h.desc env launch node
  (takeConst ((askReads d j).readFailed c h.seq e) c h.desc).abortJob j.id e.status

/-- What a verdict on a descriptor or node offered on channel `c` does (R345, R352, R353, R355, R371, R378, R382). -/
def answer (v : Verdict) (mc : Mc) (c : Nat) (h : Held) (env : Env) (d : Dev) : Dev × Turned :=
  let launch := (d.chan c).launch
  let node := ((launch.bind d.launchOf).map (·.next)).getD 0
  match v with
  | .go => (dispatchDesc mc d c h env launch node, .taken)
  | .fail e => (endUnread d c h env launch node e, .taken)
  | .reject st =>
    (rejectEntry (d.fecStep.updChan c fun ch => { ch with held := none }) c h.seq h.desc env st launch node, .taken)
  | .wait w =>
    (d.updChan c fun ch => { ch with held := some { h with busy := false, wait := w }, state := .waiting, wait := w }, .waits)
  | .busy => (d.updChan c fun ch => { ch with held := some { h with busy := true, wait := .none } }, .busy)

/-- A descriptor dispatched or rejected costs its channel a credit; one that waits does not (R378). -/
def Verdict.costs : Verdict → Bool
  | .go => true
  | .reject _ => true
  | .fail _ => true
  | .wait _ => false
  | .busy => false

/-- The credit of a descriptor, node or link dispatched or rejected (R358, R378): of the turn in progress, or of the turns to
come. -/
def chargeLink (d : Dev) (c : Nat) : Dev :=
  d.updChan c fun ch =>
    if d.inTurn && d.rrChan = c && ch.left != 0 then { ch with left := ch.left - 1 }
    else { ch with debt := if ch.debt = 0xFFFF then ch.debt else ch.debt + 1 }

/-- A descriptor or node offered on channel `c` (R352, R378). -/
def offer (mc : Mc) (c : Nat) (h : Held) (env : Env) (d : Dev) : Dev × Turned :=
  let v := verdictOf mc d c h env (d.chan c).launch
  answer v mc c h env (if v.costs then chargeLink d c else d)

/-! ### Taking entries -/

/-- The channel has an entry the FEC may take now (R351, R382, R390). -/
def Chan.ready (ch : Chan) : Bool :=
  ch.state == .running && ch.held.isNone && ch.launch.isNone && ch.head != ch.tail && ch.cqRoom

/-- HEAD past an entry (R349); the entry takes its sequence number (R353) and reserves its completion slot (R390). -/
def Chan.pass (ch : Chan) : Chan :=
  let next := (ch.head + 1) % 2 ^ ch.sqLog2.toNat
  { ch with head := next, phase := if next = 0 then !ch.phase else ch.phase, seqNext := ch.seqNext + 1, owed := ch.owed + 1
            refetches := 0 }

/-- The FEC may fetch an entry of a channel: none in a hold, in which no request goes to the host (R351, R409). -/
def Dev.mayFetch (d : Dev) (c : Nat) : Bool := (d.chan c).ready && !d.host.held

/-- The host read of the entry at HEAD, made where it was answered (R349, R403). -/
def fetched (c : Nat) (entry : Option Bytes) (d : Dev) : Dev :=
  if entry.isSome then d.hostRead ((d.chan c).sqBase.toNat + 64 * (d.chan c).head) 64 else d

/-- An entry taken from a ring and offered. -/
def takeEntry (mc : Mc) (c : Nat) (x : Desc) (env : Env) (d : Dev) : Dev × Turned :=
  let seq := (d.chan c).seqNext.toNat
  offer mc c ⟨seq, x, false, .none⟩ env (d.updChan c Chan.pass)

/-- The 64 bytes that a fetch returned keep R347. -/
def fetchOk (ch : Chan) (e : Option Bytes) : Bool :=
  match e with
  | some b => b.length == 64 && bit (field b 0 1) 0 == ch.phase && descCrcOk b
  | none => false

/-- An entry taken as stale (R351). -/
def takeStale (c : Nat) (d : Dev) : Dev :=
  let seq := (d.chan c).seqNext.toNat
  let x : Desc := { opcode := 0, cflags := 0 }
  let (d, j) := (d.fecStep.updChan c Chan.pass).addJob c seq x {} none 0
  (d.finishJob j.id stStaleCommand).updChan c fun ch => { ch.event 0 with state := .halted }

/-- A fetch that failed R347 (R351): a re-fetch at the next turn, or the entry is stale. -/
def failedFetch (c : Nat) (d : Dev) : Dev :=
  let d := d.updChan c fun ch => ch.event 1
  let ch := d.chan c
  if ch.refetches < ch.refetchLimit.toNat then d.updChan c fun ch => { ch with refetches := ch.refetches + 1 }
  else takeStale c d

/-- STALE_COMMAND (R351, R378): the last fetch that the limit allows fails too, for one credit. -/
def staleCommand (c : Nat) (entry : Option Bytes) (d : Dev) : Dev :=
  let ch := d.chan c
  if d.running && d.mayFetch c && !fetchOk ch entry && ch.refetchLimit.toNat ≤ ch.refetches then
    failedFetch c (chargeLink (fetched c entry d) c)
  else d

/-- STALE_COMMAND (R351). -/
def execStaleCommand (c : Fin 64) (entry : Option Bytes) (s : State) : Host.Outcome State Fault Refusal :=
  onDev (staleCommand c.val entry) s

/-! ### Turns -/

/-- A channel that the FEC serves (R378): RUNNING, with a descriptor held, a launch's nodes, or an entry to take. -/
def eligible (d : Dev) (c : Nat) : Bool :=
  let ch := d.chan c
  d.running && ch.state == .running && (ch.held.isSome || ch.launch.isSome || d.mayFetch c)

/-- The next node of a channel's launch, with the frame's values (R371). -/
def nextNode (d : Dev) (l : Nat) : Held :=
  match d.launchOf l with
  | some y => ⟨y.seq, Desc.ofBytes (at' [] y.nodes y.next), false, .none⟩
  | none => ⟨0, Desc.ofBytes [], false, .none⟩

/-- One fetch of a turn: the held descriptor offered again, the launch's next node, or the entry at HEAD; a stale one is
rejected, a credit like any other (R351, R353, R378). -/
def serve (mc : Mc) (c : Nat) (f : Fetch) (d : Dev) : Dev × Turned :=
  let ch := d.chan c
  match ch.held, ch.launch with
  | some h, _ => offer mc c h f.env d
  | none, some l => offer mc c (nextNode d l) f.env d
  | none, none =>
    let d := fetched c f.entry d
    let failed := if ch.refetches < ch.refetchLimit.toNat then (failedFetch c d, Turned.busy)
      else (failedFetch c (chargeLink d c), Turned.taken)
    match f.entry with
    | some b => if fetchOk ch f.entry then takeEntry mc c (Desc.ofBytes b) f.env d else failed
    | none => failed

/-- The channel whose turn comes next, with its allowance; a channel still in debt pays a slice instead (R378). -/
def nextTurn (d : Dev) : Dev × Option (Nat × Nat) :=
  (List.range 64).foldl (fun (s : Dev × Option (Nat × Nat)) i =>
    let c := (d.rrChan + 1 + i) % 64
    if s.2.isSome || !eligible s.1 c then s
    else
      let ch := s.1.chan c
      let slice := max ch.slice.toNat 1
      if slice ≤ ch.debt.toNat then (s.1.updChan c fun ch => { ch with debt := BitVec.ofNat 16 (ch.debt.toNat - slice) }, none)
      else (s.1, some (c, slice - ch.debt.toNat))) (d, none)

/-- A turn opened: DEBT is paid, LEFT is the allowance (R378). -/
def openTurn (d : Dev) : Dev :=
  match nextTurn d with
  | (d, some (c, n)) =>
    { d.updChan c fun ch => { ch with debt := 0, left := BitVec.ofNat 16 n } with rrChan := c, inTurn := true }
  | (d, none) => d

/-- The fetches of a turn, until the allowance is used up (R378). -/
def serveAll (mc : Mc) (c : Nat) : List Fetch → Dev → Dev
  | [], d => d
  | f :: fs, d =>
    if eligible d c && (d.chan c).left != 0 then
      match serve mc c f d with
      | (d, .taken) => serveAll mc c fs d
      | (d, _) => { d with inTurn := false }
    else d

/-- DISPATCH_TURN: the turn in progress goes on, or the next one opens (R378). -/
def dispatchTurn (mc : Mc) (fetches : List Fetch) (d : Dev) : Dev :=
  let more (d : Dev) : Bool := d.inTurn && eligible d d.rrChan && (d.chan d.rrChan).left != 0
  let d := if more d then d else openTurn { d with inTurn := false }
  let d := if d.inTurn then serveAll mc d.rrChan fetches d else d
  { d with inTurn := more d }

/-- DISPATCH_TURN (R378). -/
def execDispatchTurn (fetches : List Fetch) (s : State) : Host.Outcome State Fault Refusal :=
  onDev (dispatchTurn s.mc fetches) s

/-- The wait that a channel's held descriptor is in is over (R355, R361, R369, R373). -/
def waitOver (d : Dev) (c : Nat) (h : Held) : Bool :=
  match h.wait with
  | .none => true
  | .event => checkWaitEvent d h.desc == .go
  | .barrier => d.earlierDone c d.nextJob (d.chan c).launch
  | .frame => d.framesOf (h.desc.op 0x10 2) < 8
  | .stream =>
    let pid := if h.desc.code = 0x20 then (scoreOps h.desc).plot else h.desc.op 0x18 2
    (d.plot pid).all fun p => p.freeStreamNo.isSome

/-- CHANNEL_WAIT_END: the wait's condition holds (R382). -/
def channelWaitEnd (c : Nat) (d : Dev) : Dev :=
  let ch := d.chan c
  if ch.state == .waiting && ch.held.all (waitOver d c) then d.updChan c fun ch => { ch with state := .running, wait := .none }
  else d

/-- CHANNEL_WAIT_END (R382). -/
def execChannelWaitEnd (c : Fin 64) (s : State) : Host.Outcome State Fault Refusal := onDev (channelWaitEnd c.val) s

/-! ### Channel control -/

/-- CHN_CONTROL.ENABLE (R349, R382): where a completion address failed before, the channel is at once blocked (R404). -/
def enable (c : Nat) (d : Dev) : Dev :=
  d.updChan c fun ch =>
    if ch.state == .disabled && ch.sqBase != 0 && 4 ≤ ch.sqLog2.toNat && ch.sqLog2.toNat ≤ 16 then
      { ch with head := 0, tail := 0, phase := true, refetches := 0, wait := .none, before := .running
                state := if ch.blocked then .blocked else .running }
    else ch.refuse

/-- ENABLE (R382). -/
def execEnable (c : Fin 64) (s : State) : Host.Outcome State Fault Refusal := onDev (enable c.val) s

/-- Nothing of a channel is in progress and no task of it is bound (R382). -/
def quiet (d : Dev) (c : Nat) : Bool :=
  let ch := d.chan c
  ch.held.isNone && ch.launch.isNone && d.jobs.all (fun j => j.chan != c || d.jobComplete j) && d.taskFeeds.all fun f => f.chan != c

/-- CHN_CONTROL.DISABLE (R192, R382, R383). -/
def disable (c : Nat) (d : Dev) : Dev :=
  let go := quiet d c
  d.updChan c fun ch =>
    if (ch.state == .running || ch.state == .halted) && go then { ch with state := .disabled, armed := [] } else ch.refuse

/-- DISABLE (R382). -/
def execDisable (c : Fin 64) (s : State) : Host.Outcome State Fault Refusal := onDev (disable c.val) s

/-- CHN_CONTROL.HALT (R382, R383): a waiting descriptor stays at the head. -/
def halt (c : Nat) (d : Dev) : Dev :=
  d.updChan c fun ch =>
    if ch.state == .running || ch.state == .waiting then { ch with state := .halted } else ch.refuse

/-- HALT (R382). -/
def execHalt (c : Fin 64) (s : State) : Host.Outcome State Fault Refusal := onDev (halt c.val) s

/-- CHN_CONTROL.RESUME (R351, R382, R383, R404): a descriptor that waited waits again unless its condition holds. -/
def resume (c : Nat) (d : Dev) : Dev :=
  let past := (d.chan c).held.all (waitOver d c)
  d.updChan c fun ch =>
    if ch.state != .halted then ch.refuse
    else
      let w := if past then .none else (ch.held.map (·.wait)).getD .none
      let back : ChanState := if past then .running else .waiting
      { ch with refetches := 0, wait := w, before := back, state := if ch.blocked then .blocked else back }

/-- RESUME (R382). -/
def execResume (c : Fin 64) (s : State) : Host.Outcome State Fault Refusal := onDev (resume c.val) s

/-! ### Chains -/

/-- The cluster that a chain of table descriptors is bound to so far. -/
def chainCluster (d : Dev) (j : Job) : Option Nat := match j.cluster with | some k => some k | none => tableCluster d j.desc

/-- A COPY can run on an engine. -/
def copyFits (x : Desc) (e : Nat) : Bool :=
  x.op 0x28 1 == e || (x.op 0x28 1 == 0xFF && (copyClass x).1 ≤ e && e < (copyClass x).1 + (copyClass x).2)

/-- A descriptor may follow a chain's present link: the same engine runs both (R357). -/
def sameEngine (d : Dev) (j : Job) (x : Desc) : Bool :=
  let p := j.desc
  if p.code = 0x60 then x.code == 0x60 && j.engine.any (copyFits x)
  else if tableOp p.code then
    tableOp x.code && (match chainCluster d j, tableCluster d x with | some a, some b => a == b | _, _ => true)
  else if trainOp p.code then trainOp x.code && trainPlot x == trainPlot p
  else
    tileOp x.code && (chainable x || x.next == 0) && !(x.code == 0x50 && x.op 0x26 1 == 1) && !(x.code == 0x51 && x.op 0x22 1 == 1) &&
    !(x.code == 0x53 && x.op 0x24 1 == 1) && (linkTiles x).all fun w => bits w 0 8 == bits (at' 0 (linkTiles p) 0) 0 8

/-- A chain ends before a link, with its status (R357, R358). -/
def endChain (d : Dev) (id : Nat) (st : Status) : Dev :=
  d.updJob id fun j =>
    { j with desc := { j.desc with next := 0 }, chainStatus := if j.chainStatus = 0 then st else j.chainStatus }

/-- What a link's 64 bytes must keep beside the checks of R352 (R347, R357). -/
def linkOk (d : Dev) (j : Job) (b : Bytes) : Bool :=
  descCrcOk b && sameEngine d j (Desc.ofBytes b) && j.links + 1 < 65536

/-- A link takes its place in the dispatch order: a job keeps its number and what its chain carries (R357). -/
def enterLink (d : Dev) (j : Job) (x : Desc) (env : Env) : Dev × Job :=
  let k := { j with desc := x, env := env, phase := .active, status := 0, tiles := [], wait := [], cursor := 0, refused := false, flushDone := false
                    earlier := j.chainStatus
                    cluster := if tableOp j.desc.code then chainCluster d j else none }
  ({ d with jobs := d.jobs.filter (fun y => y.id ≠ j.id) ++ [k] }, k)

/-- A link rejected with a class 1 status ends its chain, counted as a rejection of its channel (R353, R357, R385). -/
def rejectLink (d : Dev) (c id : Nat) (st : Status) : Dev :=
  (endChain (chargeLink d.fecStep c) id st).updChan c Chan.noteReject

/-- A link presented to the sequencer with its bytes (R357): an engine that must wait has refused it, and it is presented again
(R423). -/
def presentLink (mc : Mc) (d : Dev) (j : Job) (b : Bytes) (env : Env) : Dev :=
  let x := Desc.ofBytes b
  if !linkOk d j b then rejectLink d j.chan j.id stChainInvalid
  else match descCheck mc d j.chan x env with
    | .go =>
      let (d, k) := enterLink (chargeLink d.fecStep j.chan) j x env
      startNew mc k d
    | .reject st => rejectLink d j.chan j.id st
    | .fail e => endChain (chargeLink (d.readFailed j.chan j.seq e).fecStep j.chan) j.id e.status
    | _ => d.updJob j.id fun y => { y with refused := true }

/-- The present link's host writes cannot be flushed while a hold stops host requests (R400, R409). -/
def linkHeld (d : Dev) (j : Job) : Bool := d.host.held && (j.hostHeld || flushDue d j)

/-- The descriptor at NEXT of a job read and presented (R357); an invalid NEXT ends the chain (R27). -/
def nextLink (mc : Mc) (j : Job) (env : Env) (d : Dev) : Dev :=
  let a := j.desc.next.toNat
  if !d.addrOk .read false a 64 then rejectLink d j.chan j.id stAddressInvalid
  else match (d.askRead a 64).readG env a 64 with
    | .error e => endChain (chargeLink ((d.askRead a 64).readFailed j.chan j.seq e).fecStep j.chan) j.id e.status
    | .ok b => settle mc (presentLink mc (d.askRead a 64) j b env)

/-- CHAIN_LINK_START: a link has completed, and the next one is presented; a zero-length read that failed has ended the chain (R357,
R400, R406). -/
def chainLinkStart (mc : Mc) (job : Nat) (env : Env) (d : Dev) : Dev :=
  match d.job job with
  | none => d
  | some j =>
    if !j.linkDue || linkHeld d j then d
    else
      let d := flushStep d env j
      match d.job job with
      | some j => if j.linkDue then nextLink mc j env d else d
      | none => d

/-- CHAIN_LINK_START (R357). -/
def execChainLinkStart (job : Nat) (env : Env) (s : State) : Host.Outcome State Fault Refusal :=
  onDev (chainLinkStart s.mc job env) s

/-! ### Ends that let other work go on -/

/-- DESCRIPTOR_COMPLETE (R379, R394): the descriptor completes when its work has ended, and what waited for it goes on. -/
def descriptorComplete (mc : Mc) (job : Nat) (env : Env) (d : Dev) : Dev :=
  let d := match d.job job with | some j => if j.desc.code = 0x20 then settleBatch d j else d | none => d
  let d := match d.job job with | some j => if j.desc.code = 0x22 then settleStop d j else d | none => d
  leaveDebug (settle mc (completeJob job env d))

/-- DESCRIPTOR_COMPLETE (R394). -/
def execDescriptorComplete (job : Nat) (env : Env) (s : State) : Host.Outcome State Fault Refusal :=
  onDev (descriptorComplete s.mc job env) s

/-- TILE_PRELOAD_WRITE (R181 step 3). -/
def execTilePreloadWrite (job : Nat) (env : Env) (s : State) : Host.Outcome State Fault Refusal :=
  onDev (fun d => settle s.mc (tilePreloadWrite job env d)) s

/-- A write to CE_REATTACH (R411, R412): DISCARD is a device reset; a release lets queued copies go on. -/
def reattachWrite (v : Nat) (bme : Bool) (env : Env) (s : State) : State :=
  if !s.live then s
  else if s.dev.host.held && bit v 34 then resetDevice [] s
  else { s with dev := settle s.mc (reattach v bme env s.dev) }

/-- REATTACH (R411). -/
def execReattach (v : BitVec 64) (bme : Bool) (env : Env) (s : State) : Host.Outcome State Fault Refusal :=
  .next (reattachWrite v.toNat bme env s)

end Sys2Proof.Machine
end

