-- ==== Sys2Proof/Machine/Power.lean ====
section
/-! DEFINITION. The management controller: power states, core VDD and the power limits, coolant, valve, canaries, and what
its management interface sets (R128, R487 to R508, R520). -/
namespace Sys2Proof.Machine

/-! ### Power states -/

/-- The rails of the load are off (R489, R490): all that a device reset loses is lost; on entry to STANDBY the MC reads SLOT_ID
(R526). -/
def State.darken (s : State) (st : PowerState) (trip : Bool) : State :=
  let m := s.mc.afterReset
  { s with dev := s.dev.cleared,
           mc := { m with pwr := { m.pwr with state := st, trip := trip }, testMode := false, taps := [],
                          slotId := if st = .standby then Config.slotId else m.slotId } }

/-- The input voltage comes within the operating range, or rises above 49.5 V after an undervoltage lockout (R487, R490; log 37): the
MC boots, and reads SLOT_ID (R526). -/
def inputApplied (mv : Nat) (m : Mc) : Mc :=
  let m := { m with pwr := { m.pwr with input := mv } }
  if m.pwr.state = .off && (50000 ≤ mv || (m.pwr.uvlo && 49500 < mv)) && mv ≤ 59500 then
    { m with pwr := { m.pwr with state := .standby, uvlo := false }, slotId := Config.slotId }
  else m

/-- INPUT_APPLIED (R490). -/
def execInputApplied (milliVolts : Nat) (s : State) : Host.Outcome State Fault Refusal := onMc (inputApplied milliVolts) s

/-- An undervoltage or overvoltage lockout, or the input removed, takes every rail away (R487, R489, R490). How the last ON
state ended stays latched unless this ends one (R502). -/
def inputLockout (mv : Nat) (s : State) : State :=
  if 47500 ≤ mv && mv ≤ 60500 then { s with mc := { s.mc with pwr := { s.mc.pwr with input := mv } } }
  else
    let t := s.darken .off (s.mc.pwr.trip && s.mc.pwr.state != .on)
    { t with mc := { t.mc with cool := {}, pwr := { t.mc.pwr with input := mv, uvlo := decide (mv < 47500) } } }

/-- INPUT_LOCKOUT (R489). -/
def execInputLockout (milliVolts : Nat) (s : State) : Host.Outcome State Fault Refusal := .next (inputLockout milliVolts s)

/-- The greatest junction temperature measured (R501, R502). -/
def Cool.hottestTj (c : Cool) : Int := hottest (c.tjHub :: c.tjCluster)

/-- STANDBY may become ON (R490, R502): flow at least 1.0 L/min, inlet at most 45 °C, and after a trip every junction below
70 °C. -/
def Mc.mayPowerOn (m : Mc) : Bool :=
  m.pwr.state == .standby && 1000 ≤ m.cool.flow && decide (m.cool.inlet ≤ 720) && (!m.pwr.trip || decide (m.cool.hottestTj < 1120))

/-- TRIP is set and counted as the device comes back ON (R502, R508). -/
def Mc.reportTrip (m : Mc) : Mc :=
  if m.pwr.trip then
    let (st, cnt) := (setBit m.cool.status 4, laneBump m.cool.cnt 3)
    { m with cool := { m.cool with status := st, cnt := cnt } }
  else m

/-- STANDBY becomes ON with a device reset; TEST_EN is sampled (R490, R532). -/
def powerOn (testEn : Bool) (failed : List Nat) (s : State) : State :=
  if s.mc.mayPowerOn then
    let t := resetDevice failed { s with mc := { s.mc with pwr := { s.mc.pwr with state := .on }, testMode := testEn } }
    { t with mc := t.mc.reportTrip }
  else s

/-- POWER_ON (R490). -/
def execPowerOn (testEn : Bool) (failed : List Nat) (s : State) : Host.Outcome State Fault Refusal := .next (powerOn testEn failed s)

/-- The device leaves ON for STANDBY (R489, R490). -/
def leaveOn (trip : Bool) (s : State) : State := if s.mc.pwr.state = .on then s.darken .standby trip else s

/-- POWER_OFF: the PLDM power-off effecter (R490). -/
def execPowerOff (s : State) : Host.Outcome State Fault Refusal := .next (leaveOn false s)

/-- THERMAL_TRIP: a junction at 105 °C (R502). -/
def execThermalTrip (celsius : Int) (s : State) : Host.Outcome State Fault Refusal :=
  .next (if 105 ≤ celsius then leaveOn true s else s)

/-- FLOW_TRIP: flow below 0.5 L/min for 1 s (R502). -/
def execFlowTrip (flow : Nat) (s : State) : Host.Outcome State Fault Refusal := .next (if flow < 500 then leaveOn true s else s)

/-! ### Rates, limits and core VDD -/

/-- The limits of R495 in µW with their CAP_REASON codes: host, rack, module or input, coolant. The coolant cap counts once
the MC has computed one. -/
def Mc.limits (m : Mc) : List (Nat × Nat) :=
  let modul := if m.pwr.milliVolts < 50000 then 64000 * m.pwr.milliVolts else 3200000000
  [(m.pwr.limitHost * 1000000, 1), (m.pwr.limitRack * 1000000, 2), (modul, 3)] ++
    (if m.cool.tjCore.isEmpty then [] else [(m.cool.pCool * 1000000, if m.cool.flowLow || m.cool.faulty then 7 else 4)])

/-- The least of the limits; the first of equal ones. -/
def leastLimit : List (Nat × Nat) → Nat × Nat
  | [] => (0, 0)
  | [x] => x
  | x :: y :: t => let z := leastLimit (y :: t); if x.1 ≤ z.1 then x else z

/-- The sum of the last `n` samples and how many there are. -/
def Power.window (p : Power) (n : Nat) : Nat × Nat := let l := p.samples.take n; (l.sum, l.length)

/-- A CAP_REASON by which the coolant cap is the binding limit: the coolant's, or a fault of its sensors (R499, R502, R508). -/
def coolantBinds (reason : Nat) : Bool := reason == 4 || reason == 7

/-- CAP_REASON set: CAPPED is counted as TARGET comes to be held below REQUEST, FORECAST_CAP as the coolant cap comes to
bind (R508). -/
def Mc.cap (m : Mc) (reason : Nat) : Mc :=
  let p := m.pwr
  let (st, cnt) := if p.capReason = 0 && reason ≠ 0 then event p.status p.cnt 0 else (p.status, p.cnt)
  let (cs, cc) := if !coolantBinds p.capReason && coolantBinds reason then event m.cool.status m.cool.cnt 0 else (m.cool.status, m.cool.cnt)
  { m with pwr := { p with capReason := reason, status := st, cnt := cnt }, cool := { m.cool with status := cs, cnt := cc } }

/-- The MC lowers its target by one code (R495, R501). -/
def Mc.lower (m : Mc) (reason : Nat) : Mc :=
  let m := { m with pwr := { m.pwr with target := m.pwr.target - 1 } }
  if m.pwr.target < m.pwr.request then m.cap reason else m

/-- R501 holds: the hottest junction has reached TJ_TARGET + 10 °C. -/
def Cool.tooHot (c : Cool) : Bool := decide ((16 * (c.tjTarget + 10) : Int) ≤ c.hottestTj)

/-- The MC raises its target by one code (R495). -/
def Mc.raise (m : Mc) : Mc :=
  let p := { m.pwr with target := m.pwr.target + 1, lastRaise := m.pwr.sampleNo }
  { m with pwr := if p.target = p.request then { p with capReason := 0 } else p }

/-- A target that nothing caps is the request (R491). -/
def Mc.freed (m : Mc) : Mc := if m.pwr.capReason = 0 then { m with pwr := { m.pwr with target := m.pwr.request } } else m

/-- The CAP_REASON of a target below REQUEST: THERMAL while R501 holds, else the least limit's (R495, R501). -/
def Mc.reason (m : Mc) (limit : Nat) : Nat := if m.cool.tooHot then 6 else limit

/-- The rule of R495, from the least limit with its reason and the sums of the last 1 ms and 100 ms of samples. -/
def Mc.steer (m : Mc) (lim : Nat × Nat) (short long : Nat × Nat) : Mc :=
  if lim.1 * short.2 < short.1 then m.lower (m.reason lim.2)
  else if m.pwr.request ≤ m.pwr.target then m
  else if m.cool.tooHot || 97 * lim.1 * long.2 ≤ 100 * long.1 then m.cap (m.reason lim.2)
  else if m.pwr.sampleNo < m.pwr.lastRaise + 100 then m
  else m.raise

/-- The MC's control of core VDD at a sample (R491, R495). -/
def Mc.govern (m : Mc) : Mc := m.freed.steer (leastLimit m.freed.limits) (m.freed.pwr.window 10) (m.freed.pwr.window 1000)

/-- The readings of a sample in their registers (R508). -/
def Power.read (p : Power) (r : PowerReading) (tau : Nat) : Power :=
  let w := r.milliVolts * r.milliAmps
  let low := r.milliVolts < 50000 && (p.samples.isEmpty || 50000 ≤ p.milliVolts)
  let (st, cnt) := if low then event p.status p.cnt 2 else (p.status, p.cnt)
  let p := { p with samples := (w :: p.samples).take 1200000, sampleNo := p.sampleNo + 1, status := st, cnt := cnt }
  let avg (q n : Nat) : Nat := mcRound q p.sampleNo (p.window n).1 ((p.window n).2 * 1000000)
  { p with milliVolts := r.milliVolts, input := r.milliVolts, centiAmps := mcRound 3 p.sampleNo r.milliAmps 10, watts := avg 4 10, w1s := avg 5 10000
           wTau := avg 6 (tau * 10000), wPeak := max p.wPeak (mcRound 7 p.sampleNo w 1000000), actual := p.target }

/-- A sample's readings taken (R508). -/
def Mc.sampled (m : Mc) (r : PowerReading) : Mc := { m with pwr := m.pwr.read r m.cool.tauS }

/-- The rail's code added to the sum of the hour (R504). -/
def Mc.addVdd (m : Mc) : Mc :=
  { m with cool := { m.cool with hourVdd := m.cool.hourVdd + m.pwr.actual, hourPower := m.cool.hourPower + 1 } }

/-- PWR_LIMIT.EFFECTIVE (R508). -/
def Mc.noteLimit (m : Mc) : Mc :=
  { m with pwr := { m.pwr with effective := mcRound 8 m.pwr.sampleNo (leastLimit m.limits).1 1000000 } }

/-- A sample of input power (R488, R491, R495, R504). -/
def powerSample (r : PowerReading) (m : Mc) : Mc :=
  if m.pwr.state ≠ .on then m else (m.sampled r).addVdd.govern.noteLimit

/-- POWER_SAMPLE (R495). -/
def execPowerSample (r : PowerReading) (s : State) : Host.Outcome State Fault Refusal := onMc (powerSample r) s

/-- The input stage clamps the peak: where the current crosses 3,600 W over the input voltage, the target becomes 0.65 V without the
MC (R496). -/
def peakClamp (ma : Nat) (m : Mc) : Mc :=
  if m.pwr.state ≠ .on || ma * m.pwr.input ≤ 3600000000 then m
  else
    let (st, cnt) := event m.pwr.status m.pwr.cnt 1
    let m := { m with pwr := { m.pwr with status := st, cnt := cnt, target := 0, actual := 0 } }
    if m.pwr.request = 0 then m else m.cap 5

/-- PEAK_CLAMP (R496). -/
def execPeakClamp (milliAmps : Nat) (s : State) : Host.Outcome State Fault Refusal := onMc (peakClamp milliAmps) s

/-- CTRL_REFUSED of the PWR block (R508). -/
def Mc.refusePower (m : Mc) : Mc := { m with pwr := { m.pwr with status := setBit m.pwr.status 4 } }
/-- CTRL_REFUSED of the COOL block (R508). -/
def Mc.refuseCool (m : Mc) : Mc := { m with cool := { m.cool with status := setBit m.cool.status 5 } }

/-- A write of PWR_VDD.REQUEST (R491). -/
def vddRequest (v : Nat) (m : Mc) : Mc :=
  let code := bits v 0 6
  if 40 < code then m.refusePower
  else
    let target := if m.pwr.capReason = 0 then code else min m.pwr.target code
    { m with pwr := { m.pwr with request := code, target := target, capReason := if target = code then 0 else m.pwr.capReason } }

/-- A write of PWR_LIMIT.HOST (R497). -/
def limitHost (v : Nat) (m : Mc) : Mc :=
  let w := bits v 0 12
  if w < 500 || 3200 < w then m.refusePower else { m with pwr := { m.pwr with limitHost := w } }

/-- A write of the host to a register of the MC (R441, R490, R528). -/
def hostToMc (f : Mc → Mc) (s : State) : Host.Outcome State Fault Refusal := .next { s with mc := if s.live then f s.mc else s.mc }

/-- VDD_REQUEST (R491). -/
def execVddRequest (v : BitVec 64) (s : State) : Host.Outcome State Fault Refusal := hostToMc (vddRequest v.toNat) s

/-- POWER_LIMIT_HOST (R497). -/
def execPowerLimitHost (v : BitVec 64) (s : State) : Host.Outcome State Fault Refusal := hostToMc (limitHost v.toNat) s

/-! ### Coolant -/

/-- R(f), junction to inlet, in K/W as a fraction (R498). -/
def coldPlate (flow : Nat) : Nat × Nat :=
  if flow < 1500 then (30, max 1 flow)
  else if flow ≤ 4000 then let (a, b) := interp [(1500, 20), (2500, 15), (4000, 12)] flow; (a, b * 1000)
  else (Config.offTable 0 flow 0, 1000000)

/-- The inlet and the flow that the model runs on (R502). -/
def Cool.present (c : Cool) : Int × Nat := if c.flowLow || c.faulty then (720, 1000) else (c.inlet, c.flow)

/-- exp(n / d) as a fraction: 64 terms of its series, far below a unit of 2^-32 for the operands of R500. -/
def expTerms (n d : Nat) : Nat × Nat :=
  (List.range 64).foldl (fun p i => let k := d * (64 - i) * p.2; (k + n * p.1, k)) (1, 1)

/-- exp(−n / d) in units of 2^-32 (R500; log 16): 1 exactly for n = 0, else one of the two values beside the exact one. -/
def expNeg (n d : Nat) : Nat :=
  let (a, b) := expTerms n d
  2 ^ 32 * b / a + (if n ≠ 0 && Config.expUp n d then 1 else 0)

/-- G·a of R500 in K/W as a fraction. -/
def Cool.gainTerm (c : Cool) : Nat × Nat :=
  (c.gain * (2 ^ 32 - expNeg (c.horizonS - c.delayS) c.tauS), 10000 * 2 ^ 32)

/-- P_cool, the forecast Tj and the headroom (R500), from the averages over τ and over 1 s. -/
def forecast (m : Mc) : Cool :=
  let c := m.cool
  let (inlet, flow) := c.present
  let (rn, rd) := coldPlate flow
  let (gn, gd) := c.gainTerm
  let (st, nt) := m.pwr.window (c.tauS * 10000)
  let (s1, n1) := m.pwr.window 10000
  let wt := max 1 nt * 1000000
  let w1 := max 1 n1 * 1000000
  let num : Int := ((16 * c.tjTarget : Int) - inlet) * gd * wt + 16 * gn * st
  let den : Nat := 16 * wt * (rn * gd + gn * rd)
  let tj : Int := inlet * (gd * rd * wt * w1) + 16 * (gn * rd) * ((s1 : Int) * wt - (st : Int) * w1) + 16 * (rn * gd) * s1 * wt
  { c with pCool := min 65535 (mcRound 9 c.sampleNo (num * rd) den)
           tjForecast := mcRoundInt 10 c.sampleNo tj (gd * rd * wt * w1)
           headroom := mcRoundInt 11 c.sampleNo (num * rd * w1 - (s1 : Int) * den) (den * w1) }

/-- The readings of a coolant sample and the conditions they set (R502, R508). -/
def Cool.read (c : Cool) (r : CoolReading) : Cool :=
  let (st, cnt) := if r.fault && !c.faulty then event c.status c.cnt 2 else (c.status, c.cnt)
  let st := if 720 < r.inlet then setBit st 3 else st
  { c with tjCluster := r.tjCluster, tjCore := r.tjCore, tjHub := r.tjHub, inlet := r.inlet, outlet := r.outlet, flow := r.flow
           faulty := r.fault, flowLow := c.flowLow && r.flow < 1000, sampleNo := c.sampleNo + 1, status := st, cnt := cnt }

/-- The sums of the hour's core temperatures with a sample added (R504). -/
def addTemps (sum now : List Int) : List Int := tab now.length fun i => at' 0 sum i + at' 0 now i

/-- The errors that the HBM stacks corrected are added to their counts (R506). -/
def addCorrected (l : List Nat) (t : Tbl HbmLife) : Tbl HbmLife :=
  (List.range 20).foldl (fun t i =>
    let n := at' 0 l i
    if n = 0 then t else Tbl.upd {} i (fun h => { h with total := (h.total + n) % 2 ^ 32, present := h.present + n }) t) t

/-- A sample of the coolant and on-die sensors (R499 to R502, R504, R506). -/
def coolantSample (r : CoolReading) (m : Mc) : Mc :=
  if m.pwr.state = .off then m
  else
    let m := { m with cool := m.cool.read r }
    if m.pwr.state ≠ .on then m
    else
      let c := forecast m
      let m := { m with cool := { c with hourTj := addTemps c.hourTj r.tjCore, hourCool := c.hourCool + 1 }
                        hbm := addCorrected r.corrected m.hbm }
      if !m.cool.tooHot then m
      else
        let (st, cnt) := event m.pwr.status m.pwr.cnt 3
        { m with pwr := { m.pwr with status := st, cnt := cnt } }.lower 6

/-- COOLANT_SAMPLE (R499). -/
def execCoolantSample (r : CoolReading) (s : State) : Host.Outcome State Fault Refusal := onMc (coolantSample r) s

/-- FLOW_LOW: flow below 1.0 L/min for 1 s (R502). -/
def flowLow (flow : Nat) (m : Mc) : Mc :=
  if m.pwr.state = .off || 1000 ≤ flow || m.cool.flowLow then m
  else
    let (st, cnt) := event m.cool.status m.cool.cnt 1
    { m with cool := { m.cool with status := st, cnt := cnt, flowLow := true } }

/-- FLOW_LOW (R502). -/
def execFlowLow (flow : Nat) (s : State) : Host.Outcome State Fault Refusal := onMc (flowLow flow) s

/-- The opening of mode AUTO (R499), by a number of the model's: it is greater than the present one while the outlet is too hot or
the flow too low, and not greater otherwise; which it is depends on the plant. -/
def Cool.autoOpening (c : Cool) (n : Nat) : Nat :=
  let now := c.valveActual
  if (16 * c.outletMax : Int) < c.outlet || c.flow < 1500 then min 200 (now + 2 + n % 201) else n % (now + 1)

/-- The opening that the MC wants, in 0.5 % units (R490, R499). -/
def Mc.opening (m : Mc) : Nat :=
  if m.pwr.state = .standby then 40
  else if m.cool.valveFixed then m.cool.valve
  else if coolantBinds m.pwr.capReason then 200 else m.cool.autoOpening (Config.valveMove m.cool.sampleNo)

/-- The valve moves, in steps of at least 1 % (R499, R506). -/
def valveStep (m : Mc) : Mc :=
  let goal := m.opening
  if m.pwr.state = .off || (goal < m.cool.valveActual + 2 && m.cool.valveActual < goal + 2) then m
  else { m with cool := { m.cool with valveActual := goal }, valveMoves := (m.valveMoves + 1) % 2 ^ 32 }

/-- VALVE_STEP (R499). -/
def execValveStep (s : State) : Host.Outcome State Fault Refusal := onMc valveStep s

/-! ### Canaries and life -/

/-- The points of A(V, Tj) of R504, in tenths. -/
def ageRows : List (Nat × List (Nat × Nat)) :=
  [(0, [(1120, 4), (1360, 6), (1680, 12)]), (20, [(1120, 10), (1360, 16), (1680, 32)]), (40, [(1120, 26), (1360, 42), (1680, 83)])]

/-- A(V, Tj) as a fraction (R504), the voltage a code over a scale, the temperature in 1/16 °C over the same scale; outside the
table's temperatures its value is open. -/
def ageFactor (code : Nat) (tj : Int) (scale : Nat) : Nat × Nat :=
  let k := max 1 scale
  if tj < (1120 * k : Nat) || (1680 * k : Nat) < tj then (Config.offTable 1 (code / k) (tj / (k : Int)), 1000000)
  else
    let rows := ageRows.map fun r => (r.1 * k, r.2.map fun p => (p.1 * k, p.2))
    let (a, b) := interp2 rows code tj.toNat
    (a, 10 * b)

/-- The temperature factor of R43's 0.75 V row in hundredths, as a fraction. -/
def canaryFactor (tj : Int) : Nat × Nat := interp ((tempRows.getD 1 (0, [])).2) tj.toNat

/-- The drift of a ring in 0.01 % (R503): its count, corrected to 70 °C, against the baseline. -/
def ringDrift (hour core ring count : Nat) (tj : Int) : Nat :=
  let base := Config.ringBaseline core ring
  let (fn, fd) := canaryFactor tj
  mcRound 12 hour (10000 * ((base * fn : Nat) - (count * 100 * fd : Nat) : Int)) (base * fn)

/-- The remaining hours of a core (R505). -/
def remainingHours (hour drift hours : Nat) (a : Nat × Nat) : Nat :=
  if drift < 20 then 0xFFFFFFFF
  else min 0xFFFFFFFF (mcRound 13 hour (hours * (400 ^ 4 - drift ^ 4) * a.2 : Nat) (1000000 * drift ^ 4 * a.1))

/-- One core's canaries measured and its hour added (R503 to R505). -/
def measureCore (m : Mc) (counts : List (List Nat)) (n : Nat) : CoreLife :=
  let l := m.core n
  let c := m.cool
  let now := at' 0 c.tjCore n
  let k := max 1 (c.hourCool * c.hourPower)
  let (va, ta) := if c.hourCool = 0 || c.hourPower = 0 then (m.pwr.actual, now)
    else (c.hourVdd * c.hourCool, at' 0 c.hourTj n * (c.hourPower : Int))
  let (an, ad) := ageFactor va ta k
  let drift := min 65535 (((List.range 4).map fun r => ringDrift m.hoursOn n r (at' 0 (at' [] counts n) r) now).foldl max 0)
  let hours := l.hours + mcRound 14 m.hoursOn (an * 1000000 : Nat) ad
  { drift := drift, worn := l.worn || 400 ≤ drift, hours := hours
    remain := remainingHours m.hoursOn drift hours (ageFactor m.pwr.actual now 1) }

/-- An hour ON ends for the counts of an HBM stack (R506). -/
def HbmLife.nextHour (h : HbmLife) : HbmLife := { h with present := 0, past := (h.present :: h.past).take 191 }

/-- The hourly measurement of every core's canaries (R503 to R506). -/
def canaryMeasure (counts : List (List Nat)) (m : Mc) : Mc :=
  if m.pwr.state ≠ .on then m
  else
    let life := (List.range 256).foldl (fun t n => Tbl.set {} n (measureCore m counts n) t) m.life
    { m with life := life, hoursOn := (m.hoursOn + 1) % 2 ^ 32, hbm := m.hbm.map fun x => (x.1, x.2.nextHour)
             cool := { m.cool with hourTj := [], hourVdd := 0, hourCool := 0, hourPower := 0 } }

/-- CANARY_MEASURE (R503). -/
def execCanaryMeasure (counts : List (List Nat)) (s : State) : Host.Outcome State Fault Refusal := onMc (canaryMeasure counts) s

/-! ### The management interface -/

/-- What the management interface does while the MC runs (R490, R507). -/
def managed (f : Mc → Mc) (s : State) : Host.Outcome State Fault Refusal := onMc (fun m => if m.pwr.state = .off then m else f m) s

/-- PLDM_RACK_LIMIT (R497, R507). -/
def execPldmRackLimit (watts : BitVec 16) (s : State) : Host.Outcome State Fault Refusal :=
  managed (fun m => if watts.toNat < 500 || 3200 < watts.toNat then m.refusePower
    else { m with pwr := { m.pwr with limitRack := watts.toNat } }) s

/-- A field of COOL_MODEL or TJ_TARGET set: 0 DELAY_S, 1 TAU_S, 2 GAIN, 3 HORIZON_S, 4 TJ_TARGET; outside its range it is
discarded (R507, R508). -/
def coolModel (which v : Nat) (m : Mc) : Mc :=
  let c := m.cool
  match which with
  | 0 => if 60 < v then m.refuseCool else { m with cool := { c with delayS := v } }
  | 1 => if v < 30 || 120 < v then m.refuseCool else { m with cool := { c with tauS := v } }
  | 2 => if 100 < v then m.refuseCool else { m with cool := { c with gain := v } }
  | 3 => if v < 1 || 255 < v then m.refuseCool else { m with cool := { c with horizonS := v } }
  | _ => if v < 60 || 100 < v then m.refuseCool else { m with cool := { c with tjTarget := v } }

/-- PLDM_COOL_MODEL (R500, R507). -/
def execPldmCoolModel (which : Fin 5) (v : BitVec 16) (s : State) : Host.Outcome State Fault Refusal :=
  managed (coolModel which.val v.toNat) s

/-- PLDM_FIRMWARE_UPDATE: an image whose signature fails is refused (R507). -/
def execPldmFirmwareUpdate (image : Bytes) (s : State) : Host.Outcome State Fault Refusal :=
  managed (fun m => if Config.firmwareSigned image then { m with firmware := image } else m) s

/-- The PLDM sensors, each the word of the register it follows (R507): input; core VDD and cap reason; Tj of the clusters and of the
hub; coolant and valve; forecast; remaining life, flash wear, valve actuations and the HBM stacks. No command reads them
(log 55). -/
def pldmSensors (mc : Mc) (d : Dev) : List (Option Nat) :=
  [pwrReg mc 0x18, pwrReg mc 0x08, coolReg mc.cool 0x28, coolReg mc.cool 0x30, coolReg mc.cool 0x00, coolReg mc.cool 0x08,
   coolReg mc.cool 0x20, lifeReg mc d 0x00, lifeReg mc d 0x10, lifeReg mc d 0x18] ++ (List.range 20).map fun i => lifeReg mc d (0x20 + 8 * i)

/-- The PLDM FRU data that the spec names (R526, R539): the slot, the serial number, and the revision and stepping registers. -/
def pldmFru (mc : Mc) (d : Dev) : List Nat :=
  [mc.slotId.toNat, Config.moduleSerial.toNat, (hubReg mc d 0x00).getD 0, (hubReg mc d 0x08).getD 0]

/-- OWNER_KEY_INSTALL (R128). -/
def execOwnerKeyInstall (slot : Fin 4) (key : Bytes) (s : State) : Host.Outcome State Fault Refusal :=
  managed (fun m => { m with keys := Tbl.set [] slot.val key m.keys }) s

/-- OWNER_KEY_CLEAR (R128). -/
def execOwnerKeyClear (slot : Fin 4) (s : State) : Host.Outcome State Fault Refusal :=
  managed (fun m => { m with keys := Tbl.set [] slot.val [] m.keys }) s

/-- REQUIRE_SIGNED (R128). -/
def execRequireSigned (on : Bool) (s : State) : Host.Outcome State Fault Refusal := managed (fun m => { m with requireSigned := on }) s

/-- PERMIT (R520). -/
def execPermit (on : Bool) (s : State) : Host.Outcome State Fault Refusal := managed (fun m => { m with permit := on }) s

end Sys2Proof.Machine
end

