-- ==== Sys2Proof/Machine/RegWrite.lean ====
section
/-! DEFINITION. Writes of the host to BAR0 registers and to the doorbell pages of BAR2 (R6, R350, R370, R382, R385, R410,
R411, R413, R414, R443, R462, R465, R485, R508, R511, R513, R523). -/
namespace Sys2Proof.Machine

/-- A register write: its value, placed, and which halves it writes (R511). -/
structure RegW where
  v : Nat
  lo : Bool
  hi : Bool
deriving DecidableEq, Repr

/-- The write of `n` bytes at an offset; none where it is no aligned 8-byte access or 4-byte access to a half. -/
def RegW.of (a n v : Nat) : Option RegW :=
  if n = 8 && a % 8 == 0 then some ⟨v % 2 ^ 64, true, true⟩
  else if n = 4 && a % 8 == 0 then some ⟨v % 2 ^ 32, true, false⟩
  else if n = 4 && a % 4 == 0 then some ⟨v % 2 ^ 32 * 2 ^ 32, false, true⟩
  else none

/-- The register's value with the written halves replaced. -/
def RegW.over (w : RegW) (old : Nat) : Nat :=
  (if w.lo then w.v % 2 ^ 32 else old % 2 ^ 32) + 2 ^ 32 * (if w.hi then w.v / 2 ^ 32 else old / 2 ^ 32 % 2 ^ 32)

/-- A W1C word after the write (R6, R511). -/
def RegW.clear (w : RegW) (old : Word) (width : Nat) : Word := w1c old (BitVec.ofNat 64 (w.v % 2 ^ width))

/-- A 64-bit field with its low bits reserved. -/
def addrField (v low : Nat) : Word := BitVec.ofNat 64 (v / 2 ^ low * 2 ^ low)

/-! ### Channel pages -/

/-- A task binds a channel's record ring (R385). -/
def inBound (d : Dev) (c : Nat) : Bool := (d.ringFeed c).isSome
/-- A task binds a channel's result ring (R385). -/
def outBound (d : Dev) (c : Nat) : Bool := d.taskFeeds.any fun f => f.chan = c && f.dstKind = 1

/-- A configuration write that takes effect only where `ok`, and is otherwise refused (R385, R413). -/
def Chan.gate (ch : Chan) (ok : Bool) (f : Chan → Chan) : Chan := if ok then f ch else ch.refuse

/-- CHN_CONFIG (R385): SQ_LOG2 changes only in DISABLED and within its range. -/
def Chan.setConfig (ch : Chan) (v : Nat) : Chan :=
  let n := bits v 32 5
  let ch := { ch with slice := BitVec.ofNat 16 v, refetchLimit := BitVec.ofNat 8 (bits v 16 8), haltOnReject := bit v 24 }
  if n = ch.sqLog2.toNat then ch
  else ch.gate (ch.state == .disabled && 4 ≤ n && n ≤ 16) fun ch => { ch with sqLog2 := BitVec.ofNat 5 n }

/-- CHN_IN_CFG (R385), field by field. -/
def Chan.setIn (ch : Chan) (v : Nat) : Chan :=
  let n := bits v 0 5
  let e := bits v 8 5
  let zero := ch.inLog2 == 0 || n == 0
  let ch := if n = 0 || (2 ≤ n && n ≤ 16) then { ch with inLog2 := BitVec.ofNat 5 n } else ch.refuse
  if (12 ≤ e && e ≤ 16) || (e == 0 && zero) then { ch with inEntryLog2 := BitVec.ofNat 5 e } else ch.refuse

/-- CHN_OUT_CFG (R385), field by field. -/
def Chan.setOut (ch : Chan) (v : Nat) : Chan :=
  let n := bits v 0 4
  let b := bits v 16 16
  let zero := ch.outLog2 == 0 || n == 0
  let ch := if n = 0 || 2 ≤ n then { ch with outLog2 := BitVec.ofNat 4 n } else ch.refuse
  if (40 ≤ b && b ≤ 8192 && b % 8 == 0) || (b == 0 && zero) then { ch with outSlot := BitVec.ofNat 16 b } else ch.refuse

/-- CHN_CONTROL (R382, R385): each bit written 1, in ascending order. -/
def chanControl (c v : Nat) (d : Dev) : Dev :=
  let d := if bit v 0 then enable c d else d
  let d := if bit v 1 then disable c d else d
  let d := if bit v 2 then halt c d else d
  let d := if bit v 3 then resume c d else d
  if bit v 4 then resumeCompletion c {} d else d

/-- A write to a register of the page of channel `c` (R385, R410, R413); none where the register takes no write. -/
def chanWrite (c o : Nat) (w : RegW) (d : Dev) : Dev :=
  let ch := d.chan c
  let v := w.over ((chanReg d c o).getD 0)
  let off := ch.state == .disabled
  let det := ch.state == .detached
  let set (f : Chan → Chan) : Dev := d.updChan c f
  match o with
  | 0x000 => set fun ch => ch.setConfig v
  | 0x008 => set fun ch => ch.gate (off || det) fun ch => { ch with sqBase := addrField v 12 }
  | 0x010 => chanControl c (w.v) d
  | 0x038 => set fun ch => { ch with status := w.clear ch.status 4 }
  | 0x060 => set fun ch => ch.gate (det || !inBound d c) fun ch => { ch with inBase := addrField v 12 }
  | 0x068 => if w.lo then set fun ch => ch.gate (!det && !inBound d c) fun ch => ch.setIn v else d
  | 0x090 => set fun ch => ch.gate (det || !outBound d c) fun ch => { ch with outBase := addrField v 12 }
  | 0x098 => if w.lo then set fun ch => ch.gate (!det && !outBound d c) fun ch => ch.setOut v else d
  | 0x0A0 => set fun ch => ch.gate (det || !outBound d c) fun ch => { ch with outProducer := addrField v 3 }
  | 0x100 => set fun ch => ch.gate (off || det) fun ch => { ch with cqBase := addrField v 12 }
  | 0x108 =>
    let n := bits v 0 5
    if w.lo then set fun ch => ch.gate (off && (n == 0 || (4 ≤ n && n ≤ 16))) fun ch => { ch with cqLog2 := BitVec.ofNat 5 n } else d
  | 0x110 => set fun ch => ch.gate (off || det) fun ch => { ch with cwAddr := addrField v 3 }
  | 0x120 => if w.lo then set fun ch => { ch with irq := some (BitVec.ofNat 7 v) } else d
  | 0x128 => set fun ch => { ch with peerAddr := addrField v 2 }
  | 0x130 => set fun ch => { ch with peerValue := BitVec.ofNat 32 v, peerMode := bit v 32 }
  | _ => d

/-! ### The FEC's survival registers, the host link -/

/-- A SNAPSHOT_MARK is in progress (R462). -/
def markInProgress (d : Dev) : Bool := d.jobs.any fun j => j.desc.code == 0x34 && !j.ended

/-- The channels stand DETACHED, so that R410 opens the input-log registers. -/
def logOpen (d : Dev) : Bool := d.host.held || d.chans.any fun x => x.2.state == .detached

/-- A write to a training-survival register (R462). -/
def survWrite (o : Nat) (w : RegW) (d : Dev) : Dev :=
  let v := w.over ((survReg d o).getD 0)
  let set (f : Survive → Survive) : Dev := { d with surv := f d.surv }
  match o with
  | 0x00 => if d.surv.logLog2 = 0 || logOpen d then set fun s => { s with logBase := addrField v 12 } else d
  | 0x08 =>
    let n := bits v 0 5
    if w.lo && d.surv.logLog2 = 0 && !d.host.held && 4 ≤ n && n ≤ 20 then set fun s => { s with logLog2 := BitVec.ofNat 5 n } else d
  | 0x10 => if markInProgress d then d else set fun s => { s with stepNext := BitVec.ofNat 64 v }
  | 0x18 => if markInProgress d then d
    else set fun s => { s with windowStart := BitVec.ofNat 28 v, windowPages := BitVec.ofNat 28 (bits v 28 28) }
  | 0x20 => set fun s => { s with logMib := BitVec.ofNat 16 v }
  | 0x30 => set fun s => { s with status := w.clear s.status 3 }
  | 0x38 => set fun s => { s with inStart := BitVec.ofNat 28 v, inPages := BitVec.ofNat 28 (bits v 28 28) }
  | _ => d

/-- A write to a host-link register (R414); CE_REATTACH is not among them. -/
def ceWrite (o : Nat) (w : RegW) (d : Dev) : Dev :=
  match o with
  | 0x4000 =>
    let v := w.over ((ceReg d o).getD 0)
    { d with host := { d.host with holdOnReset := bit v 0, altTc := BitVec.ofNat 3 (bits v 1 3),
                                   errorVector := BitVec.ofNat 7 (bits v 4 7) } }
  | 0x4008 => if w.lo then { d with host := { d.host with token := BitVec.ofNat 32 w.v } } else d
  | _ => d

/-! ### Links -/

/-- LNK_PORT_CFG's fields (R485); SPLIT stands on even ports only. -/
def Port.setCfg (p : Port) (pn v : Nat) : Port :=
  { p with mode := BitVec.ofNat 2 v, split := bit v 2 && pn % 2 == 0, pfc := bit v 3, priority := BitVec.ofNat 3 (bits v 4 3),
           ipv6 := bit v 7, mtu := BitVec.ofNat 14 (bits v 8 14) }

/-- LNK_PORT_CONTROL: each bit written 1, in ascending order (R485). -/
def portControl (pn v : Nat) (d : Dev) : Dev :=
  let d := if bit v 0 then portEnable pn d else d
  let d := if bit v 1 then portDisable pn d else d
  if bit v 2 then portReset pn d else d

/-- A write to a register of logical port `pn` (R465, R485). -/
def portWrite (pn o : Nat) (w : RegW) (d : Dev) : Dev :=
  let v := w.over ((portReg (d.port pn) o).getD 0)
  let set (f : Port → Port) : Dev := d.updPort pn f
  match o with
  | 0x000 => set fun p => if p.state = .disabled then p.setCfg pn v else { p with status := setBit p.status 3 }
  | 0x010 => portControl pn w.v d
  | 0x028 => set fun p =>
      { p with timerUs := BitVec.ofNat 8 v, retryLimit := BitVec.ofNat 8 (bits v 8 8),
               expectDevice := BitVec.ofNat 12 (bits v 16 12), expectAny := bit v 28 }
  | 0x030 => set fun p => { p with status := w.clear p.status 4 }
  | 0x040 => set fun p => { p with srcMac := BitVec.ofNat 48 v }
  | 0x048 => set fun p => { p with dstMac := BitVec.ofNat 48 v }
  | 0x050 => set fun p => { p with srcIpLo := BitVec.ofNat 64 v }
  | 0x058 => set fun p => { p with srcIpHi := BitVec.ofNat 64 v }
  | 0x060 => set fun p => { p with dstIpLo := BitVec.ofNat 64 v }
  | 0x068 => set fun p => { p with dstIpHi := BitVec.ofNat 64 v }
  | 0x070 => set fun p => { p with udp := BitVec.ofNat 32 v }
  | _ => d

/-- A write to the LNK block (R466, R485). -/
def lnkWrite (o : Nat) (w : RegW) (d : Dev) : Dev :=
  if o < 0x4000 then portWrite (o / 0x400) (o % 0x400) w d
  else if o = 0x7000 then if w.lo then { d with maxHops := BitVec.ofNat 6 w.v } else d
  else if 0x8000 ≤ o && w.lo then routeWrite ((o - 0x8000) / 8) w.v d
  else d

/-! ### Power and coolant -/

/-- A write to the PWR block (R491, R497, R508); PEAK_CLAMP's clear restarts W_PEAK. -/
def pwrWrite (o : Nat) (w : RegW) (m : Mc) : Mc :=
  if !w.lo then m
  else match o with
    | 0x08 => vddRequest w.v m
    | 0x10 => limitHost w.v m
    | 0x30 =>
      let p := { m.pwr with status := w.clear m.pwr.status 5 }
      { m with pwr := if bit w.v 1 then { p with wPeak := 0 } else p }
    | _ => m

/-- A write to the COOL block (R508): one field out of range discards the write. -/
def coolWrite (o : Nat) (w : RegW) (m : Mc) : Mc :=
  let v := w.v
  let c := m.cool
  if !w.lo then m
  else match o with
    | 0x08 => if 200 < bits v 0 8 then m.refuseCool else { m with cool := { c with valve := bits v 0 8, valveFixed := bit v 8 } }
    | 0x10 =>
      let dly := bits v 0 8
      let tau := bits v 8 8
      if 60 < dly || tau < 30 || 120 < tau || 100 < bits v 16 8 || bits v 24 8 = 0 then m.refuseCool
      else { m with cool := { c with delayS := dly, tauS := tau, gain := bits v 16 8, horizonS := bits v 24 8 } }
    | 0x18 =>
      let t := bits v 0 8
      let u := bits v 8 8
      if t < 60 || 100 < t || u < 30 || 70 < u then m.refuseCool else { m with cool := { c with tjTarget := t, outletMax := u } }
    | 0x38 => { m with cool := { c with status := w.clear c.status 6 } }
    | _ => m

/-! ### Cores, table engines, errors, the hub -/

/-- A write to a core's block: its five W1C registers (R75, R110, R212, R238, R312). -/
def coreWrite (n o : Nat) (w : RegW) (d : Dev) : Dev :=
  let set (f : CoreRegs → CoreRegs) : Dev := d.updCore n fun c => { c with regs := f c.regs }
  match o with
  | 0x118 => set fun r => { r with nflags := w.clear r.nflags 7 }
  | 0x218 => set fun r => { r with sieveStatus := w.clear r.sieveStatus 6 }
  | 0x408 => set fun r => { r with accStatus := w.clear r.accStatus 3 }
  | 0x518 => set fun r => { r with finStatus := w.clear r.finStatus 4 }
  | 0x818 => set fun r => { r with histStatus := w.clear r.histStatus 3 }
  | _ => d

/-- A write to the TAB block (R342). -/
def tabWrite (o : Nat) (w : RegW) (d : Dev) : Dev :=
  if o < 0x1000 && o % 256 = 0x10 then d.updTab (o / 256) fun t => { t with status := w.clear t.status 2 } else d

/-- ERR_CONSUMED: the host's count, up to the records written (R440). -/
def Err.consume (e : Err) (v : Nat) : Err :=
  { e with consumed := e.consumed + BitVec.ofNat 64 ((v % 65536 + 65536 - e.consumed.toNat % 65536) % 65536) }

/-- A write to the ERR block (R440, R443); ERR_FATAL is not among them. -/
def errWrite (o : Nat) (w : RegW) (d : Dev) : Dev :=
  let set (f : Err → Err) : Dev := { d with err := f d.err }
  match o with
  | 0x00 => setErrBase (w.over d.err.ringBase.toNat) d
  | 0x08 => if w.lo then setErrLog2 (bits w.v 0 5) {} d else d
  | 0x10 => if w.lo then set fun e => e.consume w.v else d
  | 0x20 => set fun e => { e with status := w.clear e.status 5 }
  | 0x30 => if w.lo then set fun e => { e with rakeInterval := BitVec.ofNat 16 w.v } else d
  | _ => d

/-- A write to the MSI-X table (R395, R510): addresses and data stored, the mask bit set or cleared. -/
def msixWrite (o : Nat) (w : RegW) (d : Dev) : Dev :=
  let i := (o - 0x8000) / 8
  let v := w.over ((msixReg d.host o).getD 0)
  let store (x : Nat) (d : Dev) : Dev := { d with host := { d.host with msixTable := Tbl.set 0 i x d.host.msixTable } }
  if i % 2 = 0 then store v d
  else
    let d := store (v % 2 ^ 32) d
    if bit v 32 then { d with host := { d.host with masked := d.host.masked ||| BitVec.ofNat 128 (2 ^ (i / 2)) } }
    else if d.host.masked.getLsbD (i / 2) then unmask (i / 2) d
    else d

/-- A write to the HUB block (R514, R520, R523). -/
def hubWrite (mc : Mc) (o : Nat) (w : RegW) (d : Dev) : Dev :=
  match o with
  | 0x28 => if w.lo then setBar4Base w.v d else d
  | 0x30 => if w.lo then debugWrite mc (bit w.v 0) d else d
  | _ => if 0x8000 ≤ o && o < 0x8800 then msixWrite o w d else d

/-! ### The whole of BAR0 -/

/-- A write to a register of the digital part; registers that take no write stay as they are (R511). -/
def devWrite (mc : Mc) (a : Nat) (w : RegW) (d : Dev) : Dev :=
  if a < 0x10000 then hubWrite mc a w d
  else if 0x40000 ≤ a && a < 0x50000 then survWrite (a - 0x40000) w d
  else if 0x100000 ≤ a && a < 0x140000 then chanWrite ((a - 0x100000) / 0x1000) (a % 0x1000) w d
  else if a = 0x140000 then if w.lo then { d with err := { d.err with rakeLimit := BitVec.ofNat 8 w.v } } else d
  else if 0x200000 ≤ a && a < 0x205000 then ceWrite (a - 0x200000) w d
  else if 0x300000 ≤ a && a < 0x310000 then lnkWrite (a - 0x300000) w d
  else if 0x500000 ≤ a && a < 0x503000 then tabWrite (a - 0x500000) w d
  else if 0x800000 ≤ a && a < 0xC00000 then
    coreWrite ((a - 0x800000) / 0x100000 * 64 + a % 0x100000 / 0x4000) (a % 0x4000) w d
  else if a = 0xC00000 then
    let v := w.over d.dbgSel.toNat
    { d with dbgSel := BitVec.ofNat 64 (bits v 0 2 + 2 ^ 8 * bits v 8 13) }
  else if 0xE00000 ≤ a && a < 0xE01000 then errWrite (a - 0xE00000) w d
  else d

/-- A write to BAR0 (R511): an access of another size or alignment, or to an offset that names no register, is discarded
and counted. -/
def bar0Write (a n v : Nat) (s : State) : State :=
  match RegW.of a n v with
  | none => { s with dev := badBar0 s.dev }
  | some w =>
    let r := a / 8 * 8
    if (regRead s.mc s.dev r).isNone then { s with dev := badBar0 s.dev }
    else if r = 0x204010 then reattachWrite w.v s.dev.host.busMaster {} s
    else if 0x400000 ≤ r && r < 0x401000 then { s with mc := pwrWrite (r - 0x400000) w s.mc }
    else if 0x401000 ≤ r && r < 0x402000 then { s with mc := coolWrite (r - 0x401000) w s.mc }
    else { s with dev := devWrite s.mc r w s.dev }

/-- ERR_FATAL.RESET starts a device reset, in the fatal state too (R441, R442, R511). -/
def fatalWrite (w : RegW) (s : State) : State := if bit w.v 32 then resetDevice [] s else s

/-! ### BAR2 -/

/-- Bytes of a launch constant block written (R370, R513). -/
def constWrite (c o : Nat) (b : Bytes) (d : Dev) : Dev :=
  d.updChan c fun ch => { ch with consts := Tbl.setRange 0 (o - 0x800) (b.take (0x1000 - o)) ch.consts }

/-- A record-ring doorbell written with no entry at hand: a read that failed is left to be made again (R350, R375, R406). -/
def recordTail (c : Nat) (v : BitVec 32) (d : Dev) : Dev :=
  let e := recordDoorbell c v none (d.updChan c fun ch => { ch with inRetry := false })
  if (e.chan c).cnt = (d.chan c).cnt then e else e.updChan c fun ch => { ch with inRetry := (d.chan c).inRetry }

/-- A 4-byte write to a doorbell register (R350, R375, R389). -/
def doorbell (c o : Nat) (v : BitVec 32) (d : Dev) : Dev :=
  match o with
  | 0x000 => sqDoorbell c v d
  | 0x008 => recordTail c v d
  | 0x010 => resultDoorbell c v d
  | _ => cqDoorbell c v d

/-- A write to a doorbell page (R370, R513). -/
def bar2Write (a n v : Nat) (d : Dev) : Dev :=
  let c := a / 0x1000
  let o := a % 0x1000
  if 64 ≤ c then d
  else if o < 0x20 && o % 8 < 4 then
    if n = 4 && o % 8 = 0 then doorbell c o (BitVec.ofNat 32 v) d else d.updChan c fun ch => ch.event 2
  else if 0x800 ≤ o && c < 4 then constWrite c o (toLe n v) d
  else d

/-- REGISTER_WRITE (R511, R513). -/
def registerWrite (bar2 : Bool) (a n v : Nat) (s : State) : State :=
  if s.mc.pwr.state ≠ .on || s.mc.testMode then s
  else if bar2 then (if s.dev.fatal then s else { s with dev := bar2Write a n v s.dev })
  else match RegW.of a n v with
    | some w => if a / 8 * 8 = 0xE00040 then fatalWrite w s else if s.dev.fatal then s else bar0Write a n v s
    | none => if s.dev.fatal then s else bar0Write a n v s

/-- REGISTER_WRITE (R511). -/
def execRegisterWrite (bar2 : Bool) (offset : BitVec 24) (bytes : Nat) (v : BitVec 64) (s : State) :
    Host.Outcome State Fault Refusal := .next (registerWrite bar2 offset.toNat bytes v.toNat s)

end Sys2Proof.Machine
end

