-- ==== Sys2Proof/Machine/Submit.lean ====
section
/-! DEFINITION. The descriptors as commands: the entry at HEAD of a channel is one of the opcode, with the operands
that the command brings, valid under R347; the FEC takes it and offers it to the sequencer (R351, R352). -/
namespace Sys2Proof.Machine

/-- The entry at HEAD of channel `c`, a descriptor of an opcode, taken and offered, where the FEC may take one. -/
def submit (opcode : BitVec 8) (c : Nat) (x : Desc) (env : Env) (mc : Mc) (d : Dev) : Dev :=
  if d.running && d.mayFetch c then (takeEntry mc c { x with opcode := opcode } env (fetched c (some []) d)).1 else d

/-- A command that submits a descriptor of an opcode in the form that a test accepts. -/
def execDesc (opcode : BitVec 8) (form : Desc → Bool) (c : Fin 64) (x : Desc) (env : Env) (s : State) :
    Host.Outcome State Fault Refusal :=
  onDev (fun d => if form x then submit opcode c.val x env s.mc d else d) s

/-- NOP (R348). -/
def execNop (c : Fin 64) (x : Desc) (env : Env) (s : State) : Host.Outcome State Fault Refusal :=
  execDesc 0x00 (fun _ => true) c x env s

/-- RECORD_EVENT (R360). -/
def execRecordEvent (c : Fin 64) (x : Desc) (env : Env) (s : State) : Host.Outcome State Fault Refusal :=
  execDesc 0x01 (fun _ => true) c x env s

/-- WAIT_EVENT (R361). -/
def execWaitEvent (c : Fin 64) (x : Desc) (env : Env) (s : State) : Host.Outcome State Fault Refusal :=
  execDesc 0x02 (fun _ => true) c x env s

/-- PROGRESS_SCAN (R421). -/
def execProgressScan (c : Fin 64) (x : Desc) (env : Env) (s : State) : Host.Outcome State Fault Refusal :=
  execDesc 0x03 (fun _ => true) c x env s

/-- LOAD_LAYOUT (R137, R144). -/
def execLoadLayout (c : Fin 64) (x : Desc) (env : Env) (s : State) : Host.Outcome State Fault Refusal :=
  execDesc 0x10 (fun _ => true) c x env s

/-- LOAD_GROVE (R139). -/
def execLoadGrove (c : Fin 64) (x : Desc) (env : Env) (s : State) : Host.Outcome State Fault Refusal :=
  execDesc 0x11 (fun _ => true) c x env s

/-- EVICT_GROVE (R145). -/
def execEvictGrove (c : Fin 64) (x : Desc) (env : Env) (s : State) : Host.Outcome State Fault Refusal :=
  execDesc 0x12 (fun _ => true) c x env s

/-- GRAFT (R265 to R267). -/
def execGraft (c : Fin 64) (x : Desc) (env : Env) (s : State) : Host.Outcome State Fault Refusal :=
  execDesc 0x13 (fun _ => true) c x env s

/-- SCORE_BATCH (R374). -/
def execScoreBatch (c : Fin 64) (x : Desc) (env : Env) (s : State) : Host.Outcome State Fault Refusal :=
  execDesc 0x20 (fun _ => true) c x env s

/-- RESIDENT_SCORE (R376, R377). -/
def execResidentScore (c : Fin 64) (x : Desc) (env : Env) (s : State) : Host.Outcome State Fault Refusal :=
  execDesc 0x21 (fun _ => true) c x env s

/-- STOP_RESIDENT (R379). -/
def execStopResident (c : Fin 64) (x : Desc) (env : Env) (s : State) : Host.Outcome State Fault Refusal :=
  execDesc 0x22 (fun _ => true) c x env s

/-- HIST_BUILD (R293, R294). -/
def execHistBuild (c : Fin 64) (x : Desc) (env : Env) (s : State) : Host.Outcome State Fault Refusal :=
  execDesc 0x30 (fun _ => true) c x env s

/-- SPLIT_FIND (R296). -/
def execSplitFind (c : Fin 64) (x : Desc) (env : Env) (s : State) : Host.Outcome State Fault Refusal :=
  execDesc 0x31 (fun _ => true) c x env s

/-- PARTITION (R302 to R304). -/
def execPartition (c : Fin 64) (x : Desc) (env : Env) (s : State) : Host.Outcome State Fault Refusal :=
  execDesc 0x32 (fun _ => true) c x env s

/-- LEAF_FIT (R306). -/
def execLeafFit (c : Fin 64) (x : Desc) (env : Env) (s : State) : Host.Outcome State Fault Refusal :=
  execDesc 0x33 (fun _ => true) c x env s

/-- SNAPSHOT_MARK with KIND 0 (R447, R450). -/
def execSnapshotStep (c : Fin 64) (x : Desc) (env : Env) (s : State) : Host.Outcome State Fault Refusal :=
  execDesc 0x34 (fun x => markKind x == 0) c x env s

/-- SNAPSHOT_MARK with KIND 1 (R447, R456). -/
def execSnapshotEpoch (c : Fin 64) (x : Desc) (env : Env) (s : State) : Host.Outcome State Fault Refusal :=
  execDesc 0x34 (fun x => markKind x == 1) c x env s

/-- SNAPSHOT_MARK with KIND 2 (R447, R458). -/
def execSnapshotFull (c : Fin 64) (x : Desc) (env : Env) (s : State) : Host.Outcome State Fault Refusal :=
  execDesc 0x34 (fun x => markKind x == 2) c x env s

/-- SNAPSHOT_MARK with KIND 3 (R447, R460). -/
def execSnapshotReadback (c : Fin 64) (x : Desc) (env : Env) (s : State) : Host.Outcome State Fault Refusal :=
  execDesc 0x34 (fun x => markKind x == 3) c x env s

/-- GATHER (R322). -/
def execGather (c : Fin 64) (x : Desc) (env : Env) (s : State) : Host.Outcome State Fault Refusal :=
  execDesc 0x40 (fun _ => true) c x env s

/-- UPDATE (R328). -/
def execUpdate (c : Fin 64) (x : Desc) (env : Env) (s : State) : Host.Outcome State Fault Refusal :=
  execDesc 0x41 (fun _ => true) c x env s

/-- TABLE_SYNC (R321). -/
def execTableSync (c : Fin 64) (x : Desc) (env : Env) (s : State) : Host.Outcome State Fault Refusal :=
  execDesc 0x42 (fun _ => true) c x env s

/-- ACC_PRELOAD on a tile (R181, R189). -/
def execAccPreload (c : Fin 64) (x : Desc) (env : Env) (s : State) : Host.Outcome State Fault Refusal :=
  execDesc 0x50 (fun x => x.op 0x26 1 != 1) c x env s

/-- ACC_PRELOAD that arms a residual (R191). -/
def execAccPreloadStream (c : Fin 64) (x : Desc) (env : Env) (s : State) : Host.Outcome State Fault Refusal :=
  execDesc 0x50 (fun x => x.op 0x26 1 == 1 && !bit (x.op 0x27 1) 3) c x env s

/-- ACC_PRELOAD that disarms (R192). -/
def execAccPreloadDisarm (c : Fin 64) (x : Desc) (env : Env) (s : State) : Host.Outcome State Fault Refusal :=
  execDesc 0x50 (fun x => x.op 0x26 1 == 1 && bit (x.op 0x27 1) 3) c x env s

/-- ACC_REDUCE (R205). -/
def execAccReduce (c : Fin 64) (x : Desc) (env : Env) (s : State) : Host.Outcome State Fault Refusal :=
  execDesc 0x51 (fun _ => true) c x env s

/-- ACC_RELEASE (R210). -/
def execAccRelease (c : Fin 64) (x : Desc) (env : Env) (s : State) : Host.Outcome State Fault Refusal :=
  execDesc 0x52 (fun _ => true) c x env s

/-- ACC_FINISH on a tile (R234). -/
def execAccFinish (c : Fin 64) (x : Desc) (env : Env) (s : State) : Host.Outcome State Fault Refusal :=
  execDesc 0x53 (fun x => x.op 0x24 1 != 1) c x env s

/-- ACC_FINISH that arms or disarms an operand (R236). -/
def execAccFinishStream (c : Fin 64) (x : Desc) (env : Env) (s : State) : Host.Outcome State Fault Refusal :=
  execDesc 0x53 (fun x => x.op 0x24 1 == 1) c x env s

/-- MATMUL (R337). -/
def execMatmul (c : Fin 64) (x : Desc) (env : Env) (s : State) : Host.Outcome State Fault Refusal :=
  execDesc 0x54 (fun _ => true) c x env s

/-- DENSE_OUT (R341). -/
def execDenseOut (c : Fin 64) (x : Desc) (env : Env) (s : State) : Host.Outcome State Fault Refusal :=
  execDesc 0x55 (fun _ => true) c x env s

/-- COPY (R397). -/
def execCopy (c : Fin 64) (x : Desc) (env : Env) (s : State) : Host.Outcome State Fault Refusal :=
  execDesc 0x60 (fun _ => true) c x env s

/-- STORE_GRAPH (R365). -/
def execStoreGraph (c : Fin 64) (x : Desc) (env : Env) (s : State) : Host.Outcome State Fault Refusal :=
  execDesc 0x70 (fun _ => true) c x env s

/-- LAUNCH_GRAPH (R369 to R371). -/
def execLaunchGraph (c : Fin 64) (x : Desc) (env : Env) (s : State) : Host.Outcome State Fault Refusal :=
  execDesc 0x71 (fun _ => true) c x env s

/-- PATCH_GRAPH (R368). -/
def execPatchGraph (c : Fin 64) (x : Desc) (env : Env) (s : State) : Host.Outcome State Fault Refusal :=
  execDesc 0x72 (fun _ => true) c x env s

/-- FREE_GRAPH (R367). -/
def execFreeGraph (c : Fin 64) (x : Desc) (env : Env) (s : State) : Host.Outcome State Fault Refusal :=
  execDesc 0x73 (fun _ => true) c x env s

/-- DBG_READ (R521, R522). -/
def execDbgRead (c : Fin 64) (x : Desc) (env : Env) (s : State) : Host.Outcome State Fault Refusal :=
  execDesc 0xF0 (fun _ => true) c x env s

end Sys2Proof.Machine
end

