-- ==== Sys2Proof/Machine/SumTake.lean ====
section
/-! DEFINITION. The packet at the front of a core's sum lane taken: a sum packet, or a reduction packet of an ACC_REDUCE or a
SPLIT_FIND (R198, R199, R207, R209, R299, R476). -/
namespace Sys2Proof.Machine

/-- A descriptor combines results along the chain of a plot (R207, R299). -/
def chainRed (pid : Nat) (x : Desc) : Bool :=
  (x.code == 0x51 && (redOps x).chain && (redOps x).plot == pid) || (x.code == 0x31 && (splitOps x).plot == pid)

/-- The descriptor whose packet a core takes next (R207, R299, R476): of its plot's that have come as far as the core, the first in
the order of their dispatch, once it runs. -/
def redJob (d : Dev) (pid pos : Nat) : Option Job :=
  (d.jobs.find? fun j => chainRed pid j.desc && j.phase != .done && j.cursor = pos).filter fun j => j.phase == .active

/-- What a descriptor's reduction packets bear: OP, MODE, FX_SCALE and COUNT (R209). -/
structure RedHead where
  op : Nat
  mode : Nat
  scale : Nat
  count : Nat
deriving DecidableEq, Repr

/-- The head of an ACC_REDUCE's packets, or of a SPLIT_FIND's: pairs of MAX in FP32, one for each node (R209, R299). -/
def redHead (x : Desc) : RedHead :=
  if x.code = 0x31 then ⟨1, 0, 0, (splitOps x).nodes⟩
  else
    let o := redOps x
    let t := TileWord.of o.dst
    ⟨o.op, t.mode, ofInt 8 t.scale, (redSize o).2⟩

/-- The bytes of a descriptor's reduction packets (R209). -/
def RedHead.bytes (h : RedHead) : Nat := 0x18 + (if h.op = 0 then 8 else 16) * h.count

/-- The checks of a reduction packet for a descriptor (R199, R209, R476): CRC, the descriptor of the same device, OP,
MODE, FX_SCALE and COUNT. -/
def redChecks (b : Bytes) (j : Job) (localStart : Bool) : Bool :=
  let h := redHead j.desc
  let n := 0x10 + (if field b 9 1 = 0 then 8 else 16) * field b 0xC 2
  b.length == n + 8 && field b n 4 == crc32c (b.take n) &&
  (!localStart || (field b 0 8 == j.seq && field b 8 1 == j.chan)) && field b 9 1 == h.op && field b 0xA 1 == h.mode &&
  field b 0xB 1 == h.scale && field b 0xC 2 == h.count

/-- The last core of the chain, where a reduction ends, needs no room to send on. -/
def redEnds (d : Dev) (p : Plot) (n : Nat) (x : Desc) : Bool :=
  if x.code = 0x31 then p.last == some n else redTail d (redOps x) == some n

/-- A failed packet from another device: its descriptor ends with SUM_PACKET_CHECK, as it has no replay (log 15). -/
def redLost (n job : Nat) (d : Dev) : Dev :=
  (d.updCore n fun c => { c with sumLane := c.sumLane.drop 1 }).abortJob job stSumPacketCheck

/-- A core takes the reduction packet at the front of its sum lane, when its own has room to go on (R199, R200, R207, R209, R299). One
that fails a check is reported once, and nothing is ever taken from it. -/
def takeReduction (n : Nat) (u : Upset) (d : Dev) (pid : Nat) (p : Plot) (m : SumMsg) : Dev :=
  let pos := (p.cores.takeWhile (· ≠ n)).length
  match redJob d pid pos with
  | none => d
  | some j =>
    if m.failed || !(redEnds d p n j.desc || d.nextRoom p n false (redHead j.desc).bytes) then d
    else if u.chainBuffer then askRestart d pid stEcc 4 3 (n / 64) (toLe 1 5)
    else guarded d n u none fun d =>
      let b := u.flipBytes m.bytes
      if !redChecks b j p.startsHere then
        if m.remote then redLost n j.id (sumCheckFailed d n pid m.sender true none)
        else sumCheckFailed (d.updCore n Core.failSum) n pid m.sender false none
      else
        let d := d.updCore n fun c =>
          let r := { c.regs with sumsIn := c.regs.sumsIn + 1 }
          { c with regs := r, sumLane := c.sumLane.drop 1 }
        let d := if m.remote then d else d.updCore m.sender fun c =>
          let r := { c.regs with sumsOut := c.regs.sumsOut + 1 }
          { c with regs := r }
        (if j.desc.code = 0x31 then splitCore j p pos (some (redResults b)) d
         else redCore d j n (p.lay.firstPosition + pos) (field b 0 8) (field b 8 1) (some (redResults b))).refill m.sender

/-- The packet at the front of a core's sum lane (R199). -/
def sumPacketTake (n : Nat) (u : Upset) (d : Dev) : Dev :=
  if d.stopped n then d
  else match d.plotOf n, (d.core n).sumLane with
  | some (pid, p), m :: _ => if m.reduction then takeReduction n u d pid p m else takeSum n u d pid p m
  | _, _ => d

/-- SUM_PACKET_TAKE (R199). -/
def execSumPacketTake (core : Fin 256) (u : Upset) (s : State) : Host.Outcome State Fault Refusal :=
  onDev (sumPacketTake core.val u) s

end Sys2Proof.Machine
end

