-- ==== Sys2Proof/Machine/Tap.lean ====
section
/-! DEFINITION. The boundary-scan chain of the five dies in test mode (R527 to R534). Port 0 is the hub's, port 1 + c that of
cluster c. -/
namespace Sys2Proof.Machine

/-- The port with a number. -/
def Mc.tap (m : Mc) (i : Nat) : Tap := Tbl.get {} i m.taps

/-- The connector pins drive the chain: the device is ON in test mode (R528). -/
def Mc.chainOpen (m : Mc) : Bool := m.pwr.state == .on && m.testMode

/-! ### Pins -/

/-- The boundary register of a port drives the die's pins: EXTEST, CLAMP, EXTEST_PULSE, EXTEST_TRAIN (R530, R534). -/
def drives (ir : Nat) : Bool := ir == 0 || ir == 4 || ir == 6 || ir == 7

/-- The driver of an AC-coupled lane is inverted (R533): by EXTEST_PULSE from the first falling edge of TCK in Run-Test/Idle until
that state is left, by EXTEST_TRAIN after an odd number of edges. -/
def acInverted (ir edges : Nat) (left : Bool) : Bool := (ir == 6 && decide (0 < edges) && !left) || (ir == 7 && edges % 2 == 1)

/-- The level at cell `k` of port `i` after so many edges in Run-Test/Idle (R530, R533, R534): what the register does not control
holds its idle or inactive level. -/
def pinLevel (m : Mc) (edges : Nat) (left : Bool) (i k : Nat) : PinLevel :=
  let t := m.tap i
  let kind := Config.cellKind i k % 4
  if kind = 3 then .noPin
  else if t.ir = 5 then .highImpedance
  else if drives t.ir then .driven (at' false t.update k != (kind == 1 && acInverted t.ir edges left))
  else if kind = 2 then .inactive else .electricalIdle

/-- The cells of a port's boundary register (R531). -/
def cells (i : Nat) : Nat := if i = 0 then 1408 else 656

/-- The levels at every cell of the five ports. -/
def pinLevels (m : Mc) (edges : Nat) (left : Bool) : List (List PinLevel) := tab 5 fun i => tab (cells i) (pinLevel m edges left i)

/-- The falling edges of TCK in Run-Test/Idle that follow a scan, where a port holds an instruction that counts them (R533). -/
def Mc.restEdges (m : Mc) (free : Nat) : Nat :=
  if (List.range 5).any fun i => (m.tap i).ir == 6 || (m.tap i).ir == 7 then 4 + Config.idleEdges free else 0

/-- What the pins show from a scan's update on (R533, R534): each edge in Run-Test/Idle, and the exit from that state. -/
def pinsShown (m : Mc) (edges : Nat) : List Out :=
  (List.range (edges + 1)).map (fun e => .pins (pinLevels m e false)) ++ if edges = 0 then [] else [.pins (pinLevels m edges true)]

/-- A scan ends: the ports stand in Run-Test/Idle, and the pins show it. -/
def restScan (s : State) : State :=
  let n := s.mc.restEdges s.dev.free
  { s with mc := { s.mc with taps := (List.range 5).foldl (fun t i => Tbl.upd {} i (fun x => { x with edges := n }) t) s.mc.taps }
           dev := { s.dev with free := s.dev.free + 1, out := s.dev.out ++ pinsShown s.mc n } }

/-- TRST_N resets all five ports: each loads IDCODE (R529, R530), and in test mode the pins fall idle (R534). -/
def tapReset (s : State) : State :=
  let m := { s.mc with taps := (List.range 5).foldl (fun t i => Tbl.upd {} i (fun x => { x with ir := 1, edges := 0 }) t) s.mc.taps }
  { s with mc := m, dev := if m.chainOpen then s.dev.emit (.pins (pinLevels m 0 false)) else s.dev }

/-- TAP_RESET (R529). -/
def execTapReset (s : State) : Host.Outcome State Fault Refusal := .next (tapReset s)

/-- The 40 bits that leave TDO during an IR scan: every port captures 0b0000_0001, least significant bit first (R530). -/
def irCapture : List Bool := (tab 5 fun _ => [true, false, false, false, false, false, false, false]).flatten

/-- An IR scan that loads an instruction into the named ports and leaves it standing in the others (R530). -/
def irScan (ir : Nat) (taps : BitVec 5) (s : State) : Host.Outcome State Fault Refusal :=
  .next (if s.mc.chainOpen then restScan
    { s with mc := { s.mc with taps := (List.range 5).foldl (fun t i =>
               if taps.getLsbD i then Tbl.upd {} i (fun x => { x with ir := ir }) t else t) s.mc.taps }
             dev := s.dev.emit (.tdo irCapture) }
  else s)

/-- EXTEST (R530). -/
def execExtest (taps : BitVec 5) (s : State) : Host.Outcome State Fault Refusal := irScan 0x00 taps s
/-- IDCODE (R530). -/
def execIdcode (taps : BitVec 5) (s : State) : Host.Outcome State Fault Refusal := irScan 0x01 taps s
/-- SAMPLE/PRELOAD (R530). -/
def execSamplePreload (taps : BitVec 5) (s : State) : Host.Outcome State Fault Refusal := irScan 0x02 taps s
/-- CLAMP (R530). -/
def execClamp (taps : BitVec 5) (s : State) : Host.Outcome State Fault Refusal := irScan 0x04 taps s
/-- HIGHZ (R530). -/
def execHighz (taps : BitVec 5) (s : State) : Host.Outcome State Fault Refusal := irScan 0x05 taps s
/-- EXTEST_PULSE (R530). -/
def execExtestPulse (taps : BitVec 5) (s : State) : Host.Outcome State Fault Refusal := irScan 0x06 taps s
/-- EXTEST_TRAIN (R530). -/
def execExtestTrain (taps : BitVec 5) (s : State) : Host.Outcome State Fault Refusal := irScan 0x07 taps s
/-- BYPASS (R530). -/
def execBypass (taps : BitVec 5) (s : State) : Host.Outcome State Fault Refusal := irScan 0xFF taps s

/-- IDCODE of a die, stepping B1 (R531). -/
def idcodeOf (i : Nat) : Nat := if i = 0 then 0x3C5A09AB else 0x3C5A19AB

/-- An instruction selects the boundary register (R530). -/
def selectsBoundary (ir : Nat) : Bool := ir == 0 || ir == 2 || ir == 6 || ir == 7

/-- What port `i` captures in a DR scan, least significant bit first (R530, R531): its pins, its identification, or the zero
of the bypass register. -/
def capture (m : Mc) (pins : List Bool) (i : Nat) : List Bool :=
  let ir := (m.tap i).ir
  if selectsBoundary ir then
    let start := if i = 0 then 4 * 656 else (4 - i) * 656
    tab (cells i) fun k => at' false pins (start + k)
  else if ir = 1 then tab 32 fun k => bit (idcodeOf i) k
  else [false]

/-- The chain's ports from TDO to TDI: cluster 3 first, the hub last (R527). -/
def tdoOrder : List Nat := [4, 3, 2, 1, 0]

/-- The update latches loaded from what the scan leaves in the registers, port by port from TDO. -/
def updateLatches (l : List Bool) : List Nat → Mc → Mc
  | [], m => m
  | i :: is, m =>
    let n := (capture m [] i).length
    let m' := if selectsBoundary (m.tap i).ir then { m with taps := Tbl.upd {} i (fun x => { x with update := l.take n }) m.taps } else m
    updateLatches (l.drop n) is m'

/-- A DR scan over the selected registers (R527, R530, R531): `pins` are the pins of the boundary cells in the order of TDO. -/
def drScan (pins tdi : List Bool) (s : State) : State :=
  if s.mc.chainOpen then
    let chain := (tdoOrder.map (capture s.mc pins)).flatten ++ tdi
    restScan { s with mc := updateLatches (chain.drop tdi.length) tdoOrder s.mc, dev := s.dev.emit (.tdo (chain.take tdi.length)) }
  else s

/-- DR_SCAN (R527). -/
def execDrScan (pins : List Bool) (tdi : List Bool) (s : State) : Host.Outcome State Fault Refusal := .next (drScan pins tdi s)

end Sys2Proof.Machine
end

