-- ==== Sys2Proof/Machine/Dispatch.lean ====
section
/-! DEFINITION. The dispatch of the commands: one arm per row of the table, each a direct call of its meaning. -/
namespace Sys2Proof.Machine

def exec (i : Instr) (s : State) : Host.Outcome State Fault Refusal :=
  match i with
  | .nop c d env => Sys2Proof.Machine.execNop c d env s
  | .recordEvent c d env => Sys2Proof.Machine.execRecordEvent c d env s
  | .recordEventApply job => Sys2Proof.Machine.execRecordEventApply job s
  | .waitEvent c d env => Sys2Proof.Machine.execWaitEvent c d env s
  | .progressScan c d env => Sys2Proof.Machine.execProgressScan c d env s
  | .loadLayout c d env => Sys2Proof.Machine.execLoadLayout c d env s
  | .loadGrove c d env => Sys2Proof.Machine.execLoadGrove c d env s
  | .evictGrove c d env => Sys2Proof.Machine.execEvictGrove c d env s
  | .graft c d env => Sys2Proof.Machine.execGraft c d env s
  | .scoreBatch c d env => Sys2Proof.Machine.execScoreBatch c d env s
  | .residentScore c d env => Sys2Proof.Machine.execResidentScore c d env s
  | .stopResident c d env => Sys2Proof.Machine.execStopResident c d env s
  | .histBuild c d env => Sys2Proof.Machine.execHistBuild c d env s
  | .splitFind c d env => Sys2Proof.Machine.execSplitFind c d env s
  | .partition c d env => Sys2Proof.Machine.execPartition c d env s
  | .leafFit c d env => Sys2Proof.Machine.execLeafFit c d env s
  | .snapshotStep c d env => Sys2Proof.Machine.execSnapshotStep c d env s
  | .snapshotEpoch c d env => Sys2Proof.Machine.execSnapshotEpoch c d env s
  | .snapshotFull c d env => Sys2Proof.Machine.execSnapshotFull c d env s
  | .snapshotReadback c d env => Sys2Proof.Machine.execSnapshotReadback c d env s
  | .gather c d env => Sys2Proof.Machine.execGather c d env s
  | .update c d env => Sys2Proof.Machine.execUpdate c d env s
  | .tableSync c d env => Sys2Proof.Machine.execTableSync c d env s
  | .accPreload c d env => Sys2Proof.Machine.execAccPreload c d env s
  | .tilePreloadWrite job env => Sys2Proof.Machine.execTilePreloadWrite job env s
  | .accPreloadStream c d env => Sys2Proof.Machine.execAccPreloadStream c d env s
  | .accPreloadDisarm c d env => Sys2Proof.Machine.execAccPreloadDisarm c d env s
  | .accReduce c d env => Sys2Proof.Machine.execAccReduce c d env s
  | .accRelease c d env => Sys2Proof.Machine.execAccRelease c d env s
  | .accFinish c d env => Sys2Proof.Machine.execAccFinish c d env s
  | .accFinishStream c d env => Sys2Proof.Machine.execAccFinishStream c d env s
  | .matmul c d env => Sys2Proof.Machine.execMatmul c d env s
  | .denseOut c d env => Sys2Proof.Machine.execDenseOut c d env s
  | .copy c d env => Sys2Proof.Machine.execCopy c d env s
  | .storeGraph c d env => Sys2Proof.Machine.execStoreGraph c d env s
  | .launchGraph c d env => Sys2Proof.Machine.execLaunchGraph c d env s
  | .patchGraph c d env => Sys2Proof.Machine.execPatchGraph c d env s
  | .freeGraph c d env => Sys2Proof.Machine.execFreeGraph c d env s
  | .dbgRead c d env => Sys2Proof.Machine.execDbgRead c d env s
  | .sqDoorbell c v => Sys2Proof.Machine.execSqDoorbell c v s
  | .dispatchTurn fetches => Sys2Proof.Machine.execDispatchTurn fetches s
  | .staleCommand c entry => Sys2Proof.Machine.execStaleCommand c entry s
  | .chainLinkStart job env => Sys2Proof.Machine.execChainLinkStart job env s
  | .channelWaitEnd c => Sys2Proof.Machine.execChannelWaitEnd c s
  | .descriptorComplete job env => Sys2Proof.Machine.execDescriptorComplete job env s
  | .completionBlocked c kind job => Sys2Proof.Machine.execCompletionBlocked c kind job s
  | .hostAccessFault c job => Sys2Proof.Machine.execHostAccessFault c job s
  | .cqDoorbell c v => Sys2Proof.Machine.execCqDoorbell c v s
  | .recordRingDoorbell c v entry => Sys2Proof.Machine.execRecordRingDoorbell c v entry s
  | .resultRingDoorbell c v => Sys2Proof.Machine.execResultRingDoorbell c v s
  | .recordRingRead c entry => Sys2Proof.Machine.execRecordRingRead c entry s
  | .enable c => Sys2Proof.Machine.execEnable c s
  | .disable c => Sys2Proof.Machine.execDisable c s
  | .halt c => Sys2Proof.Machine.execHalt c s
  | .resume c => Sys2Proof.Machine.execResume c s
  | .resumeCompletion c env => Sys2Proof.Machine.execResumeCompletion c env s
  | .registerWrite bar2 offset bytes v => Sys2Proof.Machine.execRegisterWrite bar2 offset bytes v s
  | .ceFlush e => Sys2Proof.Machine.execCeFlush e s
  | .hostLinkDown flr failed => Sys2Proof.Machine.execHostLinkDown flr failed s
  | .reattach v bme env => Sys2Proof.Machine.execReattach v bme env s
  | .discard failed => Sys2Proof.Machine.execDiscard failed s
  | .deviceReset failed => Sys2Proof.Machine.execDeviceReset failed s
  | .atsInvalidate addr bytes => Sys2Proof.Machine.execAtsInvalidate addr bytes s
  | .msixUnmask v => Sys2Proof.Machine.execMsixUnmask v s
  | .bar4Resize sizeLog2 => Sys2Proof.Machine.execBar4Resize sizeLog2 s
  | .bar4Write offset data => Sys2Proof.Machine.execBar4Write offset data s
  | .bar4Read offset n => Sys2Proof.Machine.execBar4Read offset n s
  | .debugEnable on => Sys2Proof.Machine.execDebugEnable on s
  | .debugWindowRead offset n => Sys2Proof.Machine.execDebugWindowRead offset n s
  | .errorRingConfigure base log2 env => Sys2Proof.Machine.execErrorRingConfigure base log2 env s
  | .errorRecordWrite env => Sys2Proof.Machine.execErrorRecordWrite env s
  | .vddRequest v => Sys2Proof.Machine.execVddRequest v s
  | .powerLimitHost v => Sys2Proof.Machine.execPowerLimitHost v s
  | .portEnable p => Sys2Proof.Machine.execPortEnable p s
  | .portDisable p => Sys2Proof.Machine.execPortDisable p s
  | .portReset p => Sys2Proof.Machine.execPortReset p s
  | .routeEntryWrite dev v => Sys2Proof.Machine.execRouteEntryWrite dev v s
  | .ingressFrame plot env => Sys2Proof.Machine.execIngressFrame plot env s
  | .headTakeRecord core u => Sys2Proof.Machine.execHeadTakeRecord core u s
  | .entityLookup core env => Sys2Proof.Machine.execEntityLookup core env s
  | .sieveBin core u => Sys2Proof.Machine.execSieveBin core u s
  | .binVectorPacket core => Sys2Proof.Machine.execBinVectorPacket core s
  | .contextAllocate core env => Sys2Proof.Machine.execContextAllocate core env s
  | .sumPacketTake core u => Sys2Proof.Machine.execSumPacketTake core u s
  | .recordAdmit core => Sys2Proof.Machine.execRecordAdmit core s
  | .roundIssue core u => Sys2Proof.Machine.execRoundIssue core u s
  | .roundDrain core u => Sys2Proof.Machine.execRoundDrain core u s
  | .sumPacketSend core => Sys2Proof.Machine.execSumPacketSend core s
  | .contextFree core => Sys2Proof.Machine.execContextFree core s
  | .leafKeyBlock core => Sys2Proof.Machine.execLeafKeyBlock core s
  | .keyGatherBag core env => Sys2Proof.Machine.execKeyGatherBag core env s
  | .finisherPass core env => Sys2Proof.Machine.execFinisherPass core env s
  | .egressWrite core u env => Sys2Proof.Machine.execEgressWrite core u env s
  | .resultDatagramSend p => Sys2Proof.Machine.execResultDatagramSend p s
  | .datagramTxDone p => Sys2Proof.Machine.execDatagramTxDone p s
  | .recordDatagramRx p frame fcsOk => Sys2Proof.Machine.execRecordDatagramRx p frame fcsOk s
  | .pfcRelease p => Sys2Proof.Machine.execPfcRelease p s
  | .pauseRx p quanta => Sys2Proof.Machine.execPauseRx p quanta s
  | .pauseTimer p => Sys2Proof.Machine.execPauseTimer p s
  | .graftMarkerPlace plot => Sys2Proof.Machine.execGraftMarkerPlace plot s
  | .markerAtHead core => Sys2Proof.Machine.execMarkerAtHead core s
  | .markerAtFirstCore core => Sys2Proof.Machine.execMarkerAtFirstCore core s
  | .coreSwitch core u => Sys2Proof.Machine.execCoreSwitch core u s
  | .heldMarkerRelease core => Sys2Proof.Machine.execHeldMarkerRelease core s
  | .graftComplete plot => Sys2Proof.Machine.execGraftComplete plot s
  | .drainAndSwap plot => Sys2Proof.Machine.execDrainAndSwap plot s
  | .fence core u => Sys2Proof.Machine.execFence core u s
  | .rePlacement plot env => Sys2Proof.Machine.execRePlacement plot env s
  | .plotRestart plot => Sys2Proof.Machine.execPlotRestart plot s
  | .plotReplay plot bad ecc => Sys2Proof.Machine.execPlotReplay plot bad ecc s
  | .rakeScan blocked => Sys2Proof.Machine.execRakeScan blocked s
  | .fecLockstep => Sys2Proof.Machine.execFecLockstep s
  | .hubFatal crossing => Sys2Proof.Machine.execHubFatal crossing s
  | .hello p frame => Sys2Proof.Machine.execHello p frame s
  | .lcpData p frame fcsOk => Sys2Proof.Machine.execLcpData p frame fcsOk s
  | .lcpNak p frame => Sys2Proof.Machine.execLcpNak p frame s
  | .lcpControl p frame => Sys2Proof.Machine.execLcpControl p frame s
  | .lcpRetransmitTimer p => Sys2Proof.Machine.execLcpRetransmitTimer p s
  | .linkLost p => Sys2Proof.Machine.execLinkLost p s
  | .readUnit p env => Sys2Proof.Machine.execReadUnit p env s
  | .writeUnit p => Sys2Proof.Machine.execWriteUnit p s
  | .eventUnit p => Sys2Proof.Machine.execEventUnit p s
  | .readResponse p => Sys2Proof.Machine.execReadResponse p s
  | .writeAcknowledgement p => Sys2Proof.Machine.execWriteAcknowledgement p s
  | .mirrorRecord p => Sys2Proof.Machine.execMirrorRecord p s
  | .mirrorClose p hash => Sys2Proof.Machine.execMirrorClose p hash s
  | .mirrorDrain => Sys2Proof.Machine.execMirrorDrain s
  | .restartRequest plot => Sys2Proof.Machine.execRestartRequest plot s
  | .restartUnit p => Sys2Proof.Machine.execRestartUnit p s
  | .restartDone p => Sys2Proof.Machine.execRestartDone p s
  | .accept p => Sys2Proof.Machine.execAccept p s
  | .pcieCompletionTimeout c job => Sys2Proof.Machine.execPcieCompletionTimeout c job s
  | .flashPoll => Sys2Proof.Machine.execFlashPoll s
  | .inputApplied milliVolts => Sys2Proof.Machine.execInputApplied milliVolts s
  | .inputLockout milliVolts => Sys2Proof.Machine.execInputLockout milliVolts s
  | .powerOn testEn failed => Sys2Proof.Machine.execPowerOn testEn failed s
  | .powerOff => Sys2Proof.Machine.execPowerOff s
  | .thermalTrip celsius => Sys2Proof.Machine.execThermalTrip celsius s
  | .flowTrip flow => Sys2Proof.Machine.execFlowTrip flow s
  | .flowLow flow => Sys2Proof.Machine.execFlowLow flow s
  | .peakClamp milliAmps => Sys2Proof.Machine.execPeakClamp milliAmps s
  | .powerSample r => Sys2Proof.Machine.execPowerSample r s
  | .coolantSample r => Sys2Proof.Machine.execCoolantSample r s
  | .valveStep => Sys2Proof.Machine.execValveStep s
  | .canaryMeasure counts => Sys2Proof.Machine.execCanaryMeasure counts s
  | .pldmRackLimit watts => Sys2Proof.Machine.execPldmRackLimit watts s
  | .pldmCoolModel which v => Sys2Proof.Machine.execPldmCoolModel which v s
  | .pldmFirmwareUpdate image => Sys2Proof.Machine.execPldmFirmwareUpdate image s
  | .ownerKeyInstall slot key => Sys2Proof.Machine.execOwnerKeyInstall slot key s
  | .ownerKeyClear slot => Sys2Proof.Machine.execOwnerKeyClear slot s
  | .requireSigned on => Sys2Proof.Machine.execRequireSigned on s
  | .permit on => Sys2Proof.Machine.execPermit on s
  | .tapReset => Sys2Proof.Machine.execTapReset s
  | .extest taps => Sys2Proof.Machine.execExtest taps s
  | .idcode taps => Sys2Proof.Machine.execIdcode taps s
  | .samplePreload taps => Sys2Proof.Machine.execSamplePreload taps s
  | .clamp taps => Sys2Proof.Machine.execClamp taps s
  | .highz taps => Sys2Proof.Machine.execHighz taps s
  | .extestPulse taps => Sys2Proof.Machine.execExtestPulse taps s
  | .extestTrain taps => Sys2Proof.Machine.execExtestTrain taps s
  | .bypass taps => Sys2Proof.Machine.execBypass taps s
  | .drScan pins tdi => Sys2Proof.Machine.execDrScan pins tdi s
  | .pcsAlignment p => Sys2Proof.Machine.execPcsAlignment p s
  | .atsEnable on => Sys2Proof.Machine.execAtsEnable on s

end Sys2Proof.Machine
end

