-- ==== Sys2Proof/Safety.lean ====
section
/-! DEFINITION. The terms the statements use: what a safe run is, a descriptor as a ring entry that the FEC may take, what a
command of the pipeline finds in front of it, and the invariant of the management controller's registers. -/
namespace Sys2Proof.Safety
open Sys2Proof.Machine

/-- The step from a state is neither a fault nor a refusal. -/
def Goes (s : State) : Prop := ∃ t, step s = .next t

/-- The state with another management part: the digital part and the queue are unchanged. -/
abbrev withMc (s : State) (m : Mc) : State := { s with mc := m }

/-- The state with another digital part: the management part and the queue are unchanged. -/
abbrev withDev (s : State) (d : Dev) : State := { s with dev := d }

/-! ### Descriptors -/

/-- A descriptor command as a ring entry: its channel, the entry with the opcode of the command's row, its surroundings, and
whether the entry has the form that the row describes. -/
structure Entry where
  chan : Nat
  desc : Desc
  env : Env
  form : Bool
deriving DecidableEq, Repr

/-- An entry of an opcode whose row describes every form. -/
def plain (opcode : BitVec 8) (c : Fin 64) (x : Desc) (e : Env) : Option Entry := some ⟨c.val, { x with opcode := opcode }, e, true⟩

/-- The ring entry of a descriptor command; the other commands are none. -/
def entryOf : Instr → Option Entry
  | .nop c x e => plain 0x00 c x e
  | .recordEvent c x e => plain 0x01 c x e
  | .waitEvent c x e => plain 0x02 c x e
  | .progressScan c x e => plain 0x03 c x e
  | .loadLayout c x e => plain 0x10 c x e
  | .loadGrove c x e => plain 0x11 c x e
  | .evictGrove c x e => plain 0x12 c x e
  | .graft c x e => plain 0x13 c x e
  | .scoreBatch c x e => plain 0x20 c x e
  | .residentScore c x e => plain 0x21 c x e
  | .stopResident c x e => plain 0x22 c x e
  | .histBuild c x e => plain 0x30 c x e
  | .splitFind c x e => plain 0x31 c x e
  | .partition c x e => plain 0x32 c x e
  | .leafFit c x e => plain 0x33 c x e
  | .snapshotStep c x e => some ⟨c.val, { x with opcode := 0x34 }, e, markKind x == 0⟩
  | .snapshotEpoch c x e => some ⟨c.val, { x with opcode := 0x34 }, e, markKind x == 1⟩
  | .snapshotFull c x e => some ⟨c.val, { x with opcode := 0x34 }, e, markKind x == 2⟩
  | .snapshotReadback c x e => some ⟨c.val, { x with opcode := 0x34 }, e, markKind x == 3⟩
  | .gather c x e => plain 0x40 c x e
  | .update c x e => plain 0x41 c x e
  | .tableSync c x e => plain 0x42 c x e
  | .accPreload c x e => some ⟨c.val, { x with opcode := 0x50 }, e, x.op 0x26 1 != 1⟩
  | .accPreloadStream c x e => some ⟨c.val, { x with opcode := 0x50 }, e, x.op 0x26 1 == 1 && !bit (x.op 0x27 1) 3⟩
  | .accPreloadDisarm c x e => some ⟨c.val, { x with opcode := 0x50 }, e, x.op 0x26 1 == 1 && bit (x.op 0x27 1) 3⟩
  | .accReduce c x e => plain 0x51 c x e
  | .accRelease c x e => plain 0x52 c x e
  | .accFinish c x e => some ⟨c.val, { x with opcode := 0x53 }, e, x.op 0x24 1 != 1⟩
  | .accFinishStream c x e => some ⟨c.val, { x with opcode := 0x53 }, e, x.op 0x24 1 == 1⟩
  | .matmul c x e => plain 0x54 c x e
  | .denseOut c x e => plain 0x55 c x e
  | .copy c x e => plain 0x60 c x e
  | .storeGraph c x e => plain 0x70 c x e
  | .launchGraph c x e => plain 0x71 c x e
  | .patchGraph c x e => plain 0x72 c x e
  | .freeGraph c x e => plain 0x73 c x e
  | .dbgRead c x e => plain 0xF0 c x e
  | _ => none

/-- The FEC takes the entry at HEAD of a channel now: the device works, the FEC runs, and the channel is ready (R351, R382,
R390). -/
def takes (s : State) (c : Nat) : Bool := s.live && s.dev.running && s.dev.mayFetch c

/-- The digital part with the entry at HEAD of a channel read and taken (R349, R353, R390, R403). -/
def taken (s : State) (c : Nat) : Dev := (fetched c (some []) s.dev).updChan c Chan.pass

/-- The same, the credit of the entry's dispatch or rejection charged (R378). -/
def credited (s : State) (c : Nat) : Dev := chargeLink (taken s c) c

/-- The taken entry, with its sequence number (R353). -/
def heldAt (s : State) (e : Entry) : Held := ⟨(s.dev.chan e.chan).seqNext.toNat, e.desc, false, .none⟩

/-- What the checks of R352 answer for the entry taken now; it belongs to no launch. -/
def verdictAt (s : State) (e : Entry) : Verdict := verdictOf s.mc (taken s e.chan) e.chan (heldAt s e) e.env none

/-- A descriptor command is taken now, in its row's form, and passes every check. -/
abbrev dispatches (i : Instr) (e : Entry) (s : State) : Prop :=
  entryOf i = some e ∧ e.form = true ∧ takes s e.chan = true ∧ verdictAt s e = .go

/-- The dispatched descriptor that an entry becomes, as it enters the dispatch order (R345). -/
def jobAt (s : State) (e : Entry) : Job :=
  (((credited s e.chan).fecStep.updChan e.chan fun ch => { ch with held := none }).addJob e.chan
    (s.dev.chan e.chan).seqNext.toNat e.desc e.env none 0).2

/-- The digital part as that descriptor's engine starts on it (R345, R386). -/
def entered (s : State) (e : Entry) : Dev :=
  (((credited s e.chan).fecStep.updChan e.chan fun ch => { ch with held := none }).addJob e.chan
    (s.dev.chan e.chan).seqNext.toNat e.desc e.env none 0).1

/-- A command's effect is that of a descriptor opcode's engine alone, on the digital part as the engine starts. -/
def EngineDoes (i : Instr) (e : Entry) (s : State) (f : Job → Dev → Dev) : Prop :=
  Machine.exec i s = .next (withDev s (f (jobAt s e) (entered s e)))

/-- A descriptor in progress as DESCRIPTOR_COMPLETE finds it: a batch or a STOP_RESIDENT whose records are through has ended
(R374, R379). -/
def settledEnd (d : Dev) (id : Nat) : Dev :=
  let d := match d.job id with | some j => if j.desc.code = 0x20 then settleBatch d j else d | none => d
  match d.job id with | some j => if j.desc.code = 0x22 then settleStop d j else d | none => d

/-- A local offset of memory that holds what was last written to it: HBM outside the device region, cluster SRAM, hub SRAM past
the event store, core memory outside the sieve tables (R23, R26, R89, R359, R366). -/
def plainMem (o : Nat) : Bool :=
  match regionOf o with
  | (.hbm _, r) => !inDeviceRegion r
  | (.csram _, _) => true
  | (.hub, r) => decide (0x1100000 ≤ r)
  | (.cmem _, r) => !inSieveMem r
  | _ => false

/-! ### Cores and plots -/

/-- A command changes one core and nothing else. -/
def coreStep (s : State) (n : Nat) (f : Core → Core) : Host.Outcome State Fault Refusal := .next (withDev s (s.dev.updCore n f))

/-- A core can take a step: the device works, and the core is neither fenced nor stopped by a fault that waits (R35, R441). -/
abbrev coreGoes (s : State) (n : Nat) : Prop := s.live = true ∧ s.dev.stopped n = false

/-- A core can take a step in its plot. -/
abbrev plotGoes (s : State) (n pid : Nat) (p : Plot) : Prop :=
  coreGoes s n ∧ s.dev.plotOf n = some (pid, p) ∧ s.dev.plot pid = some p

/-- A command changes the digital part in its cores, its plots, its links and what is put out, and nothing else. -/
def scoringOnly (s t : State) : Prop :=
  t = { s with dev := { s.dev with cores := t.dev.cores, plots := t.dev.plots, ports := t.dev.ports, out := t.dev.out } }

/-! ### The management controller -/

/-- The registers of the management controller stand in the ranges the spec gives them (R491, R495, R497, R499 to R501, R508,
R528): VDD codes, power limits, the coolant model, the targets, the valve; and test mode belongs to the state ON. -/
structure McInv (m : Mc) : Prop where
  request : m.pwr.request ≤ 40
  target : m.pwr.target ≤ m.pwr.request
  actual : m.pwr.actual ≤ 40
  limitHost : 500 ≤ m.pwr.limitHost ∧ m.pwr.limitHost ≤ 3200
  limitRack : 500 ≤ m.pwr.limitRack ∧ m.pwr.limitRack ≤ 3200
  delayS : m.cool.delayS ≤ 60
  tauS : 30 ≤ m.cool.tauS ∧ m.cool.tauS ≤ 120
  gain : m.cool.gain ≤ 100
  horizonS : 1 ≤ m.cool.horizonS ∧ m.cool.horizonS ≤ 255
  tjTarget : 60 ≤ m.cool.tjTarget ∧ m.cool.tjTarget ≤ 100
  outletMax : 30 ≤ m.cool.outletMax ∧ m.cool.outletMax ≤ 70
  valve : m.cool.valve ≤ 200
  valveActual : m.cool.valveActual ≤ 200
  test : m.testMode = true → m.pwr.state = .on

end Sys2Proof.Safety
end

