-- ==== Sys2Proof/Certificates/Slice0/Obligations.lean ====
section
/-! DEFINITION. The statements for the provers. -/
open Sys2Proof Sys2Proof.Machine Sys2Proof.Safety

/-! ### The queue, the step, reset -/

/-- A step takes the command at the front of the queue and runs it on the state with the rest of the queue.
With no command waiting the block idles (the model's choice, log 1). -/
def Obligations.StepRunsFrontCommand : Prop :=
  (∀ (s : State) (c : Instr) (rest : List Instr), s.pending = c :: rest →
     Machine.step s = Machine.exec c { s with pending := rest }) ∧
  (∀ s : State, s.pending = [] → Machine.step s = .next s)

/-- No command stops the block, from any state: a fault of the hardware is a state (R441).
No command touches the queue: only the step takes commands from it.
Where the spec leaves a point open the model's choice shows: log entry 11. -/
def Obligations.CommandsAnswerAndLeaveQueue : Prop :=
  (∀ (i : Instr) (s : State), ∃ t, Machine.exec i s = .next t) ∧
  (∀ (i : Instr) (s t : State), Machine.exec i s = .next t → t.pending = s.pending)

/-- What reset leaves, as the host reads it (R385, R410, R413, R443, R444, R462, R485, R508): the values of the reset
columns. -/
def Obligations.ResetRegisters : Prop :=
  let r := State.reset
  (∀ c : Fin 64, regRead r.mc r.dev (0x100000 + 0x1000 * c.val) = some 0x400100010 ∧
    regRead r.mc r.dev (0x100020 + 0x1000 * c.val) = some 1 ∧ regRead r.mc r.dev (0x100120 + 0x1000 * c.val) = some c.val) ∧
  (∀ p : Fin 16, regRead r.mc r.dev (0x300000 + 0x400 * p.val) = some 0x5EE30 ∧
    regRead r.mc r.dev (0x300028 + 0x400 * p.val) = some 0x10002014) ∧
  regRead r.mc r.dev 0x140000 = some 4 ∧ regRead r.mc r.dev 0x307000 = some 0x10 ∧
  regRead r.mc r.dev 0x204000 = some 0x402 ∧ regRead r.mc r.dev 0xE00018 = some 1 ∧ regRead r.mc r.dev 0xE00030 = some 0xA ∧
  regRead r.mc r.dev 0xE00040 = some 1 ∧ regRead r.mc r.dev 0x400008 = some 0x14 ∧
  regRead r.mc r.dev 0x400010 = some 0xC800C800C80 ∧ regRead r.mc r.dev 0x401008 = some 0xC8 ∧
  regRead r.mc r.dev 0x401010 = some 0x3C003C14 ∧ regRead r.mc r.dev 0x401018 = some 0x3C55 ∧
  regRead r.mc r.dev 0x040010 = some 1

/-- At reset the management controller's registers stand in their ranges. -/
def Obligations.McRangesAtReset : Prop := McInv State.reset.mc

/-- Every step keeps the management controller's registers in the ranges the spec gives them, and test mode inside ON (R491,
R495, R497, R499, R508, R528): from every state in which they stand so, whatever command is in front. -/
def Obligations.McRangesKept : Prop := ∀ s t : State, McInv s.mc → Machine.step s = .next t → McInv t.mc

/-! ### Numbers -/

/-- FX48 addition (R63): exact modulo 2^64, commutative and associative, so that neither order nor grouping matters; the slot is the true
sum while the magnitudes of the addends stay below 2^63 in sum. -/
def Obligations.FixedSumsExact : Prop :=
  (∀ a b c : Nat, fxAdd a b = fxAdd b a ∧ fxAdd (fxAdd a b) c = fxAdd a (fxAdd b c) ∧ fxAdd a b % 2 ^ 64 = (a + b) % 2 ^ 64 ∧
    fxAdd a b < 2 ^ 64) ∧
  (∀ (v : Nat) (xs ys : List Nat), xs.Perm ys → xs.foldl fxAdd v = ys.foldl fxAdd v) ∧
  (∀ xs ys : List Nat, (xs ++ ys).foldl fxAdd 0 = fxAdd (xs.foldl fxAdd 0) (ys.foldl fxAdd 0)) ∧
  (∀ xs : List Nat, (xs.map fun x => (sext 64 x).natAbs).sum < 2 ^ 63 →
    sext 64 (xs.foldl fxAdd 0) = (xs.map (sext 64)).sum)

/-- E4M3 (R57): no code is an infinity; exponent field 0b1111 with fractions 0 to 6 encodes normal numbers up to 448 in magnitude, 0x7F and
0xFF are NaN, 0x00 and 0x80 the two zeros. -/
def Obligations.E4M3Codes : Prop :=
  (∀ c : BitVec 8, (∀ neg, floatVal .e4m3 c.toNat ≠ .inf neg) ∧
    (floatVal .e4m3 c.toNat = .nan ↔ c = 0x7F ∨ c = 0xFF) ∧
    (c.toNat / 8 % 16 = 15 → c.toNat % 8 ≤ 6 → floatVal .e4m3 c.toNat = .fin (c.getLsbD 7) (8 + c.toNat % 8) 5 false)) ∧
  floatVal .e4m3 0x00 = .fin false 0 (-9) false ∧ floatVal .e4m3 0x80 = .fin true 0 (-9) false ∧
  floatVal .e4m3 0x7E = .fin false 14 5 false ∧ floatVal .e4m3 0xFE = .fin true 14 5 false ∧ 14 * 2 ^ 5 = 448

/-- CROSS_HASH (R101): the bin of the feature is the upper half of the 64-bit product of the hash of its two operands' bins and
COUNT + 1; the hash is the mixing function of the spec, on 32-bit words. -/
def Obligations.CrossHashBins : Prop :=
  let mix (x : BitVec 32) : BitVec 32 :=
    let x := x ^^^ (x >>> 16)
    let x := x * 0x6B2F4E35
    let x := x ^^^ (x >>> 15)
    let x := x * 0x9C3A71D3
    x ^^^ (x >>> 16)
  ∀ (t : SieveTable) (nb : List Nat) (area : Nat → Bytes) (st : Binned) (f : Feature) (a b seed : BitVec 32), f.kind = 3 → st.status = 0 →
    at' 0 st.bins f.opA = a.toNat → at' 0 st.bins f.opB = b.toNat → f.seed = seed.toNat → a.toNat < 2 ^ 16 → b.toNat < 2 ^ 16 →
    f.count + 1 < 2 ^ 32 →
    sieveStep t nb area st f = { st with bins := st.bins ++
      [(((mix (((a <<< 16) + b) ^^^ seed)).setWidth 64 * BitVec.ofNat 64 (f.count + 1)) >>> 32).toNat] }

/-! ### Whole-machine rules -/

/-- The owner keys and the two policy bits of MC flash change only through the management interface (R128, R520): every other
command, a device reset among them (R442), leaves them.
The MC's fence counts over the module's life never fall, and rise only by a fence, by one, for the core it names (R437,
R442). -/
def Obligations.McFlashOnlyByItsCommands : Prop :=
  (∀ (i : Instr) (s t : State), Machine.exec i s = .next t →
     (t.mc.keys = s.mc.keys ∨ ∃ slot, i = .ownerKeyClear slot ∨ ∃ key, i = .ownerKeyInstall slot key) ∧
     (t.mc.requireSigned = s.mc.requireSigned ∨ ∃ on, i = .requireSigned on) ∧
     (t.mc.permit = s.mc.permit ∨ ∃ on, i = .permit on)) ∧
  (∀ (i : Instr) (s t : State) (n : Nat), Machine.exec i s = .next t →
     Tbl.get 0 n t.mc.fences = Tbl.get 0 n s.mc.fences ∨
     (∃ (c : Fin 256) (u : Upset), i = .fence c u ∧ c.val = n ∧ Tbl.get 0 n t.mc.fences = Tbl.get 0 n s.mc.fences + 1))

/-- Outside the state ON nothing happens in the digital part, but that the device may come ON or lose its last state to a
lockout (R489, R490).
While the device is fatal, in test mode too, every command leaves all of the digital part but the registers that
reads of the host move, the host link's translation state, the output and the model's own counter of free values, until a device
reset or a power transition (R441). -/
def Obligations.OffAndFatalStandStill : Prop :=
  (∀ (i : Instr) (s t : State), s.mc.pwr.state ≠ .on → Machine.exec i s = .next t →
     t.dev = s.dev ∨ (∃ mv, i = .inputLockout mv) ∨ (∃ te failed, i = .powerOn te failed)) ∧
  (∀ (i : Instr) (s t : State), s.dev.fatal = true → Machine.exec i s = .next t →
     (match i with
       | .hostLinkDown _ _ | .discard _ | .deviceReset _ | .registerWrite _ _ _ _ | .inputLockout _ | .powerOn _ _ | .powerOff
       | .thermalTrip _ | .flowTrip _ => False
       | _ => True) →
     t.dev = { s.dev with host := t.dev.host, out := t.dev.out, engines := t.dev.engines, badAccess := t.dev.badAccess,
                          cores := t.dev.cores, free := t.dev.free } ∧
     ∀ n, (t.dev.core n) = { s.dev.core n with regs := (t.dev.core n).regs })

/-! ### The management controller -/

/-- Power states (R487, R489, R490, R502, R532): the input brings STANDBY; STANDBY that may become ON does so by a device reset,
in test mode as TEST_EN says; an OFF request, a thermal trip and a flow trip leave ON for STANDBY, the trips latched; a lockout
takes every state to OFF. After an undervoltage lockout the input brings STANDBY only above 49.5 V, and an input that brings nothing
is only noted. Leaving ON clears the digital part and the coolant registers; MC flash (keys, fence counts) stands; SLOT_ID is read on
entry to STANDBY (R526).
Where the spec leaves a point open the model's choice shows: log entries 37 and 55. -/
def Obligations.PowerStates : Prop :=
  (∀ (mv : Nat) (s : State), s.mc.pwr.state = .off → 50000 ≤ mv ∨ (s.mc.pwr.uvlo = true ∧ 49500 < mv) → mv ≤ 59500 →
    Machine.exec (.inputApplied mv) s = .next { s with mc := { s.mc with
      pwr := { s.mc.pwr with state := .standby, input := mv, uvlo := false }, slotId := Config.slotId } }) ∧
  (∀ (mv : Nat) (s : State), s.mc.pwr.state ≠ .off ∨ mv ≤ 49500 ∨ (mv < 50000 ∧ s.mc.pwr.uvlo = false) ∨ 59500 < mv →
    Machine.exec (.inputApplied mv) s = .next { s with mc := { s.mc with pwr := { s.mc.pwr with input := mv } } }) ∧
  (∀ (mv : Nat) (s : State), 47500 ≤ mv → mv ≤ 60500 →
    Machine.exec (.inputLockout mv) s = .next { s with mc := { s.mc with pwr := { s.mc.pwr with input := mv } } }) ∧
  (∀ (te : Bool) (failed : List Nat) (s : State), s.mc.mayPowerOn = true →
    ∃ t, Machine.exec (.powerOn te failed) s = .next t ∧ t.pending = s.pending ∧ t.mc.pwr.state = .on ∧ t.mc.testMode = te ∧
      t.dev.mem = [] ∧ t.dev.err.fatalState = (if te then 1 else 0) ∧ t.mc.keys = s.mc.keys ∧ t.mc.fences = s.mc.fences) ∧
  (∀ (i : Instr) (trip : Bool) (s : State), s.mc.pwr.state = .on →
    ((i = .powerOff ∧ trip = false) ∨ ((∃ c : Int, i = .thermalTrip c ∧ 105 ≤ c) ∧ trip = true) ∨
      ((∃ f : Nat, i = .flowTrip f ∧ f < 500) ∧ trip = true)) →
    ∃ t, Machine.exec i s = .next t ∧ t.pending = s.pending ∧ t.mc.pwr.state = .standby ∧ t.mc.pwr.trip = trip ∧
      t.mc.testMode = false ∧ t.dev = s.dev.cleared ∧ t.mc.keys = s.mc.keys ∧ t.mc.fences = s.mc.fences ∧
      t.mc.slotId = Config.slotId ∧ coolReg t.mc.cool 0x00 = coolReg {} 0x00 ∧ t.mc.cool.tauS = 60 ∧ t.mc.cool.tjTarget = 85) ∧
  (∀ (mv : Nat) (s : State), mv < 47500 ∨ 60500 < mv →
    ∃ t, Machine.exec (.inputLockout mv) s = .next t ∧ t.pending = s.pending ∧ t.mc.pwr.state = .off ∧ t.mc.cool = {} ∧
      t.mc.pwr.input = mv ∧ t.mc.pwr.uvlo = decide (mv < 47500) ∧ t.mc.testMode = false ∧ t.dev = s.dev.cleared ∧ t.mc.keys = s.mc.keys ∧ t.mc.fences = s.mc.fences)

/-- The management interface sets owner keys and policy while the MC runs, and nothing else (R128, R507, R520).
The rack limit, the coolant model and the firmware that the management interface sets (R497, R500, R507, R508): a value in
range is stored and changes nothing else, one out of range is discarded and sets CTRL_REFUSED; an image is taken only where its
signature holds.
PWR_VDD.REQUEST and PWR_LIMIT.HOST written by the host (R491, R497): a code up to 40 becomes the request, and the target is
the lower of it and what the limits held the target to; a limit of 500 to 3,200 W is stored; anything else is discarded and sets
CTRL_REFUSED. Nothing but the power registers changes.
Where the spec leaves a point open the model's choice shows: log entry 37. -/
def Obligations.ManagementWrites : Prop :=
  (∀ s : State, s.mc.pwr.state ≠ .off →
     (∀ (k : Fin 4) (key : Bytes), ∃ t, Machine.exec (.ownerKeyInstall k key) s = .next t ∧
       t = { s with mc := { s.mc with keys := t.mc.keys } } ∧ Tbl.get [] k.val t.mc.keys = key ∧
       ∀ j, j ≠ k.val → Tbl.get [] j t.mc.keys = Tbl.get [] j s.mc.keys) ∧
     (∀ k : Fin 4, ∃ t, Machine.exec (.ownerKeyClear k) s = .next t ∧
       t = { s with mc := { s.mc with keys := t.mc.keys } } ∧ Tbl.get [] k.val t.mc.keys = [] ∧
       ∀ j, j ≠ k.val → Tbl.get [] j t.mc.keys = Tbl.get [] j s.mc.keys) ∧
     (∀ on, Machine.exec (.requireSigned on) s = .next { s with mc := { s.mc with requireSigned := on } }) ∧
     (∀ on, Machine.exec (.permit on) s = .next { s with mc := { s.mc with permit := on } })) ∧
  (∀ s : State, s.mc.pwr.state ≠ .off →
     (∀ w : BitVec 16, Machine.exec (.pldmRackLimit w) s = .next (withMc s
       (if 500 ≤ w.toNat ∧ w.toNat ≤ 3200 then { s.mc with pwr := { s.mc.pwr with limitRack := w.toNat } }
        else { s.mc with pwr := { s.mc.pwr with status := setBit s.mc.pwr.status 4 } }))) ∧
     (∀ (which : Fin 5) (v : BitVec 16), Machine.exec (.pldmCoolModel which v) s = .next (withMc s
       (let x := v.toNat
        let c := s.mc.cool
        match which with
        | 0 => if x ≤ 60 then { s.mc with cool := { c with delayS := x } } else s.mc.refuseCool
        | 1 => if 30 ≤ x ∧ x ≤ 120 then { s.mc with cool := { c with tauS := x } } else s.mc.refuseCool
        | 2 => if x ≤ 100 then { s.mc with cool := { c with gain := x } } else s.mc.refuseCool
        | 3 => if 1 ≤ x ∧ x ≤ 255 then { s.mc with cool := { c with horizonS := x } } else s.mc.refuseCool
        | 4 => if 60 ≤ x ∧ x ≤ 100 then { s.mc with cool := { c with tjTarget := x } } else s.mc.refuseCool))) ∧
     (∀ image : Bytes, Machine.exec (.pldmFirmwareUpdate image) s = .next (withMc s
       (if Config.firmwareSigned image then { s.mc with firmware := image } else s.mc)))) ∧
  (∀ (v : BitVec 64) (s : State), s.live = true →
     (∃ t, Machine.exec (.vddRequest v) s = .next t ∧ t = { s with mc := { s.mc with pwr := t.mc.pwr } } ∧
       (bits v.toNat 0 6 ≤ 40 → t.mc.pwr.request = bits v.toNat 0 6 ∧ t.mc.pwr.status = s.mc.pwr.status ∧
         t.mc.pwr.target = (if s.mc.pwr.capReason = 0 then bits v.toNat 0 6 else min s.mc.pwr.target (bits v.toNat 0 6))) ∧
       (40 < bits v.toNat 0 6 → t.mc.pwr = { s.mc.pwr with status := setBit s.mc.pwr.status 4 })) ∧
     Machine.exec (.powerLimitHost v) s = .next (withMc s
       (if 500 ≤ bits v.toNat 0 12 ∧ bits v.toNat 0 12 ≤ 3200 then
          { s.mc with pwr := { s.mc.pwr with limitHost := bits v.toNat 0 12 } }
        else { s.mc with pwr := { s.mc.pwr with status := setBit s.mc.pwr.status 4 } })))

/-- A power sample (R495, R504, R508): its readings are registered, the rail follows the target of the last sample, the target
moves by one code at most beyond the request a free target takes, and no limit, request or coolant setting changes.
A coolant sample, low flow, the valve and the peak clamp (R496, R499, R501, R502, R508).
The hourly canary measurement (R503 to R506): every core's life record is its own measurement, an hour is counted, and the
sums of the hour begin anew, for the HBM stacks' corrected errors too (R506).
Where the spec leaves a point open the model's choice shows: log entries 16 and 37. -/
def Obligations.McSamples : Prop :=
  (∀ (r : PowerReading) (s : State), s.mc.pwr.state = .on →
     ∃ t, Machine.exec (.powerSample r) s = .next t ∧ t = { s with mc := { s.mc with pwr := t.mc.pwr, cool := t.mc.cool } } ∧
       t.mc.pwr.milliVolts = r.milliVolts ∧ t.mc.pwr.samples = (r.milliVolts * r.milliAmps :: s.mc.pwr.samples).take 1200000 ∧
       t.mc.pwr.actual = s.mc.pwr.target ∧ t.mc.pwr.sampleNo = s.mc.pwr.sampleNo + 1 ∧ t.mc.pwr.request = s.mc.pwr.request ∧
       t.mc.pwr.limitHost = s.mc.pwr.limitHost ∧ t.mc.pwr.limitRack = s.mc.pwr.limitRack ∧ t.mc.pwr.state = .on ∧
       (let from' := if s.mc.pwr.capReason = 0 then s.mc.pwr.request else s.mc.pwr.target
        from' ≤ t.mc.pwr.target + 1 ∧ t.mc.pwr.target ≤ from' + 1) ∧
       t.mc.cool.hourVdd = s.mc.cool.hourVdd + s.mc.pwr.target ∧ t.mc.cool.hourPower = s.mc.cool.hourPower + 1) ∧
  ((∀ (r : CoolReading) (s : State), s.mc.pwr.state ≠ .off →
     ∃ t, Machine.exec (.coolantSample r) s = .next t ∧
       t = { s with mc := { s.mc with pwr := t.mc.pwr, cool := t.mc.cool, hbm := t.mc.hbm } } ∧
       (s.mc.pwr.state = .on → ∀ i, i < 20 → (Tbl.get {} i t.mc.hbm).present = (Tbl.get {} i s.mc.hbm).present + at' 0 r.corrected i ∧
         (at' 0 r.corrected i ≠ 0 →
           (Tbl.get {} i t.mc.hbm).total = ((Tbl.get {} i s.mc.hbm).total + at' 0 r.corrected i) % 2 ^ 32)) ∧
       t.mc.cool.tjCluster = r.tjCluster ∧ t.mc.cool.tjCore = r.tjCore ∧ t.mc.cool.tjHub = r.tjHub ∧ t.mc.cool.inlet = r.inlet ∧
       t.mc.cool.outlet = r.outlet ∧ t.mc.cool.flow = r.flow ∧ t.mc.cool.faulty = r.fault ∧
       t.mc.pwr.request = s.mc.pwr.request ∧ t.mc.pwr.target ≤ s.mc.pwr.target ∧ s.mc.pwr.target ≤ t.mc.pwr.target + 1) ∧
   (∀ (f : Nat) (s : State), s.mc.pwr.state ≠ .off → f < 1000 → s.mc.cool.flowLow = false →
     Machine.exec (.flowLow f) s = .next { s with mc := { s.mc with cool := { s.mc.cool with
       status := setBit s.mc.cool.status 1, cnt := laneBump s.mc.cool.cnt 1, flowLow := true } } }) ∧
   (∀ s : State, s.mc.pwr.state ≠ .off →
     (s.mc.cool.valveActual + 2 ≤ s.mc.opening ∨ s.mc.opening + 2 ≤ s.mc.cool.valveActual) →
     Machine.exec .valveStep s = .next { s with mc := { s.mc with
       cool := { s.mc.cool with valveActual := s.mc.opening }, valveMoves := (s.mc.valveMoves + 1) % 2 ^ 32 } }) ∧
   (∀ (ma : Nat) (s : State), s.mc.pwr.state = .on → 3600000000 < ma * s.mc.pwr.input →
     ∃ t, Machine.exec (.peakClamp ma) s = .next t ∧ t = { s with mc := { s.mc with pwr := t.mc.pwr, cool := t.mc.cool } } ∧
       t.mc.pwr.target = 0 ∧ t.mc.pwr.actual = 0 ∧ t.mc.pwr.request = s.mc.pwr.request ∧
       t.mc.pwr.status.getLsbD 1 = true ∧ (s.mc.pwr.request ≠ 0 → t.mc.pwr.capReason = 5))) ∧
  (∀ (counts : List (List Nat)) (s : State), s.mc.pwr.state = .on →
     ∃ t, Machine.exec (.canaryMeasure counts) s = .next t ∧ t.dev = s.dev ∧ t.pending = s.pending ∧ t.mc.pwr = s.mc.pwr ∧
       (∀ n, n < 256 → Tbl.get {} n t.mc.life = measureCore s.mc counts n) ∧ t.mc.hoursOn = (s.mc.hoursOn + 1) % 2 ^ 32 ∧
       t.mc.cool = { s.mc.cool with hourTj := [], hourVdd := 0, hourCool := 0, hourPower := 0 } ∧
       (∀ i, (Tbl.get {} i t.mc.hbm).total = (Tbl.get {} i s.mc.hbm).total ∧ (Tbl.get {} i t.mc.hbm).present = 0) ∧
       t.mc.keys = s.mc.keys ∧ t.mc.fences = s.mc.fences)

/-! ### The test access ports -/

/-- The instructions of R530: each scan loads its opcode into the ports it names, and every port captures 0b0000_0001.
What the selected registers of the chain give (R527, R530, R531): a boundary register of its die's length for the codes 0x00,
0x02, 0x06 and 0x07, the 32-bit identification for 0x01, one bypass bit for every other code; a scan shifts them out at TDO in
the order of the chain, followed by what was shifted in.
After a scan the pins stand as the boundary registers and the edges of Run-Test/Idle leave them (R533, R534): an AC-coupled lane is
inverted by EXTEST_PULSE from the first edge to the exit, and toggles at each edge under EXTEST_TRAIN; a pin under no register's
control is idle.
Where the spec leaves a point open the model's choice shows: log entry 41. -/
def Obligations.TestPorts : Prop :=
  (∀ (taps : BitVec 5) (s : State), s.mc.pwr.state = .on → s.mc.testMode = true →
     ∀ x ∈ [(Instr.extest taps, 0x00), (.idcode taps, 0x01), (.samplePreload taps, 0x02), (.clamp taps, 0x04), (.highz taps, 0x05),
         (.extestPulse taps, 0x06), (.extestTrain taps, 0x07), (.bypass taps, 0xFF)],
       ∃ t, Machine.exec x.1 s = .next t ∧ t.pending = s.pending ∧ t.mc = { s.mc with taps := t.mc.taps } ∧
         t.dev = { s.dev with free := s.dev.free + 1, out := s.dev.out ++
           ([.tdo ((List.replicate 5 [true, false, false, false, false, false, false, false]).flatten)] ++
             pinsShown t.mc (t.mc.restEdges s.dev.free)) } ∧
         (∀ i, i < 5 → t.mc.tap i =
           { s.mc.tap i with ir := (if taps.getLsbD i then x.2 else (s.mc.tap i).ir), edges := t.mc.restEdges s.dev.free })) ∧
  (∀ (m : Mc) (e i k : Nat),
     let u := at' false (m.tap i).update k
     let kind := Config.cellKind i k % 4
     let pin (l : PinLevel) : PinLevel := if kind = 3 then .noPin else l
     ((m.tap i).ir ∈ [0, 4] → pinLevel m e false i k = pin (.driven u)) ∧
     ((m.tap i).ir = 6 → pinLevel m 0 false i k = pin (.driven u) ∧ pinLevel m (e + 1) false i k = pin (.driven (u != decide (kind = 1))) ∧
       pinLevel m e true i k = pin (.driven u)) ∧
     ((m.tap i).ir = 7 → pinLevel m e false i k = pin (.driven (u != decide (kind = 1 ∧ e % 2 = 1)))) ∧
     ((m.tap i).ir = 5 → pinLevel m e false i k = pin .highImpedance) ∧
     ((m.tap i).ir ∉ [0, 4, 5, 6, 7] → pinLevel m e false i k = pin (if kind = 2 then .inactive else .electricalIdle))) ∧
  ((∀ (m : Mc) (pins : List Bool) (i : Nat), (capture m pins i).length =
     if (m.tap i).ir ∈ [0x00, 0x02, 0x06, 0x07] then (if i = 0 then 1408 else 656) else if (m.tap i).ir = 0x01 then 32 else 1) ∧
   (∀ (pins tdi : List Bool) (s : State), s.mc.pwr.state = .on → s.mc.testMode = true →
     ∃ t, Machine.exec (.drScan pins tdi) s = .next t ∧ t.pending = s.pending ∧ t.mc = { s.mc with taps := t.mc.taps } ∧
       t.dev = { s.dev with free := s.dev.free + 1, out := s.dev.out ++
         ([.tdo ((([4, 3, 2, 1, 0].map (capture s.mc pins)).flatten ++ tdi).take tdi.length)] ++
           pinsShown t.mc (t.mc.restEdges s.dev.free)) } ∧
       ∀ i, (t.mc.tap i).ir = (s.mc.tap i).ir) ∧
   (∀ s : State, ∃ t, Machine.exec .tapReset s = .next t ∧ t.pending = s.pending ∧ t.mc = { s.mc with taps := t.mc.taps } ∧
     t.dev = (if s.mc.chainOpen then s.dev.emit (.pins (pinLevels t.mc 0 false)) else s.dev) ∧
     ∀ i, i < 5 → t.mc.tap i = { s.mc.tap i with ir := 1, edges := 0 }))

/-! ### Descriptors -/

/-- Every descriptor row (R345, R349, R353, R386): NOP, RECORD_EVENT, WAIT_EVENT, PROGRESS_SCAN, LOAD_LAYOUT, LOAD_GROVE, EVICT_GROVE, GRAFT,
SCORE_BATCH, RESIDENT_SCORE, STOP_RESIDENT, HIST_BUILD, SPLIT_FIND, PARTITION, LEAF_FIT, the four SNAPSHOT marks, GATHER, UPDATE, TABLE_SYNC,
the ACC operations, MATMUL, DENSE_OUT, COPY, the four graph descriptors and DBG_READ. An entry that the FEC may take and that passes every
check is dispatched. HEAD passes it, it takes its sequence number and its place in the dispatch order, and its engine starts on it with the blocks its checks
read.
What an entry is as it enters the dispatch order (R345, R349, R353, R378, R390): the channel's HEAD, sequence number and owed records
move by one, it costs one credit, the FEC counts it, and nothing else of the digital part changes but the translation cache (R403).
Where the spec leaves a point open the model's choice shows: log entry 29. -/
def Obligations.DescriptorDispatched : Prop :=
  (∀ (i : Instr) (e : Entry) (s : State), dispatches i e s →
     Machine.exec i s = .next (withDev s (takeConst (startNew s.mc (jobAt s e) (entered s e)) e.chan e.desc))) ∧
  (∀ (e : Entry) (s : State),
     entered s e = { s.dev with host := { s.dev.host with atc := (entered s e).host.atc }, chans := (entered s e).chans,
                                jobs := s.dev.jobs ++ [jobAt s e], nextJob := s.dev.nextJob + 1,
                                fecProgress := s.dev.fecProgress + 1 } ∧
     (∀ c, c ≠ e.chan → (entered s e).chan c = s.dev.chan c) ∧
     (let ch := s.dev.chan e.chan
      let ch' := (entered s e).chan e.chan
      ch'.seqNext = ch.seqNext + 1 ∧ ch'.head = (ch.head + 1) % 2 ^ ch.sqLog2.toNat ∧ ch'.owed = ch.owed + 1 ∧
      ch'.phase = (if (ch.head + 1) % 2 ^ ch.sqLog2.toNat = 0 then !ch.phase else ch.phase) ∧ ch'.refetches = 0 ∧
      ch'.state = ch.state ∧ ch'.tail = ch.tail ∧
      (if s.dev.inTurn = true ∧ s.dev.rrChan = e.chan ∧ ch.left ≠ 0 then ch'.left = ch.left - 1 ∧ ch'.debt = ch.debt
       else ch'.left = ch.left ∧ ch'.debt = if ch.debt = 0xFFFF then 0xFFFF else ch.debt + 1)) ∧
     (jobAt s e).id = s.dev.nextJob ∧ (jobAt s e).chan = e.chan ∧ (jobAt s e).seq = (s.dev.chan e.chan).seqNext.toNat ∧
     (jobAt s e).desc = e.desc)

/-- A class 1 status rejects a descriptor with no side effect (R9, R353): its channel counts it, halts only under HALT_ON_REJECT,
and the descriptor stands complete with the status; beyond the translation cache nothing else changes, memory and every other channel
among it.
Where the spec leaves a point open the model's choice shows: log entry 29. -/
def Obligations.DescriptorRejected : Prop :=
  ∀ (i : Instr) (e : Entry) (s : State) (st : Status), entryOf i = some e → e.form = true → takes s e.chan = true →
    verdictAt s e = .reject st →
    ∃ t, Machine.exec i s = .next t ∧
      t = { s with dev := { s.dev with host := { s.dev.host with atc := t.dev.host.atc }, chans := t.dev.chans, jobs := t.dev.jobs, nextJob := s.dev.nextJob + 1,
                                       fecProgress := s.dev.fecProgress + 1 } } ∧
      (∀ c, c ≠ e.chan → t.dev.chan c = s.dev.chan c) ∧
      (t.dev.chan e.chan).seqNext = (s.dev.chan e.chan).seqNext + 1 ∧
      (t.dev.chan e.chan).state = (if (s.dev.chan e.chan).haltOnReject then .halted else .running) ∧
      (t.dev.chan e.chan).status = setBit (s.dev.chan e.chan).status 0 ∧
      ∃ j ∈ t.dev.jobs, j.id = s.dev.nextJob ∧ j.chan = e.chan ∧ j.seq = (s.dev.chan e.chan).seqNext.toNat ∧ j.status = st ∧
        j.complete = true

/-- A descriptor that must wait holds its channel WAITING, and one that its engine cannot take is held where it is (R355, R361,
R369, R373, R378, R382): it is passed at HEAD and nothing else changes.
A wait ends when its condition holds, and not before (R49, R355, R361, R373, R382).
Where the spec leaves a point open the model's choice shows: log entry 29. -/
def Obligations.DescriptorsHeldAndWaits : Prop :=
  (∀ (i : Instr) (e : Entry) (s : State), entryOf i = some e → e.form = true → takes s e.chan = true →
     (∀ w, verdictAt s e = .wait w → Machine.exec i s = .next (withDev s ((taken s e.chan).updChan e.chan fun ch =>
       { ch with held := some { heldAt s e with wait := w }, state := .waiting, wait := w }))) ∧
     (verdictAt s e = .busy → Machine.exec i s = .next (withDev s ((taken s e.chan).updChan e.chan fun ch =>
       { ch with held := some { heldAt s e with busy := true } })))) ∧
  ((∀ (c : Fin 64) (h : Held) (s : State), s.live = true → (s.dev.chan c.val).state = .waiting →
     (s.dev.chan c.val).held = some h → waitOver s.dev c.val h = true →
     Machine.exec (.channelWaitEnd c) s = .next (withDev s (s.dev.updChan c.val fun ch =>
       { ch with state := .running, wait := .none }))) ∧
   (∀ (c : Fin 64) (h : Held) (s : State), (s.dev.chan c.val).held = some h → waitOver s.dev c.val h = false →
     Machine.exec (.channelWaitEnd c) s = .next s) ∧
   (∀ (d : Dev) (c : Nat) (h : Held), h.wait = .event →
     (waitOver d c h = true ↔ h.desc.op 0x10 8 ≤ d.eventVal (h.desc.op 0x18 2))) ∧
   (∀ (d : Dev) (c : Nat) (h : Held), h.wait = .barrier → (waitOver d c h = true ↔
     ∀ j ∈ d.jobs, j.chan = c → j.id < d.nextJob → (d.chan c).launch ≠ some j.id → d.jobComplete j = true)))

/-- BARRIER (R355): a descriptor or node with it passes the checks only once every descriptor dispatched before it on its channel is
complete, the earlier nodes of its own launch included; the launch that a node belongs to is none of them. -/
def Obligations.BarrierOrder : Prop :=
  (∀ (mc : Mc) (d : Dev) (c : Nat) (h : Held) (env : Env) (launch : Option Nat), h.wait ≠ .stream → h.desc.barrier = true →
    verdictOf mc d c h env launch = .go →
    ∀ j ∈ d.jobs, j.chan = c → j.id < d.nextJob → launch ≠ some j.id → d.jobComplete j = true) ∧
  (∀ (i : Instr) (e : Entry) (s : State), dispatches i e s → e.desc.barrier = true →
    ∀ j ∈ s.dev.jobs, j.chan = e.chan → j.id < s.dev.nextJob → s.dev.jobComplete j = true)

/-- NOP and a satisfied WAIT_EVENT end at once (R348, R361); RECORD_EVENT and PROGRESS_SCAN wait, dispatched, for the work before
them and for their scan (R360, R421). WAIT_EVENT is satisfied by any value not below its own, and waits otherwise (R49, R361).
RECORD_EVENT_APPLY and an Event unit of another device (R49, R360, R362): once every earlier descriptor of its channel is
complete, a record sets the event by the rule, so that its value never falls, and ends with the rule's status; nothing else changes.
One for another device goes there as an Event unit. -/
def Obligations.Events : Prop :=
  ((∀ (i : Instr) (e : Entry) (s : State), dispatches i e s → e.desc.opcode = 0x00 ∨ e.desc.opcode = 0x02 →
     EngineDoes i e s fun j d => d.finishJob j.id 0) ∧
   (∀ (i : Instr) (e : Entry) (s : State), dispatches i e s → e.desc.opcode = 0x01 ∨ e.desc.opcode = 0x03 →
     EngineDoes i e s fun j d => d.updJob j.id fun k => { k with phase := .queued }) ∧
   (∀ (d : Dev) (x : Desc), (x.op 0x10 8 ≤ d.eventVal (x.op 0x18 2) → checkWaitEvent d x = .go) ∧
     (d.eventVal (x.op 0x18 2) < x.op 0x10 8 → checkWaitEvent d x = .wait .event))) ∧
  ((∀ (cur v : Nat) (add : Bool), cur ≤ eventMax → cur ≤ (eventRecord cur v add).1 ∧
     (v ≤ eventMax → (eventRecord cur v add).1 ≤ eventMax) ∧
     (add = false → (eventRecord cur v add).1 = max cur v ∧ ((eventRecord cur v add).2 = (if v < cur then stEventStale else 0))) ∧
     (add = true → (eventRecord cur v add).1 = min eventMax (cur + v) ∧
       (eventRecord cur v add).2 = (if eventMax < cur + v then stEventStale else 0))) ∧
   (∀ (id : Nat) (s : State) (j : Job), s.live = true → s.dev.job id = some j → j.desc.code = 1 → j.phase = .queued →
     s.dev.earlierDone j.chan j.id j.launch = true → eventLocal s.dev j.desc = true →
     let r := eventRecord (s.dev.eventVal (j.desc.op 0x18 2)) (j.desc.op 0x10 8) (bit (j.desc.op 0x1C 1) 0)
     Machine.exec (.recordEventApply id) s = .next (withDev s ((s.dev.setEvent (j.desc.op 0x18 2) r.1).finishJob j.id r.2))) ∧
   (∀ (id : Nat) (s : State) (j : Job), s.live = true → s.dev.job id = some j → j.desc.code = 1 → j.phase = .queued →
     s.dev.earlierDone j.chan j.id j.launch = true → eventLocal s.dev j.desc = false →
     Machine.exec (.recordEventApply id) s = .next (withDev s (applyRemote s.dev j))) ∧
   (∀ (p : Fin 16) (s : State) (u : RxUnit), s.live = true → (s.dev.port p.val).requestOf 8 = some u →
     let d := s.dev.takeUnit p.val u
     let r := eventRecord (d.eventVal (field u.body 8 2)) (field u.body 0 8) (bit (field u.body 10 1) 0)
     Machine.exec (.eventUnit p) s = .next (withDev s (sendUnit (d.setEvent (field u.body 8 2) r.1) u.src 14 u.plot
       (toLe 4 (field u.body 12 4) ++ toLe 2 r.2.toNat ++ toLe 2 0)))))

/-- FREE_GRAPH frees the graph's memory and its ID (R367). -/
def Obligations.FreeGraph : Prop :=
  ∀ (c : Fin 64) (x : Desc) (env : Env) (e : Entry) (s : State), dispatches (.freeGraph c x env) e s →
    EngineDoes (.freeGraph c x env) e s (fun j d => (d.setGraph (x.op 0x10 2) none).finishJob j.id 0) ∧
    ((entered s e).setGraph (x.op 0x10 2) none).graph (x.op 0x10 2) = none ∧
    (∀ g, g ≠ x.op 0x10 2 → ((entered s e).setGraph (x.op 0x10 2) none).graph g = s.dev.graph g)

/-- The other graph descriptors (R365, R368 to R371): STORE_GRAPH and PATCH_GRAPH end at once with the graph stored and its staged
slot values replaced, LAUNCH_GRAPH begins a launch whose nodes hold the slot values of its frame. -/
def Obligations.GraphDescriptors : Prop :=
  (∀ (c : Fin 64) (x : Desc) (env : Env) (e : Entry) (s : State), dispatches (.storeGraph c x env) e s →
    EngineDoes (.storeGraph c x env) e s fun j d => startStoreGraph j (askReads d j)) ∧
  (∀ (c : Fin 64) (x : Desc) (env : Env) (e : Entry) (s : State) (g : Graph), dispatches (.patchGraph c x env) e s →
    s.dev.graph (x.op 0x10 2) = some g →
    ∃ vs : List Nat, vs.length = g.slots.length ∧
      (∀ k, k < g.slots.length → (k < x.op 0x12 1 ∨ x.op 0x12 1 + x.op 0x13 1 ≤ k) → at' 0 vs k = at' 0 g.slots k) ∧
      EngineDoes (.patchGraph c x env) e s fun j d => ((askReads d j).setGraph (x.op 0x10 2) (some { g with slots := vs })).finishJob j.id 0) ∧
  (∀ (c : Fin 64) (x : Desc) (env : Env) (e : Entry) (s : State) (g : Graph), dispatches (.launchGraph c x env) e s →
    s.dev.graph (x.op 0x10 2) = some g →
    ∃ t, Machine.exec (.launchGraph c x env) s = .next t ∧ t.mc = s.mc ∧ t.pending = s.pending ∧ t.dev.mem = s.dev.mem ∧
      t.dev.graphs = s.dev.graphs ∧ (t.dev.chan c.val).launch = some s.dev.nextJob ∧
      ∃ l ∈ t.dev.launches, l.id = s.dev.nextJob ∧ l.graph = x.op 0x10 2 ∧ l.next = 0 ∧ l.nodes.length = g.nodes.length)

/-- The descriptors that arm a residual or an operand of their channel, or remove one, end at once (R191, R192, R236).
ACC_RELEASE removes its tile from the table and leaves every row as it is (R179, R210); ACC_PRELOAD enters its tile at its dispatch
(R181). Each runs in its place among the operations on overlapping tiles.
The write of a dispatched ACC_PRELOAD (R181, R190, R212): once no earlier operation holds an overlapping tile and no record
context stands in its rows, the elements are converted and stored in its core, the rows are counted, the descriptor ends with the
flags of the conversions, and what waited for the tile goes on. The core's contexts and fence stand. -/
def Obligations.TilesAndArming : Prop :=
  ((∀ (c : Fin 64) (x : Desc) (env : Env) (e : Entry) (s : State), dispatches (.accPreloadStream c x env) e s →
     EngineDoes (.accPreloadStream c x env) e s fun j d =>
       (d.updChan c.val fun ch => { ch with armed := ch.armed ++ [armedOf e.desc] }).finishJob j.id 0) ∧
   (∀ (c : Fin 64) (x : Desc) (env : Env) (e : Entry) (s : State), dispatches (.accPreloadDisarm c x env) e s →
     EngineDoes (.accPreloadDisarm c x env) e s fun j d => (d.updChan c.val fun ch =>
       { ch with armed := ch.armed.filter fun a => !(a.plot = x.op 0x30 2 && a.operand = false) }).finishJob j.id 0) ∧
   (∀ (c : Fin 64) (x : Desc) (env : Env) (e : Entry) (s : State), dispatches (.accFinishStream c x env) e s →
     EngineDoes (.accFinishStream c x env) e s fun j d => (d.updChan c.val fun ch =>
       if bit (x.op 0x25 1) 3 then { ch with armed := ch.armed.filter fun a => !(a.plot = x.op 0x26 2 && a.operand = true) }
       else { ch with armed := ch.armed ++ [armedOperand e.desc] }).finishJob j.id 0)) ∧
  ((∀ (c : Fin 64) (x : Desc) (env : Env) (e : Entry) (s : State), dispatches (.accRelease c x env) e s →
     (entered s e).tilesFree s.dev.nextJob [x.op 0x10 8] = true →
     ∃ t, Machine.exec (.accRelease c x env) s = .next t ∧
       t = { s with dev := { s.dev with host := { s.dev.host with atc := t.dev.host.atc }, chans := t.dev.chans, jobs := t.dev.jobs, nextJob := s.dev.nextJob + 1, cores := t.dev.cores,
                                        fecProgress := s.dev.fecProgress + 1 } } ∧
       t.dev.core (x.op 0x10 1) = { s.dev.core (x.op 0x10 1) with
         tiles := (s.dev.core (x.op 0x10 1)).tiles.filter fun w => w.word ≠ x.op 0x10 8 } ∧
       (∀ n, n ≠ x.op 0x10 1 → t.dev.core n = s.dev.core n) ∧
       ∃ j ∈ t.dev.jobs, j.id = s.dev.nextJob ∧ j.phase = .done ∧ j.status = 0) ∧
   (∀ (c : Fin 64) (x : Desc) (env : Env) (e : Entry) (s : State), dispatches (.accPreload c x env) e s →
     ∃ t, Machine.exec (.accPreload c x env) s = .next t ∧
       t = { s with dev := { s.dev with host := { s.dev.host with atc := t.dev.host.atc }, chans := t.dev.chans, jobs := t.dev.jobs, nextJob := s.dev.nextJob + 1, cores := t.dev.cores,
                                        ports := t.dev.ports, out := t.dev.out, nextTag := t.dev.nextTag,
                                        fecProgress := s.dev.fecProgress + 1 } } ∧
       (t.dev.core (x.op 0x10 1)).acc = (s.dev.core (x.op 0x10 1)).acc ∧
       (∃ w ∈ (t.dev.core (x.op 0x10 1)).tiles, w.word = x.op 0x10 8) ∧ ∀ n, n ≠ x.op 0x10 1 → t.dev.core n = s.dev.core n)) ∧
  (∀ (id : Nat) (env : Env) (s : State) (j : Job), s.live = true → s.dev.job id = some j → j.desc.code = 0x50 →
     j.desc.op 0x26 1 = 0 → j.phase = .active → s.dev.tilesFree id j.tiles = true →
     (j.tiles.all fun w => (s.dev.core (bits (j.desc.op 0x10 8) 0 8)).rowsClear w) = true →
     (s.dev.core (bits (j.desc.op 0x10 8) 0 8)).fenced = false →
     (bit (j.desc.op 0x27 1) 0 = true ∨ s.dev.readFail env (j.desc.op 0x18 8) (preloadSpan j.desc) = none) →
     let n := bits (j.desc.op 0x10 8) 0 8
     let r := preloadWrite s.dev env j.desc (s.dev.core n)
     Machine.exec (.tilePreloadWrite id env) s = .next (withDev s (settle s.mc ((s.dev.setCore n r.1).finishJob id 0 r.2))) ∧
     r.1.regs.accTileRows = (s.dev.core n).regs.accTileRows + BitVec.ofNat 64 (bits (j.desc.op 0x10 8) 20 13) ∧
     r.1.ctxs = (s.dev.core n).ctxs ∧ r.1.fenced = (s.dev.core n).fenced)

/-- Groves, layouts, tables and the training engines. LOAD_LAYOUT puts the image's plots in force, or, where a named core's
fault is taken up before it is applied, ends CORE_FENCED with the previous layout in force (R135, R144; log 56); LOAD_GROVE's
engine with CHECK_ONLY changes nothing, without ACTIVATE stages the grove beside the active one, with it makes the grove active (R139); EVICT_GROVE clears the
bank pairs that BANKS names (R145); TABLE_SYNC drops cached rows (R321); and HIST_BUILD, SPLIT_FIND, PARTITION, LEAF_FIT, GATHER,
UPDATE, the tile operations, MATMUL and DENSE_OUT leave plots, layout, graphs and events as they are (R291 to R341). -/
def Obligations.GrovesLayoutsAndEngines : Prop :=
  (∀ (c : Fin 64) (x : Desc) (env : Env) (e : Entry) (s : State), dispatches (.loadLayout c x env) e s →
    let img := (entered s e).readOr env (x.op 0x10 8) (x.op 0x18 4)
    let l := parseLayout img
    faultWaits s.dev l = false ∨ Config.fenceFirst s.dev.free = false →
    ∃ t, Machine.exec (.loadLayout c x env) s = .next t ∧ t.mc = s.mc ∧ t.pending = s.pending ∧ t.dev.mem = s.dev.mem ∧
      t.dev.layout = some l ∧ t.dev.layoutImage = img ∧ t.dev.deviceId = l.deviceId ∧
      (∀ r ∈ l.plots, (t.dev.plot r.plotId).isSome = true) ∧
      ∀ pid p, t.dev.plot pid = some p → p.lay ∈ l.plots ∧ p.lay.plotId = pid) ∧
  (∀ (c : Fin 64) (x : Desc) (env : Env) (e : Entry) (s : State), dispatches (.loadLayout c x env) e s →
    let l := parseLayout ((entered s e).readOr env (x.op 0x10 8) (x.op 0x18 4))
    faultWaits s.dev l = true →
    ∃ t, Machine.exec (.loadLayout c x env) s = .next t ∧
      if Config.fenceFirst s.dev.free then t.dev.layout = s.dev.layout ∧ t.dev.plots = s.dev.plots ∧
        ∃ j ∈ t.dev.jobs, j.id = s.dev.nextJob ∧ j.status = stCoreFenced ∧ j.ended = true
      else t.dev.layout = some l ∧ t.dev.deviceId = l.deviceId) ∧
  (∀ (j : Job) (d : Dev) (p : Plot), d.plot (j.desc.op 0x1C 2) = some p →
    let g := parseGrove (d.readOr j.env (j.desc.op 0x10 8) (j.desc.op 0x18 4))
    let t := startLoadGrove j d
    (bit (j.desc.op 0x1E 2) 1 = true → t = { d with jobs := t.jobs }) ∧
    (bit (j.desc.op 0x1E 2) 1 = false → t = { d with jobs := t.jobs, cores := t.cores, plots := t.plots } ∧
      ∃ q, t.plot (j.desc.op 0x1C 2) = some q ∧ q.replay = p.replay ∧
        (bit (j.desc.op 0x1E 2) 0 = false → q.shadowGrove = some g ∧ q.activeGrove = p.activeGrove ∧
          ∀ n, (t.core n).activePair = (d.core n).activePair) ∧
        (bit (j.desc.op 0x1E 2) 0 = true → q.activeGrove = some g ∧ q.shadowGrove = p.activeGrove))) ∧
  (∀ (c : Fin 64) (x : Desc) (env : Env) (e : Entry) (p : Plot) (s : State), dispatches (.evictGrove c x env) e s →
    s.dev.plot (x.op 0x10 2) = some p →
    ∃ t q, Machine.exec (.evictGrove c x env) s = .next t ∧ t.mc = s.mc ∧ t.pending = s.pending ∧ t.dev.mem = s.dev.mem ∧
      t.dev.plot (x.op 0x10 2) = some q ∧ q.shadowGrove = (if bit (x.op 0x12 1) 0 then none else p.shadowGrove) ∧
      q.activeGrove = (if bit (x.op 0x12 1) 1 then none else p.activeGrove) ∧
      (∀ n ∈ p.cores, (bit (x.op 0x12 1) 0 = true → (t.dev.core n).shadowPair = none) ∧
        (bit (x.op 0x12 1) 1 = true → (t.dev.core n).activePair = none)) ∧ ∀ n, n ∉ p.cores → t.dev.core n = s.dev.core n) ∧
  (∀ (c : Fin 64) (x : Desc) (env : Env) (e : Entry) (s : State), dispatches (.tableSync c x env) e s → codeMet env = none →
    ∃ t, Machine.exec (.tableSync c x env) s = .next t ∧
      t = { s with dev := { s.dev with host := { s.dev.host with atc := t.dev.host.atc }, chans := t.dev.chans, jobs := t.dev.jobs, nextJob := s.dev.nextJob + 1, caches := t.dev.caches,
                                       ports := t.dev.ports, out := t.dev.out, nextTag := t.dev.nextTag,
                                       fecProgress := s.dev.fecProgress + 1 } } ∧
      (x.op 0x10 8 = 0 → ∀ k, k < 4 → (t.dev.cache k).rows = []) ∧
      ∀ k, (∀ r ∈ (t.dev.cache k).rows, r ∈ (s.dev.cache k).rows) ∧ (t.dev.cache k).hits = (s.dev.cache k).hits ∧
        (t.dev.cache k).misses = (s.dev.cache k).misses) ∧
  (∀ (i : Instr) (e : Entry) (s : State), dispatches i e s →
    e.desc.opcode ∈ [0x30, 0x31, 0x32, 0x33, 0x40, 0x41, 0x50, 0x51, 0x53, 0x54, 0x55] →
    ∃ t, Machine.exec i s = .next t ∧ t.mc = s.mc ∧ t.pending = s.pending ∧ t.dev.plots = s.dev.plots ∧
      t.dev.layout = s.dev.layout ∧ t.dev.deviceId = s.dev.deviceId ∧ t.dev.graphs = s.dev.graphs ∧ t.dev.events = s.dev.events ∧
      ∃ j ∈ t.dev.jobs, j.id = s.dev.nextJob ∧ j.chan = e.chan ∧ j.seq = (s.dev.chan e.chan).seqNext.toNat)

/-- A COPY between two ranges of this device's memory on an engine with nothing else in progress (R397, R402): the destination then holds what the source held, no other
byte of memory changes, and the descriptor ends with the bytes it moved. -/
def Obligations.CopyMovesBytes : Prop :=
  ∀ (c : Fin 64) (x : Desc) (env : Env) (e : Entry) (s : State), dispatches (.copy c x env) e s → env.ecc = [] →
    x.srcHost = false → x.dstHost = false → addrDevice (x.op 0x10 8) = s.dev.deviceId → addrDevice (x.op 0x18 8) = s.dev.deviceId →
    (x.op 0x10 8 = x.op 0x18 8 ∨ x.op 0x10 8 + x.copyBytes ≤ x.op 0x18 8 ∨ x.op 0x18 8 + x.copyBytes ≤ x.op 0x10 8) →
    (∀ i, i < x.copyBytes → plainMem (addrLocal (x.op 0x10 8) + i) = true) → (∀ j ∈ s.dev.jobs, j.engine = none) →
    ∃ t, Machine.exec (.copy c x env) s = .next t ∧ t.mc = s.mc ∧ t.pending = s.pending ∧
      (∀ i, i < x.copyBytes → t.dev.localByte (addrLocal (x.op 0x18 8) + i) = s.dev.localByte (addrLocal (x.op 0x10 8) + i)) ∧
      (∀ o, plainMem o = true → o < addrLocal (x.op 0x18 8) ∨ addrLocal (x.op 0x18 8) + x.copyBytes ≤ o →
        t.dev.localByte o = s.dev.localByte o) ∧
      t.dev.cores = s.dev.cores ∧ t.dev.plots = s.dev.plots ∧ t.dev.events = s.dev.events ∧ t.dev.graphs = s.dev.graphs ∧
      ∃ j ∈ t.dev.jobs, j.id = s.dev.nextJob ∧ j.phase = .done ∧ j.status = 0 ∧ j.detail0 = x.copyBytes

/-! ### Turns, stale entries, waits, chains and completions -/

/-- A turn of the dispatch sequencer (R351, R378): it opens for the first channel with work in cyclic order after the last one, with
SLICE less what the channel owes; a fetch in it does what the row of its descriptor does and costs one credit; a fetch that
fails is counted and ends the turn; with no channel to serve nothing but the turn changes.
STALE_COMMAND (R351): the last fetch that REFETCH_LIMIT allows fails too; the entry is taken as one with status STALE_COMMAND and
USER_TAG 0, the channel halts, and nothing outside the channel, the list of descriptors and the translation cache changes.
Where the spec leaves a point open the model's choice shows: log entry 29. -/
def Obligations.TurnsAndStaleEntries : Prop :=
  ((∀ (k : Nat) (s : State), s.live = true → s.dev.inTurn = false → k < 64 →
     (∀ i, i < k → eligible s.dev ((s.dev.rrChan + 1 + i) % 64) = false) →
     let c := (s.dev.rrChan + 1 + k) % 64
     let slice := max (s.dev.chan c).slice.toNat 1
     eligible s.dev c = true → (s.dev.chan c).debt.toNat < slice →
     Machine.exec (.dispatchTurn []) s = .next (withDev s { s.dev.updChan c (fun ch =>
       { ch with debt := 0, left := BitVec.ofNat 16 (slice - (s.dev.chan c).debt.toNat) }) with rrChan := c, inTurn := true })) ∧
   (∀ (i : Instr) (e : Entry) (b : Bytes) (s u : State), dispatches i e s → s.dev.inTurn = true → s.dev.rrChan = e.chan →
     (s.dev.chan e.chan).left ≠ 0 → fetchOk (s.dev.chan e.chan) (some b) = true → Desc.ofBytes b = e.desc →
     Machine.exec i s = .next u →
     let d := u.dev
     Machine.exec (.dispatchTurn [⟨some b, e.env⟩]) s =
       .next (withDev s { d with inTurn := d.inTurn && eligible d d.rrChan && (d.chan d.rrChan).left != 0 })) ∧
   (∀ (f : Fetch) (s : State), takes s s.dev.rrChan = true → s.dev.inTurn = true → (s.dev.chan s.dev.rrChan).left ≠ 0 →
     fetchOk (s.dev.chan s.dev.rrChan) f.entry = false →
     (s.dev.chan s.dev.rrChan).refetches < (s.dev.chan s.dev.rrChan).refetchLimit.toNat →
     ∃ t, Machine.exec (.dispatchTurn [f]) s = .next t ∧
       t = { s with dev := { s.dev with host := { s.dev.host with atc := t.dev.host.atc }, chans := t.dev.chans, inTurn := false } } ∧
       t.dev.chan s.dev.rrChan = { (s.dev.chan s.dev.rrChan).event 1 with refetches := (s.dev.chan s.dev.rrChan).refetches + 1 } ∧
       ∀ k, k ≠ s.dev.rrChan → t.dev.chan k = s.dev.chan k) ∧
   (∀ (fs : List Fetch) (s : State), s.live = true → s.dev.inTurn = false → (∀ c, c < 64 → eligible s.dev c = false) →
     Machine.exec (.dispatchTurn fs) s = .next s)) ∧
  (∀ (c : Fin 64) (entry : Option Bytes) (s : State), takes s c.val = true → fetchOk (s.dev.chan c.val) entry = false →
     (s.dev.chan c.val).refetchLimit.toNat ≤ (s.dev.chan c.val).refetches →
     let ch := s.dev.chan c.val
     ∃ t, Machine.exec (.staleCommand c entry) s = .next t ∧
       t = { s with dev := { s.dev with host := { s.dev.host with atc := t.dev.host.atc }, chans := t.dev.chans, jobs := t.dev.jobs, nextJob := s.dev.nextJob + 1,
                                        fecProgress := s.dev.fecProgress + 1 } } ∧
       (∀ k, k ≠ c.val → t.dev.chan k = s.dev.chan k) ∧
       t.dev.chan c.val = { ((((chargeLink s.dev c.val).chan c.val).event 1).pass).event 0 with state := .halted } ∧
       ∃ j ∈ t.dev.jobs, j.id = s.dev.nextJob ∧ j.chan = c.val ∧ j.seq = ch.seqNext.toNat ∧ j.status = stStaleCommand ∧
         j.chainStatus = stStaleCommand ∧ j.userTag = 0 ∧ j.complete = true)

/-- A chain's next link (R357, R358, R378): a link that keeps R347, that its engine can run and that passes the checks takes the
descriptor's place at its engine; one that does not ends the chain with its status, CHAIN_INVALID or that of the failed check, and
counts as a rejection of its channel (R385). Each costs one credit.
Where the spec leaves a point open the model's choice shows: log entry 30. -/
def Obligations.ChainLinks : Prop :=
  ∀ (id : Nat) (env : Env) (s : State) (j : Job) (b : Bytes), s.live = true → s.dev.job id = some j → j.linkDue = true →
    linkHeld s.dev j = false → flushDue s.dev j = false → s.dev.addrOk .read false j.desc.next.toNat 64 = true →
    s.dev.readG env j.desc.next.toNat 64 = .ok b →
    let asked := s.dev.askRead j.desc.next.toNat 64
    let d := chargeLink asked.fecStep j.chan
    (linkOk s.dev j b = false →
      Machine.exec (.chainLinkStart id env) s = .next (withDev s (settle s.mc (rejectLink asked j.chan j.id stChainInvalid)))) ∧
    (∀ st, linkOk s.dev j b = true →
      descCheck s.mc asked j.chan (Desc.ofBytes b) env = .reject st →
      Machine.exec (.chainLinkStart id env) s = .next (withDev s (settle s.mc (rejectLink asked j.chan j.id st)))) ∧
    (linkOk s.dev j b = true →
      descCheck s.mc asked j.chan (Desc.ofBytes b) env = .go →
      let k := (enterLink d j (Desc.ofBytes b) env).2
      Machine.exec (.chainLinkStart id env) s =
        .next (withDev s (settle s.mc (startNew s.mc k (enterLink d j (Desc.ofBytes b) env).1))) ∧
      k.desc = Desc.ofBytes b ∧ k.id = j.id ∧ k.seq = j.seq ∧ k.links = j.links ∧ k.chainStatus = j.chainStatus ∧ k.phase = .active) ∧
    ∀ st, (rejectLink asked j.chan j.id st).job id = some { j with
        desc := { j.desc with next := 0 }, chainStatus := if j.chainStatus = 0 then st else j.chainStatus } ∧
      ((rejectLink asked j.chan j.id st).chan j.chan).status = setBit (s.dev.chan j.chan).status 0 ∧
      (rejectLink asked j.chan j.id st).fecProgress = s.dev.fecProgress + 1

/-- The completion of a ring entry (R388, R394): a descriptor whose last link has ended leaves the dispatched ones, its channel
retires one, its record is delivered and its signals follow; a node of a launch gives its status to the launch and writes no
record. A flush in force comes first, a zero-length read for each traffic class with writes (R400).
Where a completion record goes (R390, R391, R394, R404, R408): into the next slot of the completion ring with its CRC, PHASE
and FROM_STORE, or into the undelivered-completion store while the channel's completions are blocked or a hold keeps host writes. -/
def Obligations.CompletionsWritten : Prop :=
  (∀ (id : Nat) (env : Env) (s : State) (j : Job), s.live = true → (settledEnd s.dev id).job id = some j →
     (settledEnd s.dev id).jobComplete j = true → completionHeld (settledEnd s.dev id) j = false →
     flushDue (settledEnd s.dev id) j = false → storeFull (settledEnd s.dev id) j = false →
     let d := settledEnd s.dev id
     (j.launch = none →
       Machine.exec (.descriptorComplete id env) s = .next (withDev s (leaveDebug (settle s.mc (completeEntry d env j)))) ∧
       (∀ k ∈ (completeEntry d env j).jobs, k.id ≠ j.id) ∧
       ((completeEntry d env j).chan j.chan).progress = (d.chan j.chan).progress + 1 ∧
       (completeEntry d env j).mem = d.mem ∧ (completeEntry d env j).cores = d.cores) ∧
     (∀ l, j.launch = some l →
       Machine.exec (.descriptorComplete id env) s = .next (withDev s (leaveDebug (settle s.mc (completeNode d env j l)))) ∧
       (∀ k ∈ (completeNode d env j l).jobs, k.id ≠ j.id) ∧
       ((completeNode d env j l).chan j.chan).progress = (d.chan j.chan).progress ∧
       ((completeNode d env j l).chan j.chan).cqWritten = (d.chan j.chan).cqWritten)) ∧
  (∀ (d : Dev) (env : Env) (j : Job), flushDue d j = true → d.job j.id = some j → env.deny = [] →
     (flushStep d env j).out = d.out ++ (flushAddrs d j).map (fun p => .zeroRead p.2 p.1) ∧
     (flushStep d env j).job j.id = some { j with flushDone := true, flushed := true }) ∧
  ((∀ (d : Dev) (env : Env) (c seq : Nat) (fields : Bytes), d.fatal = false → d.host.held = false → (d.chan c).blocked = false →
     (d.chan c).cqLog2 ≠ 0 → (d.chan c).cwAddr = 0 → hostDenied d env (d.chan c).slotAddr 32 = false →
     let t := deliverRecord d env c seq fields
     t.out = d.out ++ [.host (.write (d.chan c).slotAddr (recordBytes (d.chan c) fields false))] ∧ t.host.ucs = d.host.ucs ∧
     (t.chan c).cqWritten = (d.chan c).cqWritten + 1 ∧ ∀ k, k ≠ c → t.chan k = d.chan k) ∧
   (∀ (d : Dev) (env : Env) (c seq : Nat) (fields : Bytes), (d.chan c).cqLog2 ≠ 0 → ((d.chan c).blocked || d.host.held) = true →
     let t := deliverRecord d env c seq fields
     t.out = d.out ∧ t.host.ucs = d.host.ucs ++ [⟨c, seq, fields, 0⟩] ∧ t.chans = d.chans) ∧
   (∀ (c : Chan) (seq tag d0 d1 rf : Nat) (st : Status) (nf : NFlags) (stored : Bool), seq < 2 ^ 64 → tag < 2 ^ 32 →
     rf < 32 → rf % 2 = 0 →
     let b := recordBytes c (recordFields seq tag st nf rf d0 d1) stored
     b.length = 32 ∧ field b 0 8 = seq ∧ field b 8 4 = tag ∧ field b 12 2 = st.toNat ∧ field b 14 1 = nf.toNat ∧
     field b 15 1 = rf + b2n (!bit c.cqWritten.toNat c.cqLog2.toNat) + 32 * b2n stored ∧
     field b 28 4 = crc32c (b.take 28)))

/-- The completion word (R393): it never falls, it covers exactly the sequence numbers that completed without a gap, and what lies
past a gap is kept for later. -/
def Obligations.CompletionWord : Prop :=
  ∀ (c : Chan) (seq : Nat), c.cw.toNat + c.cwDone.length + 2 < 2 ^ 64 →
    let done := c.cwDone ++ [seq]
    let w := (c.noteDone seq).cw.toNat
    c.cw.toNat ≤ w ∧ (∀ n, c.cw.toNat < n → n ≤ w → n ∈ done) ∧ w + 1 ∉ done ∧
    (∀ n, n ∈ (c.noteDone seq).cwDone ↔ n ∈ done ∧ ¬(c.cw.toNat < n ∧ n ≤ w)) ∧
    c.noteDone seq = { c with cw := (c.noteDone seq).cw, cwDone := (c.noteDone seq).cwDone }

/-! ### Channel control and doorbells -/

/-- ENABLE, DISABLE, HALT and RESUME where R382 lets them act (R349, R382, R383): the channel's next state, and nothing beyond the
channel.
A control write that R382 does not let act is refused: CTRL_REFUSED is set and counted, and nothing else changes (R382, R385). -/
def Obligations.ChannelControl : Prop :=
  (∀ (c : Fin 64) (s : State), s.live = true →
     let ch := s.dev.chan c.val
     let becomes (f : Chan → Chan) : Host.Outcome State Fault Refusal := .next (withDev s (s.dev.updChan c.val f))
     (ch.state = .disabled → ch.sqBase ≠ 0 → 4 ≤ ch.sqLog2.toNat → ch.sqLog2.toNat ≤ 16 →
       Machine.exec (.enable c) s = becomes fun ch => { ch with
         head := 0, tail := 0, phase := true, refetches := 0, wait := .none, before := .running
         state := if ch.blocked then .blocked else .running }) ∧
     (ch.state = .running ∨ ch.state = .halted → ch.held = none → ch.launch = none →
       (∀ j ∈ s.dev.jobs, j.chan = c.val → s.dev.jobComplete j = true) → (∀ f ∈ s.dev.taskFeeds, f.chan ≠ c.val) →
       Machine.exec (.disable c) s = becomes fun ch => { ch with state := .disabled, armed := [] }) ∧
     (ch.state = .running ∨ ch.state = .waiting → Machine.exec (.halt c) s = becomes fun ch => { ch with state := .halted }) ∧
     (ch.state = .halted → ch.held = none → Machine.exec (.resume c) s = becomes fun ch => { ch with
         refetches := 0, wait := .none, before := .running, state := if ch.blocked then .blocked else .running }) ∧
     (∀ h, ch.state = .halted → ch.held = some h → waitOver s.dev c.val h = false → ch.blocked = false →
       Machine.exec (.resume c) s = becomes fun ch => { ch with
         refetches := 0, wait := h.wait, before := .waiting, state := .waiting })) ∧
  (∀ (c : Fin 64) (env : Env) (s : State), s.live = true →
     let ch := s.dev.chan c.val
     let refused : Host.Outcome State Fault Refusal := .next (withDev s (s.dev.updChan c.val fun ch =>
       { ch with status := setBit ch.status 3, cnt := laneBump ch.cnt 3 }))
     (ch.state ≠ .disabled ∨ ch.sqBase = 0 ∨ ch.sqLog2.toNat < 4 ∨ 16 < ch.sqLog2.toNat →
       Machine.exec (.enable c) s = refused) ∧
     ((ch.state ≠ .running ∧ ch.state ≠ .halted) ∨ ch.held ≠ none ∨ ch.launch ≠ none ∨
         (∃ j ∈ s.dev.jobs, j.chan = c.val ∧ s.dev.jobComplete j = false) ∨ (∃ f ∈ s.dev.taskFeeds, f.chan = c.val) →
       Machine.exec (.disable c) s = refused) ∧
     (ch.state ≠ .running → ch.state ≠ .waiting → Machine.exec (.halt c) s = refused) ∧
     (ch.state ≠ .halted → Machine.exec (.resume c) s = refused) ∧
     (ch.state ≠ .blocked → Machine.exec (.resumeCompletion c env) s = refused))

/-- The doorbells of the submission, completion and result rings (R350, R375, R389): a value that the ring can take moves the ring's
tail or consumed count; any other is discarded and counted. Nothing beyond the channel changes.
Record rings (R375, R406): a doorbell that the ring can take moves the tail, and a failed read is then made again; a read takes the
next entry's frames into the bound task's queue; a read that fails is reported, and waits for the next doorbell.
Where the spec leaves a point open the model's choice shows: log entry 14. -/
def Obligations.DoorbellsAndRecordRings : Prop :=
  (∀ (c : Fin 64) (v : BitVec 32) (s : State), s.live = true →
     let ch := s.dev.chan c.val
     let t := bits v.toNat 0 16
     let becomes (f : Chan → Chan) : Host.Outcome State Fault Refusal := .next (withDev s (s.dev.updChan c.val f))
     (bits v.toNat 24 8 = c.val → ch.state ≠ .disabled → tailBad ch.sqLog2.toNat ch.head ch.tail t = false →
       Machine.exec (.sqDoorbell c v) s = becomes fun ch => { ch with tail := t }) ∧
     (bits v.toNat 24 8 ≠ c.val ∨ ch.state = .disabled ∨ tailBad ch.sqLog2.toNat ch.head ch.tail t = true →
       Machine.exec (.sqDoorbell c v) s = becomes fun ch => { ch with status := setBit ch.status 2, cnt := laneBump ch.cnt 2 }) ∧
     (let n := (t + 65536 - ch.cqConsumed.toNat % 65536) % 65536
      Machine.exec (.cqDoorbell c v) s = becomes fun ch =>
        if n ≤ (ch.cqWritten - ch.cqConsumed).toNat then { ch with cqConsumed := ch.cqConsumed + BitVec.ofNat 64 n }
        else { ch with hostCnt := laneBump ch.hostCnt 2 }) ∧
     (let n := (t + 65536 - ch.outConsumed.toNat % 65536) % 65536
      Machine.exec (.resultRingDoorbell c v) s = becomes fun ch =>
        if n ≤ (ch.outTail - ch.outConsumed).toNat then { ch with outConsumed := ch.outConsumed + BitVec.ofNat 64 n }
        else { ch with status := setBit ch.status 2, cnt := laneBump ch.cnt 2 }) ∧
     (∀ n head tail new : Nat, tailBad n head tail new = true ↔ 2 ^ n ≤ new ∨ (new + 2 ^ n - head) % 2 ^ n < (tail + 2 ^ n - head) % 2 ^ n)) ∧
  (∀ (c : Fin 64) (v : BitVec 32) (s : State), s.live = true →
     let ch := s.dev.chan c.val
     let t := bits v.toNat 0 16
     let n := 2 ^ ch.inLog2.toNat
     (∀ entry, bits v.toNat 24 8 = c.val → ch.state ≠ .disabled → ch.inLog2 ≠ 0 → ch.inRetry = false →
       tailBad ch.inLog2.toNat ch.inHead.toNat ch.inTail.toNat t = false →
       Machine.exec (.recordRingDoorbell c v entry) s = .next (withDev s (s.dev.updChan c.val fun ch =>
         { ch with inTail := BitVec.ofNat 16 t }))) ∧
     (∀ entry, bits v.toNat 24 8 ≠ c.val ∨ ch.state = .disabled ∨ ch.inLog2 = 0 ∨
       tailBad ch.inLog2.toNat ch.inHead.toNat ch.inTail.toNat t = true →
       Machine.exec (.recordRingDoorbell c v entry) s = .next (withDev s (s.dev.updChan c.val fun ch =>
         { ch with status := setBit ch.status 2, cnt := laneBump ch.cnt 2 }))) ∧
     (∀ (f : Feed) (b : Bytes), s.dev.ringFeed c.val = some f → ch.inRetry = false → f.stopping = none → s.dev.host.held = false →
       f.queue.length < (ch.inTail.toNat + n - ch.inHead.toNat) % n → 16 ≤ (entryFrames ch b).length →
       ∃ u, Machine.exec (.recordRingRead c (some b)) s = .next u ∧
         u = { s with dev := { s.dev with feeds := u.dev.feeds, chans := u.dev.chans } } ∧
         (∀ k, u.dev.chan k = s.dev.chan k) ∧
         u.dev.feeds = s.dev.feeds.map fun x => if x.src = f.src then { x with queue := x.queue ++ [(entryFrames ch b, 1)] } else x) ∧
     (∀ f : Feed, s.dev.ringFeed c.val = some f → ch.inRetry = false → f.stopping = none → s.dev.host.held = false →
       f.queue.length < (ch.inTail.toNat + n - ch.inHead.toNat) % n →
       ∃ u, Machine.exec (.recordRingRead c none) s = .next u ∧ u.dev.feeds = s.dev.feeds ∧
         u.dev.chan c.val = { ch with inRetry := true, hostCnt := laneBump ch.hostCnt 0 } ∧
         (∀ k, k ≠ c.val → u.dev.chan k = s.dev.chan k) ∧ u.dev.err.seqNext = s.dev.err.seqNext + 1))

/-! ### The host link, resets and errors -/

/-- A link or function reset with a hold armed (R382, R403, R409): the hold begins, and is counted unless one is in force; every
channel that runs, waits or is halted stands DETACHED; the work and the memory stand; the PCIe configuration is reset. Without a hold it
is a device reset.
REATTACH (R405, R409, R411, R412): the armed token with Bus Master Enable set ends the hold, no channel stands DETACHED any
more, and the held host writes and the withheld results are released; a wrong token, or none armed, is counted and the hold goes
on. Queued work then goes on where it can.
Where the spec leaves a point open the model's choice shows: log entries 24 and 40. -/
def Obligations.HoldAndReattachment : Prop :=
  ((∀ (flr : Bool) (failed : List Nat) (s : State), s.mc.pwr.state = .on → s.dev.host.holdOnReset = true → s.dev.host.token ≠ 0 →
     s.dev.fatal = false →
     ∃ t, Machine.exec (.hostLinkDown flr failed) s = .next t ∧
       t = { s with dev := { s.dev with host := t.dev.host, chans := t.dev.chans, debugOn := false } } ∧
       t.dev.host = { s.dev.host with
         held := true, holds := if s.dev.host.held then s.dev.host.holds else s.dev.host.holds + 1, ats := false, busMaster := false,
         masked := BitVec.allOnes 128, msixTable := [], msixPending := [], atc := [], bar4Log2 := 30 } ∧
       (∀ c, t.dev.chan c = (if (s.dev.chan c).state = .running ∨ (s.dev.chan c).state = .waiting ∨ (s.dev.chan c).state = .halted then
         { s.dev.chan c with state := .detached, wait := .none } else s.dev.chan c))) ∧
   (∀ (flr : Bool) (failed : List Nat) (s : State),
     s.dev.host.holdOnReset = false ∨ s.dev.host.token = 0 ∨ s.dev.fatal = true →
     Machine.exec (.hostLinkDown flr failed) s = Machine.exec (.deviceReset failed) s) ∧
   (∀ (failed : List Nat) (s : State),
     (s.live = true → s.dev.host.held = true → Machine.exec (.discard failed) s = Machine.exec (.deviceReset failed) s) ∧
     (s.dev.host.held = false → Machine.exec (.discard failed) s = .next s))) ∧
  ((∀ (v : BitVec 64) (env : Env) (s : State), s.live = true → s.dev.host.held = true → bit v.toNat 32 = true →
     bit v.toNat 34 = false → v.toNat % 2 ^ 32 = s.dev.host.token.toNat → s.dev.host.token ≠ 0 →
     ∃ d, Machine.exec (.reattach v true env) s = .next (withDev s (settle s.mc d)) ∧ d.host.held = false ∧
       d.host.busMaster = true ∧ d.host.heldWrites = [] ∧ (∀ c, (d.chan c).state ≠ .detached) ∧
       (env.deny = [] → ∀ c, (s.dev.chan c).state ≠ .detached → (d.chan c).state = (s.dev.chan c).state) ∧
       d.mem = s.dev.mem ∧ d.host.token = s.dev.host.token ∧
       ((∀ f ∈ s.dev.feeds, f.dstKind ≠ 1) → d.cores = s.dev.cores)) ∧
   (∀ (v : BitVec 64) (bme : Bool) (env : Env) (s : State), s.live = true → s.dev.host.held = true → bit v.toNat 32 = true →
     bit v.toNat 34 = false → v.toNat % 2 ^ 32 ≠ s.dev.host.token.toNat ∨ s.dev.host.token = 0 ∨ bme = false →
     Machine.exec (.reattach v bme env) s = .next (withDev s (settle s.mc { s.dev with
       host := { s.dev.host with busMaster := bme, refused := s.dev.host.refused + 1 } }))) ∧
   (∀ (v : BitVec 64) (bme : Bool) (env : Env) (s : State), s.live = true → s.dev.host.held = true → bit v.toNat 34 = true →
     Machine.exec (.reattach v bme env) s = Machine.exec (.deviceReset []) s))

/-- A device reset (R437, R441, R442): the digital part stands at its reset values, memory as if never written, but for the flash; cores
that fail self-test or were fenced three times are retired; MC flash, with keys and fence counts, stands; it ends a fatal state.
Where the spec leaves a point open the model's choice shows: log entries 2 and 39. -/
def Obligations.DeviceResets : Prop :=
  ∀ (failed : List Nat) (s : State), s.mc.pwr.state = .on →
    ∃ t, Machine.exec (.deviceReset failed) s = .next t ∧ t.pending = s.pending ∧
      t.mc = { s.mc with pwr := t.mc.pwr, cool := t.mc.cool } ∧ t.mc.pwr.state = .on ∧ t.mc.pwr.request = 0x14 ∧
      t.mc.pwr.limitHost = 0xC80 ∧ t.mc.pwr.limitRack = 0xC80 ∧ t.mc.pwr.status = 0 ∧ t.mc.cool.status = 0 ∧
      (∃ ch cs er ho, t.dev = { deviceId := s.dev.deviceId, flash := s.dev.flash, free := s.dev.free, out := ch, cores := cs,
                                err := er, host := ho }) ∧
      t.dev.err.fatalState = (if s.mc.testMode then 1 else 0) ∧ t.dev.host.held = false ∧ t.dev.host.ucs = [] ∧
      ∀ n, if n < 256 ∧ (n ∈ failed ∨ 3 ≤ Tbl.get 0 n s.mc.fences) then
          (t.dev.core n).fenced = true ∧ (t.dev.core n).retired = true ∧ (t.dev.core n).cause = stCoreFenced
        else t.dev.core n = {}

/-- COMPLETION_BLOCKED of each kind (R404, R408): a record is kept in the store, its descriptor completed all the same, or, where the
store is full, its completion is kept; a word, a result slot or a producer word leaves the channel alone blocked, from RUNNING and
WAITING at once, its first failure captured.
RESUME_COMPLETION (R382, R405): where no host write fails, the channel's stored records go to its completion ring, in their order,
and the channel goes back to the state it was blocked in; where the first record fails again, the channel stays blocked, with a new
error record.
Where the spec leaves a point open the model's choice shows: log entry 40. -/
def Obligations.CompletionsBlockedAndResumed : Prop :=
  ((∀ (c : Fin 64) (id : Nat) (j : Job) (s : State), s.live = true → s.dev.host.ats = true → s.dev.host.held = false →
     (s.dev.chan c.val).state ≠ .disabled → (s.dev.chan c.val).slotAddr ≠ 0 → (s.dev.chan c.val).cqLog2 ≠ 0 →
     s.dev.job id = some j → j.chan = c.val → j.launch = none → s.dev.jobComplete j = true → completionHeld s.dev j = false →
     flushDue s.dev j = false → storeFull s.dev j = false →
     ∃ t fields, Machine.exec (.completionBlocked c 0 id) s = .next t ∧
       t.dev.host.ucs = s.dev.host.ucs ++ [⟨c.val, j.seq, fields, 0⟩] ∧ (t.dev.chan c.val).blocked = true ∧
       (t.dev.chan c.val).progress = (s.dev.chan c.val).progress + 1 ∧ (∀ k ∈ t.dev.jobs, k.id ≠ id) ∧
       t.dev.mem = s.dev.mem ∧ t.dev.cores = s.dev.cores) ∧
   (∀ (c : Fin 64) (id : Nat) (j : Job) (s : State), s.live = true → s.dev.host.ats = true → s.dev.host.held = false →
     (s.dev.chan c.val).state ≠ .disabled → (s.dev.chan c.val).slotAddr ≠ 0 → (s.dev.chan c.val).blocked = false →
     s.dev.job id = some j → j.chan = c.val → s.dev.jobComplete j = true → flushDue s.dev j = false → storeFull s.dev j = true →
     Machine.exec (.completionBlocked c 0 id) s =
       .next (withDev s (blockChannel s.dev c.val 0 (s.dev.chan c.val).slotAddr j.seq))) ∧
   (∀ (c : Fin 64) (kind : Fin 4) (id : Nat) (s : State), s.live = true → s.dev.host.ats = true → s.dev.host.held = false →
     (s.dev.chan c.val).state ≠ .disabled → kind ≠ 0 → (s.dev.chan c.val).blockAddrOf kind.val ≠ 0 →
     kind = 1 ∨ (s.dev.chan c.val).outLog2 ≠ 0 →
     Machine.exec (.completionBlocked c kind id) s =
       .next (withDev s (blockChannel s.dev c.val kind.val ((s.dev.chan c.val).blockAddrOf kind.val) 0))) ∧
   (∀ (c : Fin 64) (kind : Fin 4) (id : Nat) (s : State),
     s.dev.host.ats = false ∨ s.dev.host.held = true ∨ (s.dev.chan c.val).state = .disabled ∨
       (s.dev.chan c.val).blockAddrOf kind.val = 0 → Machine.exec (.completionBlocked c kind id) s = .next s) ∧
   (∀ (d : Dev) (c kind addr seq : Nat),
     let t := blockChannel d c kind addr seq
     let ch := d.chan c
     t = { d with chans := t.chans, err := t.err, host := t.host, out := t.out } ∧ (∀ k, k ≠ c → t.chan k = d.chan k) ∧
     t.chan c = { ch with
       blocked := true
       blockKind := if ch.blocked then ch.blockKind else kind
       blockAddr := if ch.blocked then ch.blockAddr else BitVec.ofNat 64 addr
       before := if ch.state = .running ∨ ch.state = .waiting then ch.state else ch.before
       state := if ch.state = .running ∨ ch.state = .waiting then .blocked else ch.state } ∧
     t.err.seqNext = d.err.seqNext + 1 ∧
     (d.err.queue.length < 64 → ∃ r, t.err.queue = d.err.queue ++ [r] ∧ r.status = stCompletionBlocked ∧ r.chan = c ∧
       r.address = addr ∧ r.addrHost = true))) ∧
  (∀ (c : Fin 64) (env : Env) (s : State), s.live = true → (s.dev.chan c.val).state = .blocked → s.dev.host.held = false →
     (s.dev.chan c.val).cqLog2 ≠ 0 → env.deny = [] →
     ∃ t, Machine.exec (.resumeCompletion c env) s = .next t ∧
       ((∀ f ∈ s.dev.feeds, f.chan = c.val → f.dstKind ≠ 1) → t = { s with dev := { s.dev with
         chans := t.dev.chans, host := t.dev.host, out := t.dev.out } }) ∧ t.dev.mem = s.dev.mem ∧
       (t.dev.chan c.val).state = (s.dev.chan c.val).before ∧ (t.dev.chan c.val).blocked = false ∧
       (∀ r ∈ t.dev.host.ucs, r.chan ≠ c.val) ∧
       (t.dev.chan c.val).cqWritten = (s.dev.chan c.val).cqWritten +
         BitVec.ofNat 64 ((s.dev.host.ucs.filter fun r => r.chan = c.val).length) ∧
       ∀ k, k ≠ c.val → t.dev.chan k = s.dev.chan k) ∧
  (∀ (c : Fin 64) (env : Env) (s : State), s.live = true → (s.dev.chan c.val).state = .blocked → s.dev.host.held = false →
     (∃ r ∈ s.dev.host.ucs, r.chan = c.val) → hostDenied s.dev env (s.dev.chan c.val).slotAddr 32 = true →
     Machine.exec (.resumeCompletion c env) s =
       .next (withDev s (blockAgain s.dev c.val 0 (s.dev.chan c.val).slotAddr)))

/-- A host access on a data address fails, or no completion comes in time (R39, R403, R406): the copy in progress ends with
HOST_ACCESS_FAULT and ends its chain, counted in its channel; nothing else changes.
CE_FLUSH, masked vectors and address translation (R395, R400, R402, R403, R409): a flush reads the last host address of each traffic
class that the engine used, and a hold keeps it waiting; an unmasked vector sends the messages it withheld; an invalidation drops the
cached pages of its range and is answered by its completion; ATS switched off empties the cache. -/
def Obligations.HostAccesses : Prop :=
  (∀ (c : Fin 64) (id : Nat) (j : Job) (s : State), s.live = true → s.dev.job id = some j → j.chan = c.val → j.engine ≠ none →
     j.desc.srcHost = true ∨ j.desc.dstHost = true → s.dev.jobComplete j = false → flushDue s.dev j = false →
     ∀ i ∈ [Instr.hostAccessFault c (some id), .pcieCompletionTimeout c (some id)],
       Machine.exec i s = .next (withDev s ((s.dev.updChan c.val fun ch =>
         { ch with hostCnt := laneBump ch.hostCnt 0 }).abortJob id stHostAccessFault)) ∧
       ∀ t, Machine.exec i s = .next t → ∃ k, t.dev.job id = some k ∧ k.status = stHostAccessFault ∧ k.complete = true) ∧
  ((∀ (e : Fin 20) (s : State), s.mc.pwr.state = .on → s.dev.host.held = false →
     ∃ t, Machine.exec (.ceFlush e) s = .next t ∧
       t = { s with dev := { s.dev with host := { s.dev.host with atc := t.dev.host.atc }, out := t.dev.out } } ∧
       t.dev.out = s.dev.out ++ (s.dev.engine e.val).flushAddrs.map (fun p => .zeroRead p.2 p.1) ++
         [.readValue (toLe 8 (s.dev.engine e.val).flushBytes.toNat)]) ∧
   (∀ (e : Fin 20) (s : State), s.mc.pwr.state = .on → s.dev.host.held = true → s.dev.fatal = false →
     Machine.exec (.ceFlush e) s = .next (withDev s { s.dev with
       host := { s.dev.host with heldWrites := s.dev.host.heldWrites ++ [.flush e.val] } })) ∧
   (∀ (v : Fin 128) (s : State), s.live = true → s.dev.host.held = false →
     ∃ t, Machine.exec (.msixUnmask v) s = .next t ∧ t = { s with dev := { s.dev with host := t.dev.host, out := t.dev.out } } ∧
       t.dev.out = s.dev.out ++ List.replicate (Tbl.get 0 v.val s.dev.host.msixPending) (.host (s.dev.msixMsg v.val)) ∧
       t.dev.host.masked.getLsbD v.val = false ∧ Tbl.get 0 v.val t.dev.host.msixPending = 0 ∧
       ∀ k, k ≠ v.val → t.dev.host.masked.getLsbD k = s.dev.host.masked.getLsbD k ∧
         Tbl.get 0 k t.dev.host.msixPending = Tbl.get 0 k s.dev.host.msixPending) ∧
   (∀ (a : BitVec 64) (n : Nat) (s : State), s.mc.pwr.state = .on →
     ∃ t, Machine.exec (.atsInvalidate a n) s = .next t ∧
       t = { s with dev := { s.dev with host := { s.dev.host with atc := t.dev.host.atc },
                                        out := s.dev.out ++ [.invalidated a.toNat n] } } ∧
       ∀ p, p ∈ t.dev.host.atc ↔ p ∈ s.dev.host.atc ∧ ¬(overlaps (4096 * p) 4096 a.toNat n = true)) ∧
   (∀ (on : Bool) (s : State), s.mc.pwr.state = .on →
     ∃ t, Machine.exec (.atsEnable on) s = .next t ∧ t = { s with dev := { s.dev with host := t.dev.host } } ∧
       t.dev.host.ats = on ∧ (on = false → t.dev.host.atc = []) ∧ (on = true → t.dev.host.atc = s.dev.host.atc)))

/-- The error ring (R438, R440, R443): it is set up once; the oldest record that waits goes into the next slot with its PHASE, and
a message on the error vector follows; one whose write is refused is dropped and counted.
A device-fatal condition (R438, R441): the fatal state with its cause, an error record of the fault taken into the sequence, and
nothing of the device beyond the error block, the host link and what is put out changes.
Where the spec leaves a point open the model's choice shows: log entry 27. -/
def Obligations.ErrorsAndFatalState : Prop :=
  ((∀ (base : BitVec 64) (n : BitVec 5) (env : Env) (s : State), s.live = true → s.dev.err.ringLog2 = 0 → 4 ≤ n.toNat → n.toNat ≤ 16 →
     s.dev.err.queue = [] →
     Machine.exec (.errorRingConfigure base n env) s = .next (withDev s { s.dev with err := { s.dev.err with
       ringBase := BitVec.ofNat 64 (base.toNat / 4096 * 4096), ringLog2 := n } })) ∧
   (∀ (base : BitVec 64) (n : BitVec 5) (env : Env) (s : State), s.dev.err.ringLog2 ≠ 0 →
     Machine.exec (.errorRingConfigure base n env) s = .next s) ∧
   (∀ (env : Env) (r : ErrRec) (rest : List ErrRec) (s : State), s.live = true → s.dev.err.queue = r :: rest →
     s.dev.errRoom = true → s.dev.host.masked.getLsbD s.dev.host.errorVector.toNat = false →
     (hostDenied s.dev env s.dev.err.slot 64 = false →
       ∃ t, Machine.exec (.errorRecordWrite env) s = .next t ∧
         t = { s with dev := { s.dev with err := { s.dev.err with written := s.dev.err.written + 1, queue := rest },
                                          host := t.dev.host, out := t.dev.out } } ∧
         t.dev.out = s.dev.out ++ [.host (.write (s.dev.err.ringBase.toNat + 64 * (s.dev.err.written.toNat % 2 ^ s.dev.err.ringLog2.toNat))
           (r.bytes (if bit s.dev.err.written.toNat s.dev.err.ringLog2.toNat then 0 else 1))),
           .host (s.dev.msixMsg s.dev.host.errorVector.toNat)]) ∧
     (hostDenied s.dev env s.dev.err.slot 64 = true →
       Machine.exec (.errorRecordWrite env) s = .next (withDev s { s.dev with err := { s.dev.err with
         queue := rest, status := setBit s.dev.err.status 3, cnt := laneBump s.dev.err.cnt 2 } })))) ∧
  (∀ (i : Instr) (st : Status) (s : State), (i = .fecLockstep ∧ st = 0x8001) ∨ ((∃ crossing, i = .hubFatal crossing) ∧ st = 0x8002) →
     s.live = true →
     ∃ t, Machine.exec i s = .next t ∧ t = { s with dev := { s.dev with err := t.dev.err, host := t.dev.host, out := t.dev.out } } ∧
       t.dev.fatal = true ∧ t.dev.err.fatalCause = st ∧ t.dev.err.seqNext = s.dev.err.seqNext + 1 ∧ t.dev.err.queue.length ≤ 64)

/-- A scan of the rake (R421 to R424): the scan is counted; without PROGRESS_SCAN and with periodic scans off there is none; the entry of
an engine that has no work pending, or moved since the last scan, holds no count; one that stands still, neither blocked nor
waiting on the host, counts one more.
Where the spec leaves a point open the model's choice shows: log entry 38. -/
def Obligations.RakeScans : Prop :=
  (∀ (edges : List (Nat × Nat)) (s : State), s.dev.err.rakeInterval = 0 → (∀ j ∈ s.dev.jobs, j.desc.code ≠ 3) →
    Machine.exec (.rakeScan edges) s = .next s) ∧
  (∀ (edges : List (Nat × Nat)) (s : State), s.live = true → s.dev.err.rakeInterval ≠ 0 →
    (∀ i, i < engineCount → pendingOf s.dev (engineOf i) = false) → cycles edges = [] → (∀ j ∈ s.dev.jobs, j.desc.code ≠ 3) →
    ∃ t, Machine.exec (.rakeScan edges) s = .next t ∧
      t = { s with dev := { s.dev with rake := t.dev.rake, err := { s.dev.err with rakeScans := s.dev.err.rakeScans + 1 } } } ∧
      ∀ i, i < engineCount → Tbl.get {} i t.dev.rake = ⟨progressOf s.dev (engineOf i), 0, 0⟩) ∧
  (∀ (d : Dev) (edges : List (Nat × Nat)) (i : Nat),
    (pendingOf d (engineOf i) = false ∨ progressOf d (engineOf i) ≠ (Tbl.get {} i d.rake : RakeEntry).last →
      (scanEntry d edges false i).count = 0) ∧
    (pendingOf d (engineOf i) = true → progressOf d (engineOf i) = (Tbl.get {} i d.rake : RakeEntry).last →
      blockedOn d edges i = false → hostWait d (engineOf i) = false →
      (scanEntry d edges false i).count = (Tbl.get {} i d.rake : RakeEntry).count + 1) ∧
    (pendingOf d (engineOf i) = true → progressOf d (engineOf i) = (Tbl.get {} i d.rake : RakeEntry).last →
      (blockedOn d edges i || hostWait d (engineOf i)) = true →
      (scanEntry d edges false i).count = (Tbl.get {} i d.rake : RakeEntry).count))

/-! ### Registers, the BAR4 window, debug mode -/

/-- Writes to BAR0 and BAR2 (R6, R350, R370, R385, R491, R511, R513): an access of a wrong size or alignment, or to no register, is
discarded and counted; a 1 written to a W1C bit clears it; a doorbell is rung by a 4-byte write, and by no other; the bytes of a
launch constant block are stored; registers that are commands of their own act as those commands do.
Where the spec leaves a point open the model's choice shows: log entry 31. -/
def Obligations.RegisterWrites : Prop :=
  (∀ (a : BitVec 24) (n : Nat) (v : BitVec 64) (s : State), s.live = true →
    (¬(n = 8 ∧ a.toNat % 8 = 0) ∧ ¬(n = 4 ∧ a.toNat % 4 = 0)) ∨
      regRead s.mc s.dev (a.toNat / 8 * 8) = none ∧ a.toNat / 8 * 8 ≠ 0xE00040 →
    Machine.exec (.registerWrite false a n v) s =
      .next (withDev s { s.dev with badAccess := laneAdd32 s.dev.badAccess 0 1 })) ∧
  (∀ (c : Fin 64) (v : BitVec 64) (s : State), s.live = true →
    Machine.exec (.registerWrite false (BitVec.ofNat 24 (0x100038 + 0x1000 * c.val)) 8 v) s =
      .next (withDev s (s.dev.updChan c.val fun ch =>
        { ch with status := ch.status &&& ~~~(BitVec.ofNat 64 (v.toNat % 16)) }))) ∧
  (∀ (c : Fin 64) (v : BitVec 64) (s : State), s.live = true →
    Machine.exec (.registerWrite false (BitVec.ofNat 24 (0x100008 + 0x1000 * c.val)) 8 v) s =
      .next (withDev s (s.dev.updChan c.val fun ch =>
        if ch.state = .disabled ∨ ch.state = .detached then { ch with sqBase := BitVec.ofNat 64 (v.toNat / 4096 * 4096) }
        else { ch with status := setBit ch.status 3, cnt := laneBump ch.cnt 3 }))) ∧
  (∀ (c : Fin 64) (v : BitVec 64) (s : State),
    Machine.exec (.registerWrite true (BitVec.ofNat 24 (0x1000 * c.val)) 4 v) s = Machine.exec (.sqDoorbell c (v.setWidth 32)) s) ∧
  (∀ (c : Fin 64) (r : Fin 4) (n : Nat) (v : BitVec 64) (s : State), s.live = true → n ≠ 4 →
    Machine.exec (.registerWrite true (BitVec.ofNat 24 (0x1000 * c.val + 8 * r.val)) n v) s =
      .next (withDev s (s.dev.updChan c.val fun ch => { ch with status := setBit ch.status 2, cnt := laneBump ch.cnt 2 }))) ∧
  (∀ (c : Fin 4) (k n : Nat) (v : BitVec 64) (s : State), s.live = true → k + n ≤ 0x800 → n ≤ 8 → k < 0x800 →
    ∃ t, Machine.exec (.registerWrite true (BitVec.ofNat 24 (0x1000 * c.val + 0x800 + k)) n v) s = .next t ∧
      t = { s with dev := { s.dev with chans := t.dev.chans } } ∧ (∀ j, j ≠ c.val → t.dev.chan j = s.dev.chan j) ∧
      t.dev.chan c.val = { s.dev.chan c.val with consts := (t.dev.chan c.val).consts } ∧
      ∀ i, Tbl.get 0 i (t.dev.chan c.val).consts =
        if k ≤ i ∧ i < k + n then BitVec.ofNat 8 (v.toNat / 256 ^ (i - k)) else Tbl.get 0 i (s.dev.chan c.val).consts) ∧
  (∀ (v : BitVec 64) (s : State),
    Machine.exec (.registerWrite false 0x400008 8 v) s = Machine.exec (.vddRequest v) s ∧
    Machine.exec (.registerWrite false 0x400010 8 v) s = Machine.exec (.powerLimitHost v) s) ∧
  (∀ (c : Fin 64) (s : State),
    Machine.exec (.registerWrite false (BitVec.ofNat 24 (0x100010 + 0x1000 * c.val)) 8 1) s = Machine.exec (.enable c) s ∧
    Machine.exec (.registerWrite false (BitVec.ofNat 24 (0x100010 + 0x1000 * c.val)) 8 2) s = Machine.exec (.disable c) s ∧
    Machine.exec (.registerWrite false (BitVec.ofNat 24 (0x100010 + 0x1000 * c.val)) 8 4) s = Machine.exec (.halt c) s ∧
    Machine.exec (.registerWrite false (BitVec.ofNat 24 (0x100010 + 0x1000 * c.val)) 8 8) s = Machine.exec (.resume c) s ∧
    Machine.exec (.registerWrite false (BitVec.ofNat 24 (0x100010 + 0x1000 * c.val)) 8 16) s =
      Machine.exec (.resumeCompletion c {}) s)

/-- The BAR4 window (R366, R510, R514, R515): a write stores the bytes that fall in HBM outside the device regions and no others, and is
counted where it reaches anything else; a read puts out the bytes of its range; a resize sets the window's base to 0.
Debug mode and the debug window (R520, R521): it is entered by ENABLE where PERMIT allows it, each entry counted, and left when
ENABLE is cleared with no DBG_READ in progress; a read of the window puts out the register's value, or a half of it, and one of
another size or alignment reads zero and is counted (R511).
Where the spec leaves a point open the model's choice shows: log entry 19. -/
def Obligations.WindowsAndDebugMode : Prop :=
  ((∀ (x : Nat) (b : Bytes) (s : State), s.live = true → x + b.length ≤ 2 ^ s.dev.host.bar4Log2 →
     let o := s.dev.bar4Base.toNat * 2 ^ 30 + x
     ∃ t, Machine.exec (.bar4Write x b) s = .next t ∧
       t = { s with dev := { s.dev with mem := t.dev.mem, windowWrites := t.dev.windowWrites, badAccess := t.dev.badAccess } } ∧
       (∀ i, i < b.length → bar4Stores (o + i) = true → t.dev.localByte (o + i) = at' 0 b i) ∧
       (∀ a, plainMem a = true → a < o ∨ o + b.length ≤ a ∨ bar4Stores a = false → t.dev.localByte a = s.dev.localByte a) ∧
       (t.dev.windowWrites = s.dev.windowWrites + (if ∃ i, i < b.length ∧ inGraphMem (o + i) = true then 1 else 0)) ∧
       ((∀ i, i < b.length → bar4Stores (o + i) = true ∨ inGraphMem (o + i) = true) → t.dev.badAccess = s.dev.badAccess)) ∧
   (∀ (x n : Nat) (s : State), s.live = true → x + n ≤ 2 ^ s.dev.host.bar4Log2 →
     let o := s.dev.bar4Base.toNat * 2 ^ 30 + x
     ∃ b : Bytes, Machine.exec (.bar4Read x n) s = .next (withDev s { s.dev with out := s.dev.out ++ [.readValue b] }) ∧
       b.length = n ∧ ∀ i, i < n →
         (bar4Stores (o + i) = true → at' 0 b i = s.dev.localByte (o + i)) ∧
         (bar4Stores (o + i) = false → inGraphMem (o + i) = false → s.dev.debugOn = false →
           (∀ r, regionOf (o + i) ≠ (.hub, r)) → at' 0 b i = 0)) ∧
   (∀ (n : Nat) (s : State), s.live = true →
     Machine.exec (.bar4Resize n) s = .next (withDev s
       (if 30 ≤ n ∧ n ≤ 40 then { s.dev with host := { s.dev.host with bar4Log2 := n }, bar4Base := 0 } else s.dev)))) ∧
  ((∀ s : State, s.live = true → s.mc.permit = true → s.dev.debugOn = false →
     Machine.exec (.debugEnable true) s = .next (withDev s
       { s.dev with debugEnable := true, debugOn := true, debugEntries := s.dev.debugEntries + 1 })) ∧
   (∀ s : State, s.live = true → s.mc.permit = false → s.dev.debugOn = false →
     Machine.exec (.debugEnable true) s = .next (withDev s { s.dev with debugEnable := true })) ∧
   (∀ s : State, s.live = true → s.dev.debugOn = true →
     Machine.exec (.debugEnable true) s = .next (withDev s { s.dev with debugEnable := true })) ∧
   (∀ s : State, s.live = true → (∀ j ∈ s.dev.jobs, j.desc.code = 0xF0 → j.ended = true) →
     Machine.exec (.debugEnable false) s = .next (withDev s { s.dev with debugEnable := false, debugOn := false })) ∧
   (∀ s : State, s.live = true → (∃ j ∈ s.dev.jobs, j.desc.code = 0xF0 ∧ j.ended = false) →
     Machine.exec (.debugEnable false) s = .next (withDev s { s.dev with debugEnable := false })) ∧
   (∀ (o : Nat) (s : State), s.mc.pwr.state = .on → o < 0x10000 → o % 8 = 0 →
     ∃ t v, Machine.exec (.debugWindowRead o 8) s = .next t ∧ regRead s.mc s.dev (0xC10000 + o) = some v ∧
       t = { s with dev := { s.dev with cores := t.dev.cores, out := s.dev.out ++ [.readValue (toLe 8 v)] } } ∧
       ∀ n, t.dev.core n = { s.dev.core n with regs := (t.dev.core n).regs }) ∧
   (∀ (o : Nat) (s : State), s.mc.pwr.state = .on → o < 0x10000 → o % 4 = 0 →
     ∃ t v, Machine.exec (.debugWindowRead o 4) s = .next t ∧ regRead s.mc s.dev (0xC10000 + o / 8 * 8) = some v ∧
       t = { s with dev := { s.dev with cores := t.dev.cores, out := s.dev.out ++ [.readValue (slice (toLe 8 v) (o % 8) 4)] } } ∧
       ∀ n, t.dev.core n = { s.dev.core n with regs := (t.dev.core n).regs }) ∧
   (∀ (o n : Nat) (s : State), s.mc.pwr.state = .on → o < 0x10000 → ¬(n = 8 ∧ o % 8 = 0) → ¬(n = 4 ∧ o % 4 = 0) →
     Machine.exec (.debugWindowRead o n) s = .next (withDev s { s.dev with
       badAccess := laneAdd32 s.dev.badAccess 0 1, out := s.dev.out ++ [.readValue (List.replicate n 0#8)] })))

/-! ### Ports, routes and chain links -/

/-- A port comes up (R464, R465, R472): ENABLE brings a configured port to TRAINING, alignment brings a record port up, and has a
chain link in training send its HELLO.
A HELLO (R472): the session is one above both sides', the sequence numbers begin at 0, and each class holds what the other side
grants; from a device that is not the expected one it sets PEER_MISMATCH and brings nothing up.
Where the spec leaves a point open the model's choice shows: log entries 21 and 34. -/
def Obligations.LinksComeUp : Prop :=
  (∀ (p : Fin 16) (s : State), s.live = true →
     let q := s.dev.port p.val
     (q.state = .disabled → q.mode = 1 ∨ q.mode = 2 → p.val % 2 = 0 ∨ (s.dev.port (p.val - p.val % 2)).split = true →
       Machine.exec (.portEnable p) s = .next (withDev s (s.dev.updPort p.val fun x =>
         { x with state := .training, dgramSeq := 0 }))) ∧
     (q.state ≠ .disabled ∨ q.mode = 0 ∨ q.mode = 3 → Machine.exec (.portEnable p) s = .next s) ∧
     (q.state = .training ∨ q.state = .lost → q.mode ≠ 1 →
       Machine.exec (.pcsAlignment p) s = .next (withDev s (s.dev.updPort p.val fun x => { x with state := .up }))) ∧
     (q.state = .training ∨ q.state = .lost → q.mode = 1 →
       ∃ t body, Machine.exec (.pcsAlignment p) s = .next t ∧
         t = { s with dev := { s.dev with ports := t.dev.ports, out := s.dev.out ++ [.frame p.val 0x8B4C
           (lcpFrame 3 0 0 0 0 s.dev.deviceId 0xFFFF [] q.session.toNat body)] } } ∧
         t.dev.port p.val = { q with state := .training, progress := q.progress + 1 } ∧
         field body 0 2 = s.dev.deviceId % 2 ^ 16 ∧ field body 8 2 = q.session.toNat ∧ ∀ k, k ≠ p.val → t.dev.port k = s.dev.port k)) ∧
  (∀ (p : Fin 16) (e f : Bytes) (s : State), s.live = true → (s.dev.port p.val).mode = 1 → (s.dev.port p.val).state = .training →
     lcpPayload e = some f → lcpOk f = true → field f 0 1 = 1 → field f 1 1 = 3 →
     let q := s.dev.port p.val
     ∃ t, Machine.exec (.hello p e) s = .next t ∧ t = { s with dev := { s.dev with ports := t.dev.ports, routes := t.dev.routes } } ∧
       (∀ k, k ≠ p.val → t.dev.port k = s.dev.port k) ∧
       (q.expectAny = true ∨ field f 0x20 2 = q.expectDevice.toNat →
         let r := t.dev.port p.val
         r.state = .up ∧ r.session = BitVec.ofNat 16 (max q.session.toNat (field f 0x28 2) + 1) ∧ r.peer = BitVec.ofNat 16 (field f 0x20 2) ∧
         r.nextSeq = 0 ∧ r.expectSeq = 0 ∧ r.unacked = [] ∧ r.txq = [] ∧
         r.credits = [field f 0x2A 2, field f 0x2C 2, field f 0x2E 2, field f 0x30 2]) ∧
       (q.expectAny = false → field f 0x20 2 ≠ q.expectDevice.toNat →
         t.dev.port p.val = { q with progress := q.progress + 1, peer := BitVec.ofNat 16 (field f 0x20 2), status := setBit q.status 2 } ∧
         t.dev.routes = s.dev.routes))

/-- Flow control (R470): a class sends at most one frame at a time, and only as many blocks as it holds credits for; what it sends
waits in the transmit buffer, in sequence. -/
def Obligations.CreditsBoundSending : Prop :=
  ∀ (pn cls : Nat) (d : Dev), cls < (d.port pn).credits.length →
    let t := sendClass pn d cls
    let q := d.port pn
    t = d ∨ ∃ f : TxFrame, f.cls = cls ∧ f.seq = q.nextSeq.toNat ∧ f.blocks = frameBlocks f.units.length ∧
      f.blocks ≤ at' 0 q.credits cls ∧ at' 0 (t.port pn).credits cls + f.blocks = at' 0 q.credits cls ∧
      (t.port pn).unacked = q.unacked ++ [f] ∧ (t.port pn).nextSeq = q.nextSeq + 1 ∧
      t.out = d.out ++ [.frame pn 0x8B4C (q.dataFrame f)] ∧ (∀ k, k ≠ pn → t.port k = d.port k) ∧ f.units.length ≤ 8192

/-- Frames on a link that is up (R468, R470, R471): a frame of another EtherType does nothing; the next DATA frame in sequence is accepted for this device; any other draws one NAK
and changes nothing; CONTROL and NAK free what they acknowledge, and a NAK sends the rest again, as the timer does until its
limit loses the link.
Where the spec leaves a point open the model's choice shows: log entry 34. -/
def Obligations.FramesReceived : Prop :=
  (∀ (p : Fin 16) (e f : Bytes) (s : State), s.live = true → lcpPayload e = some f → (s.dev.port p.val).current f = true → lcpOk f = true → field f 1 1 = 0 →
    field f 4 4 = (s.dev.port p.val).expectSeq.toNat → field f 0xE 2 = s.dev.deviceId →
    ∃ t, Machine.exec (.lcpData p e true) s = .next t ∧
      t = { s with dev := { s.dev with ports := t.dev.ports, cores := t.dev.cores, jobs := t.dev.jobs, out := t.dev.out } } ∧
      (t.dev.port p.val).expectSeq = (s.dev.port p.val).expectSeq + 1 ∧ (t.dev.port p.val).nakSent = false ∧
      ∀ k, k ≠ p.val → t.dev.port k = s.dev.port k) ∧
  (∀ (p : Fin 16) (e f : Bytes) (ok : Bool) (s : State), s.live = true → lcpPayload e = some f →
    ok = false ∨ lcpOk f = false ∨ (s.dev.port p.val).current f = false ∨ field f 4 4 ≠ (s.dev.port p.val).expectSeq.toNat →
    ((s.dev.port p.val).nakSent = true ∨ (s.dev.port p.val).state ≠ .up ∨ (s.dev.port p.val).mode ≠ 1 →
      Machine.exec (.lcpData p e ok) s = .next s) ∧
    ((s.dev.port p.val).nakSent = false → (s.dev.port p.val).state = .up → (s.dev.port p.val).mode = 1 →
      let q := s.dev.port p.val
      ∃ t, Machine.exec (.lcpData p e ok) s = .next t ∧
        t = { s with dev := { s.dev with ports := t.dev.ports, out := s.dev.out ++ [.frame p.val 0x8B4C
          (lcpFrame 2 0 0 0 q.expectSeq.toNat s.dev.deviceId q.peer.toNat q.freed q.session.toNat [])] } } ∧
        t.dev.port p.val = { q with nakSent := true, progress := q.progress + 1 } ∧ ∀ k, k ≠ p.val → t.dev.port k = s.dev.port k)) ∧
  (∀ (p : Fin 16) (e f : Bytes) (s : State), s.live = true → lcpPayload e = some f → (s.dev.port p.val).current f = true → lcpOk f = true →
    (s.dev.port p.val).txq = [] →
    let q := (s.dev.port p.val).acknowledge f
    q.unacked = (s.dev.port p.val).unacked.filter (fun x => !precedes x.seq (field f 8 4)) ∧
    (field f 1 1 = 1 → Machine.exec (.lcpControl p e) s = .next (withDev s (s.dev.acknowledge p.val f))) ∧
    (field f 1 1 = 2 → ∃ t, Machine.exec (.lcpNak p e) s = .next t ∧
      t = { s with dev := { s.dev with ports := t.dev.ports, cores := t.dev.cores, jobs := t.dev.jobs,
                                       out := s.dev.out ++ q.unacked.map fun x => .frame p.val 0x8B4C (q.dataFrame x) } } ∧
      (t.dev.port p.val).unacked = q.unacked ∧ ∀ k, k ≠ p.val → t.dev.port k = s.dev.port k)) ∧
  (∀ (i : Instr) (p : Fin 16) (e : Bytes) (s : State), i ∈ [.hello p e, .lcpData p e true, .lcpNak p e, .lcpControl p e] → lcpPayload e = none →
    Machine.exec i s = .next s) ∧
  (∀ (p : Fin 16) (s : State), s.live = true → (s.dev.port p.val).state = .up → (s.dev.port p.val).mode = 1 →
    (s.dev.port p.val).unacked ≠ [] →
    let q := s.dev.port p.val
    (q.retries + 1 < max 1 q.retryLimit.toNat → ∃ t, Machine.exec (.lcpRetransmitTimer p) s = .next t ∧
      t = { s with dev := { s.dev with ports := t.dev.ports, out := s.dev.out ++ q.unacked.map fun x => .frame p.val 0x8B4C (q.dataFrame x) } } ∧
      (t.dev.port p.val).retries = q.retries + 1 ∧ (t.dev.port p.val).unacked = q.unacked) ∧
    (max 1 q.retryLimit.toNat ≤ q.retries + 1 → Machine.exec (.lcpRetransmitTimer p) s = Machine.exec (.linkLost p) s))

/-- A chain link is lost (R424, R473, R474, R485): its port is LOST, what waited in it is gone, every request that waited for a device
reached through it is answered, and memory and the other ports stand; a reset of a chain link does the same, DISABLE leaves it
DISABLED, and a reset of a record port drops and counts its datagrams.
The routing table (R466, R485): a written entry leads where its ports are usable, PORT before ALT_PORT; an entry that a plot or an
unacknowledged frame needs is not changed, and the write is refused.
Where the spec leaves a point open the model's choice shows: log entry 34. -/
def Obligations.LinksLostAndRoutes : Prop :=
  ((∀ (p : Fin 16) (s : State), s.live = true → (s.dev.port p.val).state = .up → (s.dev.port p.val).mode = 1 →
     ∃ t, Machine.exec (.linkLost p) s = .next t ∧ t.mc = s.mc ∧ t.pending = s.pending ∧
       (t.dev.port p.val).state = .lost ∧ (t.dev.port p.val).status = setBit (s.dev.port p.val).status 0 ∧
       (∀ q ∈ t.dev.pendings, q.dst ∉ s.dev.carries p.val) ∧ t.dev.mem = s.dev.mem ∧
       (s.dev.remoteResults = [] → (t.dev.port p.val).unacked = [] ∧ (t.dev.port p.val).txq = [] ∧
         (∀ k, k ≠ p.val → t.dev.port k = s.dev.port k) ∧ t.dev.cores = s.dev.cores) ∧
       Machine.exec (.portDisable p) s = .next (withDev t (t.dev.updPort p.val fun x => { x with state := .disabled }))) ∧
   (∀ (p : Fin 16) (s : State), s.live = true → (s.dev.port p.val).state ≠ .up ∨ (s.dev.port p.val).mode ≠ 1 →
     Machine.exec (.linkLost p) s = .next s ∧
     Machine.exec (.portDisable p) s = .next (withDev s (s.dev.updPort p.val fun x => { x with state := .disabled }))) ∧
   (∀ (p : Fin 16) (s : State), (s.dev.port p.val).mode ≠ 2 → Machine.exec (.portReset p) s = Machine.exec (.linkLost p) s) ∧
   (∀ (p : Fin 16) (s : State), s.live = true → (s.dev.port p.val).mode = 2 →
     ∃ t, Machine.exec (.portReset p) s = .next t ∧ t = { s with dev := { s.dev with ports := t.dev.ports } } ∧
       t.dev.port p.val = { s.dev.port p.val with dgrams := [], txDgrams := [], rpCnt := (t.dev.port p.val).rpCnt } ∧
       ∀ k, k ≠ p.val → t.dev.port k = s.dev.port k)) ∧
  (∀ (dst : Fin 4096) (v : BitVec 64) (s : State), s.live = true →
     let pt := bits v.toNat 0 4
     let al := bits v.toNat 5 4
     (s.dev.routePinned dst.val = false →
       ∃ t, Machine.exec (.routeEntryWrite dst v) s = .next t ∧ t = { s with dev := { s.dev with routes := t.dev.routes } } ∧
         (∀ k, k ≠ dst.val → t.dev.route k = s.dev.route k) ∧
         (t.dev.route dst.val).port.toNat = pt ∧ (t.dev.route dst.val).alt.toNat = al ∧
         (t.dev.route dst.val).portValid = bit v.toNat 4 ∧ (t.dev.route dst.val).altValid = bit v.toNat 9 ∧
         (bit v.toNat 4 = true → s.dev.portUp pt = true → t.dev.routePort dst.val = some pt) ∧
         ((bit v.toNat 4 = false ∨ s.dev.portUp pt = false) → bit v.toNat 9 = true → s.dev.portUp al = true →
           t.dev.routePort dst.val = some al)) ∧
     (s.dev.routePinned dst.val = true → pt ≠ (s.dev.route dst.val).port.toNat ∨ al ≠ (s.dev.route dst.val).alt.toNat →
       Machine.exec (.routeEntryWrite dst v) s = .next (withDev s (s.dev.updPort (s.dev.route dst.val).port.toNat fun x =>
         { x with status := setBit x.status 3 }))))

/-- Requests of other devices (R24, R469): a Read is answered with the bytes of its range or the status of the error met there; a
Write stores its bytes and is acknowledged. Neither passes an earlier request of its source.
Answers (R469): a Read response or an acknowledgement ends the request whose tag it bears: the tag leaves the pending list, its
descriptor waits for it no longer, and a failure is the status of its chain; a result that waited for it alone is accepted (R232).
Accept units (R477): the head device of a plot releases the records that they cover and counts them; a device in between passes
them on.
Where the spec leaves a point open the model's choice shows: log entries 5 and 15. -/
def Obligations.ChainUnitsServed : Prop :=
  ((∀ (p : Fin 16) (env : Env) (u : RxUnit) (s : State), s.live = true → (s.dev.port p.val).requestOf 6 = some u →
     let a := field u.body 0 8
     let n := field u.body 8 4
     let d := s.dev.takeUnit p.val u
     let answer (st : Status) (b : Bytes) := toLe 4 (field u.body 12 4) ++ toLe 2 st.toNat ++ toLe 2 0 ++ b
     let hbm : Bool := match (regionOf (addrLocal a)).1 with | .hbm _ => true | _ => false
     let e := if hbm then { d with free := d.free + 1 } else d
     let plain : Dev := if env.ecc.any fun x => overlaps x.1 x.2 a n then sendUnit e u.src 13 u.plot (answer stEcc [])
       else sendUnit e u.src 13 u.plot (answer 0 (s.dev.localBytes (addrLocal a) n))
     let r := e.rowRead env a n
     ((regionOf (addrLocal a)).1 ≠ .regs → hbm = false → Machine.exec (.readUnit p env) s = .next (withDev s plain)) ∧
     (hbm = true → Machine.exec (.readUnit p env) s = .next (withDev s (if Config.tableUnit s.dev.free then
       (match r.2 with
        | .ok b => sendUnit (r.1.cacheRow a b) u.src 13 u.plot (answer 0 b)
        | .error _ => sendUnit r.1 u.src 13 u.plot (answer stEcc []))
       else plain))) ∧
     (hbm = true → addrDevice a = s.dev.deviceId → (s.dev.cache (clusterOf a)).find a = none → (∀ x ∈ env.ecc, overlaps x.1 x.2 a n = false) →
       r.2 = .ok (s.dev.localBytes (addrLocal a) n) ∧
       (r.1.tabEng (homeOf a)).progress = (s.dev.tabEng (homeOf a)).progress + accesses n)) ∧
   (∀ (p : Fin 16) (u : RxUnit) (s : State), s.live = true → (s.dev.port p.val).requestOf 7 = some u → u.plot = 0xFFFF →
     let o := addrLocal (field u.body 0 8)
     let b := slice u.body 16 (field u.body 8 4)
     ∃ t, Machine.exec (.writeUnit p) s = .next t ∧
       t = { s with dev := { s.dev with mem := t.dev.mem, ports := t.dev.ports, out := t.dev.out, free := t.dev.free,
                                        caches := t.dev.caches, tabs := t.dev.tabs } } ∧
       t.dev.mem = (s.dev.setLocalBytes o b).mem ∧
       (∀ x, plainMem x = true → x < o ∨ o + b.length ≤ x → t.dev.localByte x = s.dev.localByte x)) ∧
   (∀ (p : Fin 16) (s : State), ((s.dev.port p.val).requestOf 6 = none → ∀ env, Machine.exec (.readUnit p env) s = .next s) ∧
     ((s.dev.port p.val).requestOf 7 = none → Machine.exec (.writeUnit p) s = .next s)) ∧
   (∀ (q : Port) (k : Nat) (u : RxUnit), q.requestOf k = some u → u ∈ q.rx ∧ u.kind = k ∧
     ∀ v ∈ q.rx.takeWhile (· != u), v.src = u.src → v.kind ≠ 6 ∧ v.kind ≠ 7 ∧ v.kind ≠ 8)) ∧
  (∀ (i : Instr) (p : Fin 16) (kind : Nat) (u : RxUnit) (q : Pending) (j : Job) (s : State), s.live = true →
     (i = .readResponse p ∧ kind = 13) ∨ (i = .writeAcknowledgement p ∧ kind = 14) → (s.dev.port p.val).rxOf kind = some u →
     (s.dev.takeUnit p.val u).pendingOf u.src (field u.body 0 4) = some q → q.kind ≠ 9 → s.dev.job q.job = some j → j.desc.code ≠ 0x34 →
     let st : Status := BitVec.ofNat 16 (field u.body 4 2)
     (∀ r, s.dev.remoteResults = [([q.tag], r)] → s.dev.plot r.plot = none → r.core < 256 →
       ∃ t, Machine.exec i s = .next t ∧ t.dev.remoteResults = [] ∧
         ∀ x ∈ (t.dev.core r.core).ctxs, x.row = r.row → x.acked = true) ∧
     ∃ t, Machine.exec i s = .next t ∧ (s.dev.remoteResults = [] →
       t = { s with dev := { s.dev with ports := t.dev.ports, out := t.dev.out, pendings := t.dev.pendings, jobs := t.dev.jobs } } ∧
       t.dev.pendings = s.dev.pendings.filter (fun r => r.tag ≠ q.tag) ∧
       ∃ k, t.dev.job q.job = some k ∧ k.wait = j.wait.filter (· ≠ q.tag) ∧ k.phase = j.phase ∧
         k.chainStatus = (if st = 0 then j.chainStatus else if j.chainStatus = 0 then st else j.chainStatus) ∧
         k.desc = (if st.cls = 4 then { j.desc with next := 0 } else j.desc))) ∧
  (∀ (p : Fin 16) (u : RxUnit) (x : Plot) (s : State), s.live = true → (s.dev.port p.val).rxOf 12 = some u →
     s.dev.plot u.plot = some x →
     (x.startsHere = true → ∃ t, Machine.exec (.accept p) s = .next t ∧
       t = { s with dev := { s.dev with ports := t.dev.ports, out := t.dev.out, plots := t.dev.plots, feeds := t.dev.feeds, jobs := t.dev.jobs } } ∧
       t.dev.plot u.plot = some { x with
         replay := x.replay.filter (fun r => !(r.stream = field u.body 0 1 && !precedes (field u.body 4 4) r.seq)) }) ∧
     (x.startsHere = false → Machine.exec (.accept p) s = .next (withDev s
       (sendAcceptUnit (s.dev.takeUnit p.val u) x.lay.prevDevice u.plot (field u.body 0 1) (field u.body 4 4)))))

/-! ### Record ports -/

/-- A frame at a record port (R464, R478 to R481): a good datagram for a bound UDP port waits in the buffer; a bad one, one for no task
and one that finds no room are each counted in a lane of their own and dropped; a frame for another address is not counted.
Flow control of a record port (R39, R51, R481): XOFF ends below half full; a received pause holds the port's datagrams until its timer,
and a timer of an XOFF in force sends it again; each frame of flow control is progress of the port.
Result datagrams (R479, R482): the results that wait at a port are packed, in their order and up to the MTU, with the next
sequence number, where the transmit buffer has room and no pause holds; the oldest datagram that has left is put out and its results
counted as acknowledged.
Where the spec leaves a point open the model's choice shows: log entries 22 and 35. -/
def Obligations.RecordPorts : Prop :=
  (∀ (p : Fin 16) (f : Bytes) (ok : Bool) (s : State), s.live = true → (s.dev.port p.val).state = .up → (s.dev.port p.val).mode = 2 →
     (s.dev.port p.val).pfc = false →
     let q := s.dev.port p.val
     let becomes (g : Port → Port) : Prop := ∃ t, Machine.exec (.recordDatagramRx p f ok) s = .next t ∧
       t = { s with dev := { s.dev with ports := t.dev.ports } } ∧ t.dev.port p.val = g { q with progress := q.progress + 1 } ∧
       ∀ k, k ≠ p.val → t.dev.port k = s.dev.port k
     (beField f 0 6 ≠ q.srcMac.toNat → Machine.exec (.recordDatagramRx p f ok) s = .next s) ∧
     (beField f 0 6 = q.srcMac.toNat → ok = false ∨ q.mtu.toNat < f.length + 4 ∨ recordDatagram f = none →
       becomes fun x => { x with rpCnt := laneBump x.rpCnt 1 }) ∧
     (∀ udp b, beField f 0 6 = q.srcMac.toNat → ok = true → f.length + 4 ≤ q.mtu.toNat → recordDatagram f = some (udp, b) →
       (s.dev.taskBound p.val udp = false → becomes fun x => { x with rpCnt := laneBump x.rpCnt 0 }) ∧
       (s.dev.taskBound p.val udp = true → s.dev.rxBytes p.val < q.rxUsed + b.length → becomes fun x => { x with rpCnt := laneBump x.rpCnt 2 }) ∧
       (s.dev.taskBound p.val udp = true → q.rxUsed + b.length ≤ s.dev.rxBytes p.val →
         becomes fun x => { x with dgrams := x.dgrams ++ [(udp, b)] }))) ∧
  (∀ (p : Fin 16) (s : State), s.live = true →
     let q := s.dev.port p.val
     let becomes (i : Instr) (r : Port) (free : Nat) (out : List Out) : Prop := ∃ t, Machine.exec i s = .next t ∧
       t = { s with dev := { s.dev with ports := t.dev.ports, free := free, out := out } } ∧ t.dev.port p.val = r ∧
       ∀ k, k ≠ p.val → t.dev.port k = s.dev.port k
     let refreshed := s.dev.out ++ [.pfc p.val q.priority.toNat true]
     (q.xoff = true → 2 * q.rxUsed < s.dev.rxBytes p.val →
       becomes (.pfcRelease p) { q with xoff := false, progress := q.progress + 1 } s.dev.free
         (s.dev.out ++ [.pfc p.val q.priority.toNat false])) ∧
     (q.xoff = false ∨ s.dev.rxBytes p.val ≤ 2 * q.rxUsed → Machine.exec (.pfcRelease p) s = .next s) ∧
     (∀ quanta, Machine.exec (.pauseRx p quanta) s = .next (withDev s (s.dev.updPort p.val fun x =>
       { x with paused := quanta != 0, progress := x.progress + 1 }))) ∧
     (q.paused = false → q.xoff = false → Machine.exec (.pauseTimer p) s = .next s) ∧
     (q.paused = true → q.xoff = false → becomes (.pauseTimer p) { q with paused := false } s.dev.free s.dev.out) ∧
     (q.paused = false → q.xoff = true → becomes (.pauseTimer p) { q with progress := q.progress + 1 } s.dev.free refreshed) ∧
     (q.paused = true → q.xoff = true →
       becomes (.pauseTimer p) { q with paused := false } (s.dev.free + 1) s.dev.out ∨
       becomes (.pauseTimer p) { q with progress := q.progress + 1 } (s.dev.free + 1) refreshed)) ∧
  ((∀ (p : Fin 16) (s : State), s.live = true → (s.dev.port p.val).state = .up → (s.dev.port p.val).mode = 2 →
     (s.dev.port p.val).paused = false → (s.dev.port p.val).txResults ≠ [] → (s.dev.port p.val).txDgrams = [] →
     ((s.dev.port p.val).txResults.map fun r => r.bytes.length).sum + 8 ≤ s.dev.txBytes p.val →
     let q := s.dev.port p.val
     ∃ t n g, Machine.exec (.resultDatagramSend p) s = .next t ∧ 1 ≤ n ∧ n ≤ q.txResults.length ∧
       (t.dev.port p.val).txResults = q.txResults.drop n ∧ (t.dev.port p.val).txDgrams = [(n, g)] ∧
       (t.dev.port p.val).dgramSeq = q.dgramSeq + 1 ∧ field g.bytes 0 2 = 0x444C ∧ field g.bytes 4 4 = q.dgramSeq.toNat ∧
       g.bytes.drop 8 = ((q.txResults.take n).map fun r => r.bytes).flatten ∧
       ((∀ r ∈ q.txResults, r.bytes ≠ []) → 1 < n → q.dgramOverhead + (g.bytes.length - 8) ≤ q.mtu.toNat)) ∧
   (∀ (p : Fin 16) (n : Nat) (g : Dgram) (rest : List (Nat × Dgram)) (s : State), s.live = true →
     (s.dev.port p.val).txDgrams = (n, g) :: rest → (s.dev.port p.val).paused = false →
     Machine.exec (.datagramTxDone p) s = .next (withDev s ((s.dev.updPort p.val fun x =>
       { x with txDgrams := rest, egressAck := x.egressAck + BitVec.ofNat 64 n, progress := x.progress + 1 }).emit (.datagram p.val g)))))

/-! ### Records on their way in -/

/-- A frame enters (R77 to R81, R373, R427): the stream whose turn it is gives the next record of its plot, with the next sequence
number, the ECV of its payload and the status of its check; it stands last in the replay buffer and in the input of the head
whose turn it is, which has room for it (R21).
Where the spec leaves a point open the model's choice shows: log entries 44 and 50. -/
def Obligations.FrameEnters : Prop :=
  ∀ (pid : Fin 256) (env : Env) (p : Plot) (f : Feed) (left n room : Nat) (h b : Bytes) (s : State), s.live = true →
    s.dev.plot pid.val = some p → p.open' = true → arbitrate (refillPlot s.dev pid.val) pid.val p = some (f, left) → f.stream = some n →
    headRoom s.dev p = true →
    frameHeader (refillPlot s.dev pid.val) env f = .ok (h, room) → frameInvalid h room = false →
    replayUsed (refillPlot s.dev pid.val) ((p.first.getD 0) / 64) + frameBytes (field h 2 2) ≤ replaySize →
    framePayload (refillPlot s.dev pid.val) env f (field h 2 2) = .ok b → replayBufferBad env ((p.first.getD 0) / 64) = false →
    let seq := (Tbl.get {} n p.streams : Stream).next
    ∃ t q r, Machine.exec (.ingressFrame pid env) s = .next t ∧ t.mc = s.mc ∧ t.pending = s.pending ∧ t.dev.mem = s.dev.mem ∧
      t.dev.plot pid.val = some q ∧ q.replay = p.replay ++ [r] ∧ q.rotHead = (p.rotHead + 1) % max 1 p.heads.length ∧
      (Tbl.get {} n q.streams : Stream).next = (seq + 1) % 2 ^ 32 ∧
      r.src = f.src ∧ r.stream = n ∧ r.seq = seq ∧ r.tag = field h 4 4 ∧ r.payload = b ∧ r.ecv = crc32c b ∧
      r.status = (if bit (field h 12 2) 0 = true ∧ field h 8 4 ≠ crc32c b then stEntryCheck else 0) ∧
      (∀ c, p.heads[p.rotHead]? = some c → (t.dev.core c).headQueue = (s.dev.core c).headQueue ++ [.record r])

/-- A head takes the record at the front of its input into a free row of accumulator memory (R20, R21, R90): the row is inside the
memory, reserved for no tile and held by no other context.
An entity look-up (R92, R93): the row found, or the default row with the miss flag, is the next row of the head's work; the key of all
ones finds none. Memory, plots and channels stand.
The sieve's packet (R90, R97, R105, R110, R417): a record whose payload keeps its ECV is binned and its packet put out; one whose
payload does not is a check-value fault of the head, and nothing else.
Where the spec leaves a point open the model's choice shows: log entries 9 and 44. -/
def Obligations.HeadBinsRecords : Prop :=
  ((∀ (n : Fin 256) (r : Rec) (rest : List HeadIn) (base row : Nat) (tb : Bytes) (s : State), coreGoes s n.val →
     (s.dev.core n.val).headQueue = .record r :: rest → (s.dev.core n.val).sieveActive = some (base, tb) →
     (s.dev.core n.val).freeRow = some row →
     Machine.exec (.headTakeRecord n .clean) s = coreStep s n.val fun c => { c with
       headQueue := rest
       headWork := c.headWork ++ [{ record := r, row := row, rows := [], sflags := 0, nflags := 0, status := takeStatus (parseSieve tb) r }]
       ctxs := c.ctxs ++ [Ctx.fresh r.id r.src r.stream r.q r.ecv row] }) ∧
   (∀ (c : Core) (row : Nat), c.freeRow = some row → row < 4096 ∧ (∀ x ∈ c.ctxs, x.row ≠ row) ∧
     ∀ t ∈ c.tiles, row < bits t.word 8 12 ∨ bits t.word 8 12 + bits t.word 20 13 ≤ row) ∧
   (∀ (t : SieveTable) (r : Rec), (r.status ≠ 0 → takeStatus t r = r.status) ∧
     (r.status = 0 → takeStatus t r = if r.payload.length < t.payloadMin then stRecordShort else 0))) ∧
  ((∀ (n : Fin 256) (env : Env) (base k : Nat) (tb : Bytes) (w : HeadWork) (rest : List HeadWork) (e : Entity) (b : Bytes) (s : State),
     coreGoes s n.val → (s.dev.core n.val).sieveActive = some (base, tb) → (s.dev.core n.val).headWork = w :: rest →
     codeMet env = none → w.needs (parseSieve tb) = some (e, k) → (lookUp s.dev env e k).2 = .hit b →
     ∃ t, Machine.exec (.entityLookup n env) s = .next t ∧
       (t.dev.core n.val).headWork = { w with rows := w.rows ++ [b] } :: rest ∧ (∀ m, m ≠ n.val → t.dev.core m = s.dev.core m) ∧
       t.dev.mem = s.dev.mem ∧ t.dev.plots = s.dev.plots ∧ t.dev.chans = s.dev.chans ∧ t.mc = s.mc ∧ t.pending = s.pending) ∧
   (∀ (n : Fin 256) (env : Env) (base k : Nat) (tb : Bytes) (w : HeadWork) (rest : List HeadWork) (e : Entity) (b : Bytes) (ex : Bool)
     (s : State), coreGoes s n.val → (s.dev.core n.val).sieveActive = some (base, tb) → (s.dev.core n.val).headWork = w :: rest →
     codeMet env = none → w.needs (parseSieve tb) = some (e, k) → (lookUp s.dev env e k).2 = .miss ex → s.dev.readG env e.defaultRow e.rowBytes = .ok b →
     ∃ t, Machine.exec (.entityLookup n env) s = .next t ∧
       (t.dev.core n.val).headWork =
         { w with rows := w.rows ++ [b], sflags := w.sflags ||| (if ex then sfMiss ||| sfProbe else sfMiss) } :: rest ∧
       (∀ m, m ≠ n.val → t.dev.core m = s.dev.core m) ∧ t.dev.mem = s.dev.mem ∧ t.dev.plots = s.dev.plots ∧ t.dev.chans = s.dev.chans) ∧
   (∀ (d : Dev) (env : Env) (e : Entity), lookUp d env e (2 ^ 64 - 1) = (d, .miss false))) ∧
  (∀ (n : Fin 256) (w : HeadWork) (rest : List HeadWork) (base : Nat) (tb : Bytes) (s : State), coreGoes s n.val →
     (s.dev.core n.val).headWork = w :: rest → (s.dev.core n.val).sieveActive = some (base, tb) → w.ready (parseSieve tb) = true →
     laneFree (s.dev.core n.val).headOut.length = true →
     (w.status ≠ 0 ∨ crc32c w.record.payload = w.record.ecv →
       ∃ t, Machine.exec (.sieveBin n .clean) s = .next t ∧ t = { s with dev := { s.dev with cores := t.dev.cores } } ∧
         (∀ m, m ≠ n.val → t.dev.core m = s.dev.core m) ∧ (t.dev.core n.val).headWork = rest ∧
         (t.dev.core n.val).headOut = (s.dev.core n.val).headOut ++
           [.bins (packetOf (parseSieve tb) w.record (w.binned (parseSieve tb))) w.record.src w.record.stream w.record.q n.val] ∧
         (t.dev.core n.val).acc = (s.dev.core n.val).acc ∧ (t.dev.core n.val).tiles = (s.dev.core n.val).tiles) ∧
     (w.status = 0 → crc32c w.record.payload ≠ w.record.ecv →
       Machine.exec (.sieveBin n .clean) s = .next (withDev s (s.dev.detect n.val stCheckValue 5 [] (some w.record.id)))) ∧
     (w.status ≠ 0 → w.binned (parseSieve tb) = ⟨[], [], w.sflags, w.nflags, w.status⟩))

/-- A fault of a step (R34, R35, R416): an illegal 1-of-4 code or an uncorrectable error in a memory of the core is reported to the FEC
before the step has any effect, and the core takes no further step. One in a table engine resets the engine (R416, R424): its
descriptors end, and every plot with a request pending on it waits for its restart.
Where the spec leaves a point open the model's choice shows: log entries 7, 8 and 54. -/
def Obligations.FaultsStopCores : Prop :=
  (∀ (n : Fin 256) (r : Rec) (rest : List HeadIn) (base row : Nat) (tb : Bytes) (w : BitVec 4) (i : Nat) (s : State), coreGoes s n.val →
    (s.dev.core n.val).headQueue = .record r :: rest → (s.dev.core n.val).sieveActive = some (base, tb) →
    (s.dev.core n.val).freeRow = some row → illegalCode w = true →
    Machine.exec (.headTakeRecord n (.code w i)) s =
      .next (withDev s { s.dev with detected := s.dev.detected ++ [⟨n.val, stCodeViolation, 1, [], some r.id, 0⟩] })) ∧
  (∀ (n : Fin 256) (u : Upset) (s : State), s.dev.stopped n.val = true →
    ∀ i ∈ [Instr.headTakeRecord n u, .entityLookup n {}, .sieveBin n u, .binVectorPacket n, .contextAllocate n {}, .sumPacketTake n u,
        .recordAdmit n, .roundIssue n u, .roundDrain n u, .sumPacketSend n, .contextFree n, .leafKeyBlock n, .finisherPass n {},
        .egressWrite n u {}, .markerAtHead n, .markerAtFirstCore n, .coreSwitch n u, .heldMarkerRelease n],
      Machine.exec i s = .next s) ∧
  (∀ w : BitVec 4, illegalCode w = false ↔ w = 0 ∨ w = 1 ∨ w = 2 ∨ w = 4 ∨ w = 8) ∧
  (∀ (n : Fin 256) (env : Env) (k : Nat) (s : State), s.live = true → codeMet env = some k →
    (lookPending s.dev n.val = true → Machine.exec (.entityLookup n env) s = .next (withDev s (tabCodeFault k s.dev))) ∧
    ((s.dev.core n.val).keyBlocks ≠ [] → Machine.exec (.keyGatherBag n env) s = .next (withDev s (tabCodeFault k s.dev)))) ∧
  (∀ (k : Nat) (d : Dev), (tabCodeFault k d).cores = d.cores ∧ (tabCodeFault k d).mem = d.mem ∧
    (∀ j ∈ (tabCodeFault k d).jobs, 0x40 ≤ j.desc.code → j.desc.code ≤ 0x42 → onCluster d (k / 4) j = true → j.ended = true) ∧
    (∀ n pid p, n < 256 → requestAt d (k / 4) n = true → d.plotOf n = some (pid, p) → pid ∈ (tabCodeFault k d).restartWait) ∧
    (tabCodeFault k d).err.seqNext = d.err.seqNext + 1)

/-- The first core accepts a bin-vector packet from the head whose turn it is, when its lane has room and holds no marker (R51, R81,
R110, R271).
A core allocates a record's context from the bins at the front of its lane (R21, R73, R107, R198), when the next lane has room: in a row
that is its own, under the core's active pair; the packet goes on along the chain. With no room, or no free row, nothing changes.
Where the spec leaves a point open the model's choice shows: log entries 44 and 45. -/
def Obligations.PacketsAndContexts : Prop :=
  (∀ (n : Fin 256) (pid h q : Nat) (p : Plot) (b : BinPacket) (src : Src) (st sender : Nat) (rest : List BinMsg) (s : State),
     plotGoes s n.val pid p → p.isFirst n.val = true → p.heads[p.rotAccept]? = some h → s.dev.stopped h = false →
     (s.dev.core h).headOut = .bins b src st q sender :: rest → (s.dev.core n.val).binLane.any BinMsg.isMarker = false →
     s.dev.laneRoom n.val h true (BinMsg.bins b src st q h).size = true →
     ∃ t, Machine.exec (.binVectorPacket n) s = .next t ∧ scoringOnly s t ∧ (t.dev.core h).headOut = rest ∧
       (t.dev.core h).regs.sieveRecords = (s.dev.core h).regs.sieveRecords + 1 ∧
       (t.dev.core n.val).binLane = (s.dev.core n.val).binLane ++ [.bins b src st q h] ∧
       t.dev.plot pid = some { p with rotAccept := (p.rotAccept + 1) % max 1 p.heads.length } ∧
       ∀ m, m ≠ n.val → m ≠ h → t.dev.core m = s.dev.core m) ∧
  (∀ (n : Fin 256) (env : Env) (pid row q st : Nat) (p : Plot) (b : BinPacket) (src : Src) (sender : Nat) (rest : List BinMsg) (pr : Pair)
     (s : State), plotGoes s n.val pid p → (s.dev.core n.val).binLane = .bins b src st q sender :: rest → sender < 256 →
     sender / 64 = n.val / 64 ∨ chainBad env (n.val / 64) = false → s.dev.nextRoom p n.val true (BinMsg.bins b src st q n.val).size = true →
     (s.dev.core n.val).activePair = some pr → (s.dev.core n.val).ctxRow b.recordId src st = some row → p.isFirst n.val = false →
     p.after n.val ≠ some n.val →
     ∃ t x, Machine.exec (.contextAllocate n env) s = .next t ∧ scoringOnly s t ∧ (t.dev.core n.val).binLane = rest ∧
       x ∈ (t.dev.core n.val).ctxs ∧ x.row = row ∧ x.hasBins = true ∧ x.bins = b.bins ∧ x.pair = (s.dev.core n.val).active ∧
       x.notScored = (b.status != 0) ∧ (∀ y ∈ (t.dev.core n.val).ctxs, y.row = row → y = x) ∧
       (∀ k, p.after n.val = some k → (t.dev.core k).binLane = (s.dev.core k).binLane ++ [.bins b src st q n.val]) ∧
       (∀ m, m ≠ n.val → p.after n.val ≠ some m → t.dev.core m = s.dev.core m)) ∧
  (∀ (n : Fin 256) (env : Env) (pid q st : Nat) (p : Plot) (b : BinPacket) (src : Src) (sender : Nat) (rest : List BinMsg)
     (s : State), plotGoes s n.val pid p → (s.dev.core n.val).binLane = .bins b src st q sender :: rest →
     sender / 64 = n.val / 64 ∨ chainBad env (n.val / 64) = false →
     (s.dev.core n.val).ctxRow b.recordId src st = none ∨ s.dev.nextRoom p n.val true (BinMsg.bins b src st q n.val).size = false →
     Machine.exec (.contextAllocate n env) s = .next s)

/-- A core's step on a record of its own (R22, R149 to R161, R163, R250): the row of the oldest finished context is freed; the next record
is admitted; the next round of its trees descends; the oldest round in flight drains, its leaves added unless it was squashed (a fault
of a squashed round's leaf checks shows where they were made, R251, a free value); the leaf-key block of the oldest record goes to the table engines.
Where the spec leaves a point open the model's choice shows: log entry 26. -/
def Obligations.RecordsDescend : Prop :=
  (∀ (n : Fin 256) (x : Ctx) (s : State), coreGoes s n.val → (s.dev.core n.val).ctxs.find? (s.dev.core n.val).done = some x →
    Machine.exec (.contextFree n) s = coreStep s n.val fun c => { c with ctxs := c.ctxs.filter fun y => y.row ≠ x.row }) ∧
  (∀ (n : Fin 256) (pid : Nat) (p : Plot) (x : Ctx) (pr : Pair) (s : State), plotGoes s n.val pid p →
    (s.dev.core n.val).ctxs.find? (fun y => y.hasBins && !y.admitted) = some x → (s.dev.core n.val).pairOf x = some pr →
    p.isFirst n.val = false → p.lay.chainMode ≠ 0 ∨ x.inSum.isSome = true → (s.dev.core n.val).halvesUsed < 2 →
    Machine.exec (.recordAdmit n) s = coreStep s n.val fun c => c.putCtx x { x with admitted := true } pr.rounds) ∧
  (∀ (n : Fin 256) (x : Ctx) (pr : Pair) (ls : List Lane) (s : State), coreGoes s n.val →
    (s.dev.core n.val).ctxs.find? (fun y => y.admitted && !y.skips &&
      ((s.dev.core n.val).pairOf y).any fun pr => y.issued < pr.rounds) = some x →
    (s.dev.core n.val).pairOf x = some pr →
    descendAll pr.info.fold (strideOf pr.info.valueFmt pr.info.outputs) pr.slice x.bins .clean (roundSlots pr.info.fold pr.slice.slots x.issued) 0
      = .ok ls →
    Machine.exec (.roundIssue n .clean) s = coreStep s n.val fun c => c.countTransfer.updCtx x.row fun y =>
      { y with issued := y.issued + 1, rounds := y.rounds ++ [⟨ls, false⟩] }) ∧
  (∀ (n : Fin 256) (pid : Nat) (p : Plot) (x : Ctx) (pr : Pair) (r : Round) (rest : List Round) (s : State), plotGoes s n.val pid p →
    (s.dev.core n.val).ctxs.find? (fun y => !y.rounds.isEmpty) = some x → (s.dev.core n.val).pairOf x = some pr → x.rounds = r :: rest →
    (r.squashed = true → leafChecks (strideOf pr.info.valueFmt pr.info.outputs) pr.slice .clean r.lanes 0 = none →
      Machine.exec (.roundDrain n .clean) s =
        .next (withDev s ({ s.dev with free := s.dev.free + 1 }.updCore n.val (drainSquashed pr x)))) ∧
    (∀ f, r.squashed = true → leafChecks (strideOf pr.info.valueFmt pr.info.outputs) pr.slice .clean r.lanes 0 = some f →
      Machine.exec (.roundDrain n .clean) s = .next (withDev s (
        if Config.atGate s.dev.free then descentFault { s.dev with free := s.dev.free + 1 } n.val x.pair f x.recordId
        else { s.dev with free := s.dev.free + 1 }.updCore n.val (drainSquashed pr x)))) ∧
    (r.squashed = false → leafChecks (strideOf pr.info.valueFmt pr.info.outputs) pr.slice .clean r.lanes 0 = none →
      Machine.exec (.roundDrain n .clean) s = coreStep s n.val (drainRound pr (p.isFirst n.val) (p.isTail n.val) .clean r x)) ∧
    (∀ f, r.squashed = false → leafChecks (strideOf pr.info.valueFmt pr.info.outputs) pr.slice .clean r.lanes 0 = some f →
      Machine.exec (.roundDrain n .clean) s = .next (withDev s (descentFault s.dev n.val x.pair f x.recordId))) ∧
    (drainSquashed pr x (s.dev.core n.val)).acc = (s.dev.core n.val).acc) ∧
  (∀ (n : Fin 256) (pid : Nat) (p : Plot) (x : Ctx) (pr : Pair) (s : State), plotGoes s n.val pid p →
    (s.dev.core n.val).ctxs.find? (fun y => y.hasBins && !y.keysSent) = some x → (s.dev.core n.val).pairOf x = some pr →
    x.over pr.rounds = true → p.isFirst n.val = true ∨ x.inSum.isSome = true →
    ∃ t, Machine.exec (.leafKeyBlock n) s = .next t ∧ t = { s with dev := { s.dev with cores := t.dev.cores } } ∧
      (∀ m, m ≠ n.val → t.dev.core m = s.dev.core m) ∧
      (t.dev.core n.val).keyBlocks = (s.dev.core n.val).keyBlocks ++ [⟨x.src, x.q, keyBlockBytes x⟩] ∧
      (t.dev.core n.val).acc = (s.dev.core n.val).acc)

/-- The descent of a tree (R151, R152): one node a stage, the left child where the bin is at most the threshold, or where it is not and the
node inverts; the path's bits and length are those of the comparisons made, and a node that fails its check ends the descent in
a fault. -/
def Obligations.DescentFollowsNodes : Prop :=
  ∀ (fold stride : Nat) (sl : Slice) (bins : List Nat) (t fuel k i dp pa rd : Nat),
    let e := at' 0 (at' [] sl.stages k) i
    let nd := Node.ofWord e
    let right := if at' 0 bins nd.feature ≤ nd.threshold then nd.invert else !nd.invert
    (nodeCrc e ≠ nd.crc → ∃ f, descendGo fold stride sl bins .clean t (fuel + 1) k i dp pa rd = (.error f, rd) ∧ f.kind = 2 ∧
      f.stage = k ∧ f.index = i ∧ f.slot = t) ∧
    (nodeCrc e = nd.crc → nd.pad = true →
      descendGo fold stride sl bins .clean t (fuel + 1) k i dp pa rd = (.ok ⟨t, dp, pa, nd.left, k⟩, rd + 1)) ∧
    (nodeCrc e = nd.crc → nd.pad = false → inFeatureMap fold sl k nd.feature = true →
      descendGo fold stride sl bins .clean t (fuel + 1) k i dp pa rd =
        if nd.terminal then (.ok ⟨t, dp + 1, pa + b2n right * 2 ^ dp, nd.left + b2n right * stride, k⟩, rd + 1)
        else descendGo fold stride sl bins .clean t fuel (k + 1) (nd.left + b2n right) (dp + 1) (pa + b2n right * 2 ^ dp) (rd + 1))

/-- The pruning test (R241): FX48 slots compare as signed 64-bit integers, FP32 slots as their values; no test decides on a NaN or with
LO above HI; else the table of the rule decides, by SENSE. -/
def Obligations.PruneTestDecides : Prop :=
  ∀ (g : GroveInfo) (s lo hi : Nat) (b : Nat × Nat),
    let nan (x : Nat) : Prop := g.valueFmt ≠ 1 ∧ floatVal .fp32 x = .nan
    let lt (x y : Nat) : Prop := if g.valueFmt = 1 then sext 64 x < sext 64 y else Val.lt (floatVal .fp32 x) (floatVal .fp32 y) = true
    let le (x y : Nat) : Prop := if g.valueFmt = 1 then sext 64 x ≤ sext 64 y else Val.le (floatVal .fp32 x) (floatVal .fp32 y) = true
    (nan s ∨ nan lo ∨ nan hi ∨ lt b.2 b.1 → decisive g s lo hi b = none) ∧
    (¬(nan s ∨ nan lo ∨ nan hi ∨ lt b.2 b.1) → g.sense = 0 → ¬(lt g.threshold lo ∧ le hi g.threshold) →
      (decisive g s lo hi b = some true ↔ lt g.threshold lo) ∧ (decisive g s lo hi b = some false ↔ le hi g.threshold)) ∧
    (¬(nan s ∨ nan lo ∨ nan hi ∨ lt b.2 b.1) → g.sense = 1 → ¬(le g.threshold lo ∧ lt hi g.threshold) →
      (decisive g s lo hi b = some true ↔ le g.threshold lo) ∧ (decisive g s lo hi b = some false ↔ lt hi g.threshold))

/-- What a test does (R242, R250, R254): a record that a test prunes has every round in flight squashed and takes no other, its
accumulators untouched; where PRUNE is clear, or the record takes no further round, the test does nothing. -/
def Obligations.PruningRule : Prop :=
  (∀ (pr : Pair) (first tail : Bool) (r : Nat) (c : Core) (x : Ctx), x.pruned = none →
    (testPoint pr first tail r c x).2.pruned ≠ none →
    (testPoint pr first tail r c x).2.skips = true ∧ (∀ y ∈ (testPoint pr first tail r c x).2.rounds, y.squashed = true) ∧
    (testPoint pr first tail r c x).1.acc = c.acc) ∧
  (∀ (pr : Pair) (first tail : Bool) (r : Nat) (c : Core) (x : Ctx), pr.info.prune = false ∨ x.skips = true →
    testPoint pr first tail r c x = (c, x))

/-! ### Records on their way out -/

/-- Sum packets (R165, R195 to R200): a core that is through with a record sends its packet to the next core, whose lane has room; the next
core takes it into the oldest context that awaits one, once every check of it holds, and acknowledges the sender; a packet that
fails a check is counted and charged to the core that sent it, and no value is ever taken from it.
Where the spec leaves a point open the model's choice shows: log entry 44. -/
def Obligations.SumPackets : Prop :=
  (∀ (n : Fin 256) (pid k : Nat) (p : Plot) (x : Ctx) (pr : Pair) (s : State), plotGoes s n.val pid p →
    (s.dev.core n.val).ctxs.find? (fun y => y.hasBins && !y.sent) = some x → (s.dev.core n.val).pairOf x = some pr →
    p.isTail n.val = false → x.over pr.rounds = true → p.isFirst n.val = true ∨ x.inSum.isSome = true → p.after n.val = some k → k ≠ n.val →
    s.dev.laneRoom k n.val false (sumSize pr.info) = true →
    ∃ t, Machine.exec (.sumPacketSend n) s = .next t ∧ t = { s with dev := { s.dev with cores := t.dev.cores } } ∧
      (t.dev.core k).sumLane = (s.dev.core k).sumLane ++
        [⟨false, (finalPacket pr (p.isFirst n.val) x (s.dev.core n.val)).2.bytes, false, n.val, false⟩] ∧
      (∀ y ∈ (t.dev.core n.val).ctxs, y.row = x.row → y.sent = true) ∧ ∀ m, m ≠ n.val → m ≠ k → t.dev.core m = s.dev.core m) ∧
  (∀ (n : Fin 256) (pid : Nat) (p : Plot) (m : SumMsg) (rest : List SumMsg) (x : Ctx) (pr : Pair) (s : State), plotGoes s n.val pid p →
    (s.dev.core n.val).sumLane = m :: rest → m.reduction = false → (s.dev.core n.val).awaiting = some x →
    (s.dev.core n.val).pairOf x = some pr → sumChecks pr.info x m.bytes = true → m.failed = false →
    (m.remote = true → ∀ i, (s.dev.port i).rx = []) →
    ∃ t, Machine.exec (.sumPacketTake n .clean) s = .next t ∧ t = { s with dev := { s.dev with cores := t.dev.cores } } ∧
      (t.dev.core n.val).sumLane = rest ∧ (t.dev.core n.val).regs.sumsIn = (s.dev.core n.val).regs.sumsIn + 1 ∧
      ∀ k, k ≠ n.val → m.remote = true ∨ k ≠ m.sender → t.dev.core k = s.dev.core k) ∧
  (∀ (n : Fin 256) (pid : Nat) (p : Plot) (m : SumMsg) (rest : List SumMsg) (x : Ctx) (pr : Pair) (s : State), plotGoes s n.val pid p →
    (s.dev.core n.val).sumLane = m :: rest → m.reduction = false → (s.dev.core n.val).awaiting = some x →
    (s.dev.core n.val).pairOf x = some pr → sumChecks pr.info x m.bytes = false → m.remote = false →
    m.failed = false →
    ∃ t, Machine.exec (.sumPacketTake n .clean) s = .next t ∧
      t = { s with dev := { s.dev with cores := t.dev.cores, detected := s.dev.detected ++
        [⟨m.sender, stSumPacketCheck, 6, [], some x.recordId, 0⟩] } } ∧
      (t.dev.core n.val).sumLane = { m with failed := true } :: rest ∧ (t.dev.core n.val).ctxs = (s.dev.core n.val).ctxs) ∧
  (∀ (n : Fin 256) (pid : Nat) (p : Plot) (m : SumMsg) (rest : List SumMsg) (s : State), plotGoes s n.val pid p →
    (s.dev.core n.val).sumLane = m :: rest → m.failed = true → Machine.exec (.sumPacketTake n .clean) s = .next s) ∧
  (∀ (g : GroveInfo) (x : Ctx) (b : Bytes), sumChecks g x b = true → (parseSum b).recordId = x.recordId ∧ (parseSum b).ecv = x.ecv ∧
    (parseSum b).version = g.version ∧ (parseSum b).k = g.outputs)

/-- The key-gather bag of a leaf-key block (R326, R327): the block leaves the core's queue; where its source gathers keys its bag is pooled
and written, else nothing follows.
The finisher's pass over the oldest record of the tail that is through (R22, R214, R228): the record's context has a result, which bears
its record ID and its ECV; memory and the other cores stand. -/
def Obligations.KeyBagsAndFinisher : Prop :=
  (∀ (n : Fin 256) (env : Env) (blk : KeyBlock) (rest : List KeyBlock) (s : State), s.live = true →
     (s.dev.core n.val).keyBlocks = blk :: rest → codeMet env = none →
     let d := s.dev.updCore n.val fun c => { c with keyBlocks := rest }
     (∀ pid p f kg, d.plotOf n.val = some (pid, p) → d.feed blk.src = some f → f.keyGather = some kg →
       Machine.exec (.keyGatherBag n env) s = .next (withDev s
         (poolKeys n.val (p.cores.takeWhile (· ≠ n.val)).length p.cores.length env f kg blk d))) ∧
     ((∀ f, d.feed blk.src = some f → f.keyGather = none) → Machine.exec (.keyGatherBag n env) s = .next (withDev s d)) ∧
     (∀ (e : Dev) (a : Nat) (pooled : Bytes) (range bad : Bool) (o : Nat), addrDevice a = e.deviceId → a % 2 ^ 40 + 16 + pooled.length < 2 ^ 40 →
       o < addrLocal a ∨ addrLocal a + 16 + pooled.length ≤ o → 16 ≤ blk.bytes.length →
       (writeBagSlot e 0 a blk.bytes pooled range bad).localByte o = e.localByte o)) ∧
  (∀ (n : Fin 256) (env : Env) (pid : Nat) (p : Plot) (x : Ctx) (pr : Pair) (f : FinBlock) (s : State), plotGoes s n.val pid p →
     (s.dev.core n.val).ctxs.find? (fun y => y.hasBins && y.result.isNone) = some x → (s.dev.core n.val).pairOf x = some pr →
     pr.fin = some f → p.isTail n.val = true → x.over pr.rounds = true → p.isFirst n.val = true ∨ x.inSum.isSome = true →
     Machine.exec (.finisherPass n env) s = .next (withDev s (finishRecord s.dev env n.val pid p pr f x)) ∧
     (∀ m, m ≠ n.val → (finishRecord s.dev env n.val pid p pr f x).core m = s.dev.core m) ∧
     (finishRecord s.dev env n.val pid p pr f x).mem = s.dev.mem ∧
     ∀ y ∈ ((finishRecord s.dev env n.val pid p pr f x).core n.val).ctxs, y.row = x.row →
       y.result.isSome = true ∧ y.sent = true ∧ ∀ r, y.result = some r → r.recordId = x.recordId ∧ r.ecv = x.ecv)

/-- Egress (R230 to R233): it takes a result only in its stream's order and only where its destination has room; one that keeps its check is
delivered, one that does not is a fault of the tail. -/
def Obligations.EgressInOrder : Prop :=
  (∀ (room : Ctx → Bool) (xs : List Ctx) (x : Ctx), pickResult room [] xs = some x →
    x ∈ xs ∧ x.result.isSome = true ∧ room x = true ∧ x.acked = false ∧
    ∀ y ∈ xs.takeWhile (· ≠ x), y.hasBins = true → y.src = x.src → y.stream = x.stream → y.acked = true ∨ y.packed = true) ∧
  (∀ (n : Fin 256) (env : Env) (pid : Nat) (p : Plot) (x : Ctx) (r : ResultRec) (s : State), plotGoes s n.val pid p → p.isTail n.val = true →
    pickResult (resultRoom s.dev) [] (s.dev.core n.val).ctxs = some x → x.result = some r →
    (resultOk p x r.bytes = true → Machine.exec (.egressWrite n .clean env) s =
      .next (withDev s (deliverResult s.dev env n.val pid p x r.bytes))) ∧
    (resultOk p x r.bytes = false → ∃ t, Machine.exec (.egressWrite n .clean env) s = .next t ∧
      t = { s with dev := { s.dev with cores := t.dev.cores, detected := s.dev.detected ++
        [⟨n.val, stResultCheckFault, 7, [], some x.recordId, 0⟩] } } ∧ (t.dev.core n.val).ctxs = (s.dev.core n.val).ctxs)) ∧
  (∀ (d : Dev) (pid stream seq : Nat) (p : Plot) (src : Src) (st : Status) (nf : NFlags), p.startsHere = true → d.plot pid = some p →
    (acceptRecord d pid p src stream seq st nf).plot pid = some { p with
      replay := p.replay.filter (fun r => !(r.src = src && r.stream = stream && r.seq = seq)) })

/-! ### Grafts -/

/-- The graft marker on its way to the cores (R268 to R271, R277, R283): the arbiter places it with the switch points of the streams that are
open, in every head, or at the entry where the plot must drain; a head passes it on once it has binned every record before it,
switching its tables where the graft is hitless; the first core takes it from every head and forwards one.
The marker at a core (R269, R272, R276, R282, R284, R418): a core whose shadow pair is ready for it switches its active pair for new
records, leaves every admitted record its own pair, and passes the marker on where the next lane has room; a core with no GRAFT for it holds it, and lets it go
once there is one; a marker that fails its check is charged to the core that sent it.
Where the spec leaves a point open the model's choice shows: log entries 32 and 44. -/
def Obligations.GraftMarkers : Prop :=
  ((∀ (pid : Fin 256) (p : Plot) (g : GraftState) (s : State), s.live = true → s.dev.plot pid.val = some p → p.graft = some g →
     g.placed = false → p.startsHere = true → p.restart = .none → p.held = false →
     let m := p.marker pid.val g
     (g.drain = true → Machine.exec (.graftMarkerPlace pid) s = .next (withDev s (s.dev.setPlot pid.val
       { p.noteMarks p.openStreams with graft := some { g with placed := true }, entryMarker := some m, lastMark := some m }))) ∧
     (g.drain = false → p.heads.Nodup → ∃ t, Machine.exec (.graftMarkerPlace pid) s = .next t ∧ scoringOnly s t ∧
       t.dev.plot pid.val = some { p.noteMarks p.openStreams with
         graft := some { g with placed := true }, entryMarker := none, lastMark := some m } ∧
       (∀ h ∈ p.heads, t.dev.core h = { s.dev.core h with headQueue := (s.dev.core h).headQueue ++ [.marker m] }) ∧
       ∀ h, h ∉ p.heads → t.dev.core h = s.dev.core h) ∧
     m.entries = p.openStreams ∧ m.newVersion = g.newVersion ∧ m.oldVersion = g.oldVersion ∧ m.kind = (if g.drain then 1 else 0)) ∧
   (∀ (p : Plot) (n q : Nat), (n, q) ∈ p.openStreams ↔ n < 64 ∧ (Tbl.get {} n p.streams : Stream).src ≠ none ∧
     q = (Tbl.get {} n p.streams : Stream).next) ∧
   (∀ (n : Fin 256) (m : Marker) (rest : List HeadIn) (s : State), coreGoes s n.val → (s.dev.core n.val).headQueue = .marker m :: rest →
     (s.dev.core n.val).headWork = [] →
     Machine.exec (.markerAtHead n) s = coreStep s n.val fun c => { c with
       headQueue := rest, headOut := c.headOut ++ [.marker m.bytes false n.val]
       sieveActive := if m.kind = 0 then c.sieveShadow else c.sieveActive
       sieveShadow := if m.kind = 0 then c.sieveActive else c.sieveShadow }) ∧
   (∀ (n : Fin 256) (pid : Nat) (p : Plot) (b : Bytes) (s : State), plotGoes s n.val pid p → p.isFirst n.val = true → p.heads.Nodup →
     (∀ h ∈ p.heads, s.dev.stopped h = false ∧ (s.dev.core h).markerOut.isSome = true) →
     (p.heads.head?.bind fun h => (s.dev.core h).markerOut) = some b →
     ∃ t, Machine.exec (.markerAtFirstCore n) s = .next t ∧ t = { s with dev := { s.dev with cores := t.dev.cores } } ∧
       (∀ h ∈ p.heads, (t.dev.core h).headOut = (s.dev.core h).headOut.drop 1) ∧
       (t.dev.core n.val).binLane = (s.dev.core n.val).binLane ++ [.marker b false (p.heads.headD n.val)] ∧
       ∀ m, m ≠ n.val → m ∉ p.heads → t.dev.core m = s.dev.core m)) ∧
  ((∀ (n : Fin 256) (pid sender : Nat) (p : Plot) (b : Bytes) (remote : Bool) (rest : List BinMsg) (s : State), plotGoes s n.val pid p →
     (s.dev.core n.val).binLane = .marker b remote sender :: rest → p.heldCore ≠ some n.val → (s.dev.core n.val).atMarker = true →
     markerOk b = true → canPass s.dev p n.val (parseMarker b) = true → p.after n.val ≠ some n.val →
     s.dev.nextRoom p n.val true b.length = true → (256 ≤ sender → ∀ i, (s.dev.port i).rx = []) →
     ∃ t, Machine.exec (.coreSwitch n .clean) s = .next t ∧ scoringOnly s t ∧
       (t.dev.core n.val).active = (if passesBy p (s.dev.core n.val) (parseMarker b) then (s.dev.core n.val).active
         else 1 - (s.dev.core n.val).active) ∧
       (t.dev.core n.val).ctxs = (s.dev.core n.val).ctxs ∧ (t.dev.core n.val).pair0 = (s.dev.core n.val).pair0 ∧
       (t.dev.core n.val).pair1 = (s.dev.core n.val).pair1 ∧ (t.dev.core n.val).binLane = rest ∧
       (t.dev.core n.val).regs.graftSwitches = (s.dev.core n.val).regs.graftSwitches + 1 ∧
       (∀ k, p.after n.val = some k → (t.dev.core k).binLane = (s.dev.core k).binLane ++ [.marker b false n.val])) ∧
   (∀ (n : Fin 256) (pid sender : Nat) (p : Plot) (b : Bytes) (remote : Bool) (rest : List BinMsg) (s : State), plotGoes s n.val pid p →
     (s.dev.core n.val).binLane = .marker b remote sender :: rest → p.heldCore ≠ some n.val → (s.dev.core n.val).atMarker = true →
     markerOk b = true → canPass s.dev p n.val (parseMarker b) = false → graftDiffers p n.val (parseMarker b) = none →
     ∃ t, Machine.exec (.coreSwitch n .clean) s = .next t ∧
       t = { s with dev := { s.dev with cores := t.dev.cores, plots := t.dev.plots } } ∧
       t.dev.core n.val = { s.dev.core n.val with markVersion := (parseMarker b).newVersion, markMismatch := false } ∧
       t.dev.plot pid = some { p with heldCore := some n.val, state := if p.state = .grafting then .held else p.state }) ∧
   (∀ (n : Fin 256) (pid : Nat) (p : Plot) (b : Bytes) (remote : Bool) (sender : Nat) (rest : List BinMsg) (s : State),
     plotGoes s n.val pid p → (s.dev.core n.val).binLane = .marker b remote sender :: rest → p.heldCore = some n.val →
     (canPass s.dev p n.val (parseMarker b) = true → s.dev.nextRoom p n.val true b.length = true →
       Machine.exec (.heldMarkerRelease n) s = .next (withDev s ((switchCore s.dev pid p n.val (parseMarker b) b).refill sender)) ∧
       ∃ q, (switchCore s.dev pid p n.val (parseMarker b) b).plot pid = some q ∧ q.heldCore = none ∧
         q.state = (if p.state = .held then .grafting else p.state)) ∧
     (canPass s.dev p n.val (parseMarker b) = false ∨ s.dev.nextRoom p n.val true b.length = false →
       Machine.exec (.heldMarkerRelease n) s = .next s)) ∧
   (∀ (n : Fin 256) (pid sender : Nat) (p : Plot) (b : Bytes) (rest : List BinMsg) (s : State), plotGoes s n.val pid p →
     (s.dev.core n.val).binLane = .marker b false sender :: rest → p.heldCore ≠ some n.val → (s.dev.core n.val).atMarker = true →
     markerOk b = false →
     ∃ t, Machine.exec (.coreSwitch n .clean) s = .next t ∧ t = { s with dev := { s.dev with cores := t.dev.cores, detected :=
       s.dev.detected ++ [⟨sender, stSumPacketCheck, 6, [], none, 0⟩] } }))

/-- The end of a graft (R264, R275, R277, R282, R283): once the marker has passed every core and no record of the old grove is left, the new
grove is the active one and the old the shadow, the graft is counted, and the descriptor ends; a drain-and-swap swaps only when the
plot is empty, and ends with GRAFT_DRAINED.
Where the spec leaves a point open the model's choice shows: log entry 32. -/
def Obligations.GraftsEnd : Prop :=
  (∀ (pid : Fin 256) (p : Plot) (g : GraftState) (s : State), s.live = true → s.dev.plot pid.val = some p → p.graft = some g →
    p.markerThrough g = true →
    (g.drain = false → (∀ n ∈ p.cores, (s.dev.core n).oldContexts = 0) →
      ∃ t, Machine.exec (.graftComplete pid) s = .next t ∧
        t = { s with dev := { s.dev with plots := t.dev.plots, jobs := (s.dev.finishJob g.job 0).jobs } } ∧
        t.dev.plot pid.val = some { p with
          state := .ready, activeGrove := p.shadowGrove, shadowGrove := p.activeGrove, graft := none, entryMarker := none
          grafts := p.grafts + 1, lastDrained := false, switchMoved := g.moved }) ∧
    (g.drain = true →
      ∃ t, Machine.exec (.graftComplete pid) s = .next t ∧
        t = { s with dev := { s.dev with plots := t.dev.plots, jobs := (s.dev.finishJob g.job stGraftDrained).jobs } } ∧
        t.dev.plot pid.val = some { p with
          state := if p.activeGrove.isSome then (if p.shadowGrove.isSome then .ready else .active)
            else if p.shadowGrove.isSome then .staged else .empty
          graft := none, entryMarker := none, grafts := p.grafts + 1, lastDrained := true, drained := p.drained + 1
          switchMoved := g.moved })) ∧
  (∀ (pid : Fin 256) (p : Plot) (g : GraftState) (s : State), s.dev.plot pid.val = some p → p.graft = some g →
    p.markerThrough g = false ∨ (g.drain = false ∧ ∃ n ∈ p.cores, (s.dev.core n).oldContexts ≠ 0) →
    Machine.exec (.graftComplete pid) s = .next s) ∧
  (∀ (pid : Fin 256) (p : Plot) (g : GraftState) (m : Marker) (s : State), s.live = true → s.dev.plot pid.val = some p →
    p.graft = some g → p.entryMarker = some m → g.drain = true → p.restart = .none →
    (p.empty' s.dev = true → ∃ t q, Machine.exec (.drainAndSwap pid) s = .next t ∧ scoringOnly s t ∧ t.dev.plot pid.val = some q ∧
      q.activeGrove = p.shadowGrove ∧ q.shadowGrove = (if g.keepOld then p.activeGrove else none) ∧ q.entryMarker = none ∧
      q.graft = some { g with released := true } ∧ q.replay = p.replay) ∧
    (p.empty' s.dev = false → Machine.exec (.drainAndSwap pid) s = .next s)) ∧
  (∀ (p : Plot) (d : Dev), p.empty' d = true → ∀ n ∈ p.cores, (d.core n).ctxs = [] ∧ (d.core n).headQueue = [] ∧ (d.core n).binLane = [])

/-! ### Fences, restarts, replays -/

/-- FENCE (R416, R420, R429 to R431, R437, R443): the core that the fault names is fenced with its cause, what it held is gone, the fence is
counted over the module's life, its plot stops for re-placement, and memory stands; a fault of a core fenced before is reported
only; without a fault nothing happens.
Re-placement (R430, R433 to R435): a plot with a fenced core takes new slices in the cores that are left, and is ACTIVE again, its
fences reported; where its slices do not fit it fails, and its intake stays held.
Where the spec leaves a point open the model's choice shows: log entries 27 and 33. -/
def Obligations.FencesAndRePlacement : Prop :=
  ((∀ (n : Fin 256) (u : Upset) (f : Detected) (s : State), s.live = true → faultOf s.dev n.val u = some f → f.core = n.val →
     (s.dev.core n.val).fenced = false →
     ∃ t, Machine.exec (.fence n u) s = .next t ∧ t.pending = s.pending ∧
       t.mc = { s.mc with fences := Tbl.upd 0 n.val (· + 1) s.mc.fences } ∧
       (t.dev.core n.val).fenced = true ∧ (t.dev.core n.val).cause = f.status ∧ (t.dev.core n.val).ctxs = [] ∧
       (t.dev.core n.val).tiles = [] ∧ (t.dev.core n.val).acc = [] ∧ (t.dev.core n.val).headQueue = [] ∧
       (t.dev.core n.val).sumLane = [] ∧ t.dev.err.status.getLsbD 1 = true ∧ t.dev.mem = s.dev.mem ∧
       ∀ pid p, s.dev.plotOf n.val = some (pid, p) → s.dev.plot pid = some p →
         ∃ q, t.dev.plot pid = some q ∧ q.restart ≠ .none ∧ q.graft = none ∧ q.replay = p.replay) ∧
   (∀ (n : Fin 256) (u : Upset) (f : Detected) (s : State), s.live = true → faultOf s.dev n.val u = some f → f.core = n.val →
     (s.dev.core n.val).fenced = true →
     ∃ t, Machine.exec (.fence n u) s = .next t ∧ t.mc = s.mc ∧ t.dev.cores = s.dev.cores ∧ t.dev.plots = s.dev.plots ∧
       t.dev.err.seqNext = s.dev.err.seqNext + 1) ∧
   (∀ (n : Fin 256) (u : Upset) (s : State), faultOf s.dev n.val u = none → Machine.exec (.fence n u) s = .next s) ∧
   (∀ (d : Dev) (n : Nat) (u : Upset) (f : Detected), faultOf d n u = some f → f.core = n)) ∧
  ((∀ (pid : Fin 256) (env : Env) (p p' : Plot) (g : Grove) (s : State), s.live = true → s.dev.plot pid.val = some p →
     fencedIn s.dev p ≠ [] → p.restart ≠ .failed → p.activeGrove = some g →
     (patchAll s.dev pid.val (fencedIn s.dev p)).1.plot pid.val = some p' →
     let d := (patchAll s.dev pid.val (fencedIn s.dev p)).1
     let ss := newSlices g (sliceTable p g) p'.cores (fencedIn s.dev p)
     let fits := p'.cores ≠ [] ∧ (patchAll s.dev pid.val (fencedIn s.dev p)).2 = true ∧ copyBad env p'.cluster = false ∧
       ∀ x ∈ ss, capacityOk g.info.fold x = true ∧ featuresOk g.info.fold x = true
     (fits → ∃ t q, Machine.exec (.rePlacement pid env) s = .next t ∧ t.mc = s.mc ∧ t.dev.plot pid.val = some q ∧ q.state = .active ∧
       q.fences = [] ∧ q.activeGrove = some { g with slices := ss } ∧ q.shadowGrove = none ∧ q.replay = p'.replay ∧ t.dev.mem = d.mem) ∧
     (¬fits → Machine.exec (.rePlacement pid env) s = .next (withDev s (failReplacement d env pid.val)))) ∧
   (∀ (pid : Fin 256) (env : Env) (p : Plot) (s : State), s.dev.plot pid.val = some p → fencedIn s.dev p = [] →
     Machine.exec (.rePlacement pid env) s = .next s))

/-- Plot restarts and replays (R81, R250, R426, R427, R436): a restart discards what the plot's cores hold and keeps its replay buffer; the
replay passes every unaccepted record to the heads again, in its order, and intake resumes.
The units of a restart (R428, R477): a request reaches the device that heads the plot, which restarts it; a Restart unit squashes the
plot's part on a device and is passed on, or answered at the tail; Restart done lets the head replay.
Where the spec leaves a point open the model's choice shows: log entries 15 and 33. -/
def Obligations.Restarts : Prop :=
  ((∀ (pid : Fin 256) (p : Plot) (s : State), s.live = true → s.dev.restartWait.contains pid.val = true → s.dev.plot pid.val = some p →
     p.startsHere = true → p.endsHere = true → p.restart = .none → p.graft = none →
     ∃ t q, Machine.exec (.plotRestart pid) s = .next t ∧
       t = { s with dev := { s.dev with
         cores := t.dev.cores, plots := t.dev.plots, ports := t.dev.ports, remoteResults := t.dev.remoteResults,
         restartWait := s.dev.restartWait.filter (· ≠ pid.val) } } ∧
       t.dev.plot pid.val = some q ∧ q = { p.moveLast with rotHead := 0, rotAccept := 0, heldCore := none, restart := .stopped false false } ∧
       (∀ n ∈ p.cores, (s.dev.core n).fenced = false → (t.dev.core n).ctxs = [] ∧ (t.dev.core n).headQueue = [] ∧
         (t.dev.core n).headWork = [] ∧ (t.dev.core n).acc = (s.dev.core n).acc) ∧
       ∀ n, n ∉ p.cores → t.dev.core n = s.dev.core n) ∧
   (∀ (pid : Fin 256) (s : State), s.dev.restartWait.contains pid.val = false → Machine.exec (.plotRestart pid) s = .next s) ∧
   (∀ (pid : Fin 256) (p : Plot) (s : State), s.live = true → s.dev.plot pid.val = some p → p.restart = .stopped false false →
     p.startsHere = true → p.reachable s.dev = true →
     ∃ t q, Machine.exec (.plotReplay pid [] []) s = .next t ∧
       t = { s with dev := { s.dev with cores := t.dev.cores, plots := t.dev.plots, feeds := t.dev.feeds } } ∧ t.dev.plot pid.val = some q ∧
       q = { p with restart := .none, rotHead := p.replay.length % max 1 p.heads.length } ∧
       (∀ i r h, p.replay[i]? = some r → p.heads[i % max 1 p.heads.length]? = some h → .record r ∈ (t.dev.core h).headQueue) ∧
       ∀ f ∈ t.dev.feeds, (∃ r ∈ p.replay, r.src = f.src) → f.fencedRec = true) ∧
   (∀ (pid : Fin 256) (bad ecc : List Nat) (p : Plot) (s : State), s.dev.plot pid.val = some p → p.restart = .none →
     Machine.exec (.plotReplay pid bad ecc) s = .next s) ∧
   (∀ (i : Nat) (bad ecc : List Nat) (r : Rec), (replayRec bad ecc i r).payload = r.payload ∧ (replayRec bad ecc i r).seq = r.seq ∧
     (replayRec bad ecc i r).status = if i ∈ ecc then stEcc else if i ∈ bad then stCheckValue else r.status)) ∧
  ((∀ (pid : Fin 256) (i : Nat) (u : RxUnit) (p : Plot) (s : State), s.live = true → s.dev.findUnit 11 pid.val = some (i, u) →
     s.dev.plot pid.val = some p →
     (p.startsHere = true → Machine.exec (.restartRequest pid) s = .next (withDev s (headRestart (s.dev.takeUnit i u) pid.val p))) ∧
     (p.startsHere = false → Machine.exec (.restartRequest pid) s = .next (withDev s
       (sendUnit (s.dev.takeUnit i u) p.lay.prevDevice 11 pid.val [])))) ∧
   (∀ (pid : Fin 256) (s : State), s.dev.findUnit 11 pid.val = none → Machine.exec (.restartRequest pid) s = .next s) ∧
   (∀ (q : Fin 16) (u : RxUnit) (p : Plot) (s : State), s.live = true → (s.dev.port q.val).rxOf 3 = some u → s.dev.plot u.plot = some p →
     p.restart ≠ .stopped true false → p.graft = none → p.endsHere = true →
     let d := restartGraft (squashPlot (s.dev.takeUnit q.val u) u.plot p true) u.plot
     Machine.exec (.restartUnit q) s = .next (withDev s (Dev.deliverPort
       (sendUnit { d with restartWait := d.restartWait.filter (· ≠ u.plot) } p.lay.prevDevice 15 u.plot []) q.val)) ∧
     ∀ n ∈ p.cores, (s.dev.core n).fenced = false → (d.core n).ctxs = [] ∧ (d.core n).headQueue = []) ∧
   (∀ (q : Fin 16) (u : RxUnit) (p : Plot) (f r : Bool) (s : State), s.live = true → (s.dev.port q.val).rxOf 15 = some u →
     s.dev.plot u.plot = some p →
     (p.startsHere = true → p.restart = .stopped f r →
       Machine.exec (.restartDone q) s = .next (withDev s ((s.dev.takeUnit q.val u).setPlot u.plot { p with restart := .stopped f false }))) ∧
     (p.startsHere = false → Machine.exec (.restartDone q) s = .next (withDev s
       (sendUnit (s.dev.takeUnit q.val u) p.lay.prevDevice 15 u.plot [])))))

/-! ### Training survival -/

/-- The mirror at the partner (R454 to R459): a record that fits goes to the end of its epoch's log, one that does not overflows the epoch; a
close applies the log of its epoch, or asks for a drain; a drain fills slot n mod 2 of the flash and answers; the flash's answer
ends the marks that await it.
Where the spec leaves a point open the model's choice shows: log entry 36. -/
def Obligations.MirrorAtPartner : Prop :=
  (∀ (d : Dev) (e : Nat) (r : Bytes), let l := d.surv.log e
    (l.overflow = true → appendRecord d e r = d) ∧
    (l.overflow = false → mirField d 0x18 8 < l.used + r.length → (appendRecord d e r).mem = d.mem ∧
      ((appendRecord d e r).surv.log e).overflow = true ∧ (appendRecord d e r).surv.status.getLsbD 1 = true) ∧
    (l.overflow = false → l.used + r.length ≤ mirField d 0x18 8 → ((appendRecord d e r).surv.log e).used = l.used + r.length ∧
      (appendRecord d e r).mem = (d.setLocalBytes (logStart d e + l.used) r).mem ∧
      (appendRecord d e r).surv.log (e + 1) = d.surv.log (e + 1))) ∧
  (∀ (p : Fin 16) (u : RxUnit) (s : State), s.live = true → (s.dev.port p.val).rx = [u] → u.kind = 9 →
    let e := field u.body 8 4
    let d := s.dev.takeUnit p.val u
    foreign d u.src = false → mirField d 4 1 = 1 → e ≤ mirField d 0x28 4 + 2 →
    inMirrorRegion d.surv (4096 * d.surv.inStart.toNat + 0x1000 + field u.body 0 8) (field u.body 12 2) = true →
    inMirrorRegion d.surv (logStart d e) (mirField d 0x18 8) = true →
    Machine.exec (.mirrorRecord p) s = .next (withDev s (answerMirror (appendRecord d e u.body) u.src u.plot e false 0))) ∧
  (∀ (p : Fin 16) (hash : BitVec 32) (u : RxUnit) (s : State), s.live = true → (s.dev.port p.val).rx = [u] → u.kind = 10 →
    let e := field u.body 0 4
    let d := s.dev.takeUnit p.val u
    foreign s.dev u.src = false → mirField s.dev 4 1 = 1 → s.dev.surv.drain = none → e ≤ mirField s.dev 0x28 4 + 1 →
    let r := applyEpoch d e (field u.body 8 8) hash.toNat
    Machine.exec (.mirrorClose p hash) s = .next (withDev s
      (if r.2 = false then answerMirror r.1 u.src u.plot e true stMirrorLost
       else if field u.body 4 1 = 1 then { r.1 with surv := { r.1.surv with drain := some (u.src, e, u.plot) } }
       else answerMirror r.1 u.src u.plot e true 0))) ∧
  (∀ (d : Dev) (e step hash : Nat),
    (applyEpoch d e step hash).2 = (decide (e ≤ mirField d 0x28 4) || !(d.surv.log e).overflow) ∧
    (e ≤ mirField d 0x28 4 → (applyEpoch d e step hash).1 = d) ∧
    (mirField d 0x28 4 < e → (applyEpoch d e step hash).1.surv.log e = {})) ∧
  (∀ (src e plot : Nat) (s : State), s.live = true → s.dev.surv.drain = some (src, e, plot) →
    ∃ t, Machine.exec .mirrorDrain s = .next t ∧
      t = { s with dev := { s.dev with
        flash := t.dev.flash, surv := { s.dev.surv with drain := none }, ports := t.dev.ports, out := t.dev.out } } ∧
      t.dev.flash.drains = s.dev.flash.drains + 1 ∧ (t.dev.flash.slot ((s.dev.flash.drains + 1) % 2)).valid = true ∧
      (t.dev.flash.slot ((s.dev.flash.drains + 1) % 2)).epoch = mirField s.dev 0x28 4 ∧
      t.dev.flash.slot (s.dev.flash.drains % 2) = s.dev.flash.slot (s.dev.flash.drains % 2) ∧ t.dev.flash.logArea = s.dev.flash.logArea) ∧
  (∀ s : State, s.dev.surv.drain = none → Machine.exec .mirrorDrain s = .next s) ∧
  (∀ s : State, s.live = true → ∃ t, Machine.exec .flashPoll s = .next t ∧ t = { s with dev := { s.dev with jobs := t.dev.jobs } } ∧
    t.dev.jobs.map (·.id) = s.dev.jobs.map (·.id) ∧
    ∀ j ∈ t.dev.jobs, ¬(j.desc.code = 0x34 ∧ markKind j.desc = 0 ∧ j.phase = .active ∧ j.cursor = 1))
end

