-- ==== Sys2Proof/Laws/Links.lean ====
section
/-! SUPPORT. What handing a unit to a link, charging a credit, and a table engine's service can do. -/
namespace Sys2Proof.Machine

/-- Only the ports and the output differ. -/
def LinkOnly (d e : Dev) : Prop := e = { d with ports := e.ports, out := e.out }

theorem LinkOnly.refl (d : Dev) : LinkOnly d d := rfl

theorem LinkOnly.trans {d e f : Dev} (h : LinkOnly d e) (k : LinkOnly e f) : LinkOnly d f := by
  unfold LinkOnly at *; rw [k, h]

theorem LinkOnly.foldl {α : Type} {f : Dev → α → Dev} (h : ∀ d x, LinkOnly d (f d x)) (xs : List α) (d : Dev) :
    LinkOnly d (xs.foldl f d) := by
  induction xs generalizing d with
  | nil => exact .refl d
  | cons x xs ih => exact (h d x).trans (ih _)

theorem sendClass_frame (pn : Nat) (d : Dev) (cls : Nat) : LinkOnly d (sendClass pn d cls) := by
  unfold sendClass
  dsimp only
  split
  · rfl
  · split <;> rfl

/-- A link that sends what it can changes the ports and the output alone (R470). -/
theorem pump_frame (d : Dev) (pn : Nat) : LinkOnly d (pump d pn) :=
  .foldl (fun d _ => .foldl (sendClass_frame pn) _ d) _ d

/-- A unit handed to a link changes the ports and the output alone; where no route is usable, nothing (R469, R474). -/
theorem sendUnit_frame (d : Dev) (dst kind plot : Nat) (body : Bytes) (sender : TxSender) :
    LinkOnly d (sendUnit d dst kind plot body sender) := by
  unfold sendUnit
  split
  · rfl
  · exact LinkOnly.trans (e := d.updPort _ _) rfl (pump_frame _ _)

/-- A read of this device's own memory asks no other device (R24). -/
theorem askRead_local {d : Dev} {a : Nat} (n : Nat) (h : a / 2 ^ 40 % 2 ^ 12 = d.deviceId) : d.askRead a n = d := if_pos h

/-- A credit charged changes its channel's credits alone (R378). -/
theorem chargeLink_frame (d : Dev) (c : Nat) : chargeLink d c = { d with chans := (chargeLink d c).chans } := rfl

/-- A request that no illegal code meets is served (R416). -/
theorem tabServe_clean {env : Env} (h : codeMet env = none) (f : Dev → Dev) (d : Dev) : tabServe env f d = f d := by simp [tabServe, h]

/-- A request that meets an illegal code resets its engine (R416, R424). -/
theorem tabServe_code {env : Env} {k : Nat} (h : codeMet env = some k) (f : Dev → Dev) (d : Dev) : tabServe env f d = tabCodeFault k d := by
  simp [tabServe, h]

end Sys2Proof.Machine
end

