-- ==== Sys2Proof/Laws/State.lean ====
section
/-! SUPPORT. One lemma for each field of the digital part under each update of it, and for each part of the whole state. -/
namespace Sys2Proof.Machine
namespace Dev

variable (d : Dev)

@[simp] theorem setCore_deviceId (n : Nat) (x : Core) : (d.setCore n x).deviceId = d.deviceId := rfl
@[simp] theorem setCore_layout (n : Nat) (x : Core) : (d.setCore n x).layout = d.layout := rfl
@[simp] theorem setCore_layoutImage (n : Nat) (x : Core) : (d.setCore n x).layoutImage = d.layoutImage := rfl
@[simp] theorem setCore_mem (n : Nat) (x : Core) : (d.setCore n x).mem = d.mem := rfl
@[simp] theorem setCore_cores (n : Nat) (x : Core) : (d.setCore n x).cores = Tbl.set {} n x d.cores := rfl
@[simp] theorem setCore_plots (n : Nat) (x : Core) : (d.setCore n x).plots = d.plots := rfl
@[simp] theorem setCore_feeds (n : Nat) (x : Core) : (d.setCore n x).feeds = d.feeds := rfl
@[simp] theorem setCore_chans (n : Nat) (x : Core) : (d.setCore n x).chans = d.chans := rfl
@[simp] theorem setCore_rrChan (n : Nat) (x : Core) : (d.setCore n x).rrChan = d.rrChan := rfl
@[simp] theorem setCore_inTurn (n : Nat) (x : Core) : (d.setCore n x).inTurn = d.inTurn := rfl
@[simp] theorem setCore_jobs (n : Nat) (x : Core) : (d.setCore n x).jobs = d.jobs := rfl
@[simp] theorem setCore_nextJob (n : Nat) (x : Core) : (d.setCore n x).nextJob = d.nextJob := rfl
@[simp] theorem setCore_events (n : Nat) (x : Core) : (d.setCore n x).events = d.events := rfl
@[simp] theorem setCore_graphs (n : Nat) (x : Core) : (d.setCore n x).graphs = d.graphs := rfl
@[simp] theorem setCore_graphLaunches (n : Nat) (x : Core) : (d.setCore n x).graphLaunches = d.graphLaunches := rfl
@[simp] theorem setCore_taskLast (n : Nat) (x : Core) : (d.setCore n x).taskLast = d.taskLast := rfl
@[simp] theorem setCore_launches (n : Nat) (x : Core) : (d.setCore n x).launches = d.launches := rfl
@[simp] theorem setCore_fecProgress (n : Nat) (x : Core) : (d.setCore n x).fecProgress = d.fecProgress := rfl
@[simp] theorem setCore_windowWrites (n : Nat) (x : Core) : (d.setCore n x).windowWrites = d.windowWrites := rfl
@[simp] theorem setCore_engines (n : Nat) (x : Core) : (d.setCore n x).engines = d.engines := rfl
@[simp] theorem setCore_host (n : Nat) (x : Core) : (d.setCore n x).host = d.host := rfl
@[simp] theorem setCore_err (n : Nat) (x : Core) : (d.setCore n x).err = d.err := rfl
@[simp] theorem setCore_surv (n : Nat) (x : Core) : (d.setCore n x).surv = d.surv := rfl
@[simp] theorem setCore_flash (n : Nat) (x : Core) : (d.setCore n x).flash = d.flash := rfl
@[simp] theorem setCore_ports (n : Nat) (x : Core) : (d.setCore n x).ports = d.ports := rfl
@[simp] theorem setCore_routes (n : Nat) (x : Core) : (d.setCore n x).routes = d.routes := rfl
@[simp] theorem setCore_maxHops (n : Nat) (x : Core) : (d.setCore n x).maxHops = d.maxHops := rfl
@[simp] theorem setCore_pendings (n : Nat) (x : Core) : (d.setCore n x).pendings = d.pendings := rfl
@[simp] theorem setCore_nextTag (n : Nat) (x : Core) : (d.setCore n x).nextTag = d.nextTag := rfl
@[simp] theorem setCore_remoteResults (n : Nat) (x : Core) : (d.setCore n x).remoteResults = d.remoteResults := rfl
@[simp] theorem setCore_detected (n : Nat) (x : Core) : (d.setCore n x).detected = d.detected := rfl
@[simp] theorem setCore_tabs (n : Nat) (x : Core) : (d.setCore n x).tabs = d.tabs := rfl
@[simp] theorem setCore_caches (n : Nat) (x : Core) : (d.setCore n x).caches = d.caches := rfl
@[simp] theorem setCore_rake (n : Nat) (x : Core) : (d.setCore n x).rake = d.rake := rfl
@[simp] theorem setCore_restartWait (n : Nat) (x : Core) : (d.setCore n x).restartWait = d.restartWait := rfl
@[simp] theorem setCore_bar4Base (n : Nat) (x : Core) : (d.setCore n x).bar4Base = d.bar4Base := rfl
@[simp] theorem setCore_badAccess (n : Nat) (x : Core) : (d.setCore n x).badAccess = d.badAccess := rfl
@[simp] theorem setCore_dbgSel (n : Nat) (x : Core) : (d.setCore n x).dbgSel = d.dbgSel := rfl
@[simp] theorem setCore_debugEnable (n : Nat) (x : Core) : (d.setCore n x).debugEnable = d.debugEnable := rfl
@[simp] theorem setCore_debugOn (n : Nat) (x : Core) : (d.setCore n x).debugOn = d.debugOn := rfl
@[simp] theorem setCore_debugEntries (n : Nat) (x : Core) : (d.setCore n x).debugEntries = d.debugEntries := rfl
@[simp] theorem setCore_free (n : Nat) (x : Core) : (d.setCore n x).free = d.free := rfl
@[simp] theorem setCore_out (n : Nat) (x : Core) : (d.setCore n x).out = d.out := rfl

@[simp] theorem updCore_deviceId (n : Nat) (f : Core → Core) : (d.updCore n f).deviceId = d.deviceId := rfl
@[simp] theorem updCore_layout (n : Nat) (f : Core → Core) : (d.updCore n f).layout = d.layout := rfl
@[simp] theorem updCore_layoutImage (n : Nat) (f : Core → Core) : (d.updCore n f).layoutImage = d.layoutImage := rfl
@[simp] theorem updCore_mem (n : Nat) (f : Core → Core) : (d.updCore n f).mem = d.mem := rfl
@[simp] theorem updCore_cores (n : Nat) (f : Core → Core) : (d.updCore n f).cores = Tbl.set {} n (f (d.core n)) d.cores := rfl
@[simp] theorem updCore_plots (n : Nat) (f : Core → Core) : (d.updCore n f).plots = d.plots := rfl
@[simp] theorem updCore_feeds (n : Nat) (f : Core → Core) : (d.updCore n f).feeds = d.feeds := rfl
@[simp] theorem updCore_chans (n : Nat) (f : Core → Core) : (d.updCore n f).chans = d.chans := rfl
@[simp] theorem updCore_rrChan (n : Nat) (f : Core → Core) : (d.updCore n f).rrChan = d.rrChan := rfl
@[simp] theorem updCore_inTurn (n : Nat) (f : Core → Core) : (d.updCore n f).inTurn = d.inTurn := rfl
@[simp] theorem updCore_jobs (n : Nat) (f : Core → Core) : (d.updCore n f).jobs = d.jobs := rfl
@[simp] theorem updCore_nextJob (n : Nat) (f : Core → Core) : (d.updCore n f).nextJob = d.nextJob := rfl
@[simp] theorem updCore_events (n : Nat) (f : Core → Core) : (d.updCore n f).events = d.events := rfl
@[simp] theorem updCore_graphs (n : Nat) (f : Core → Core) : (d.updCore n f).graphs = d.graphs := rfl
@[simp] theorem updCore_graphLaunches (n : Nat) (f : Core → Core) : (d.updCore n f).graphLaunches = d.graphLaunches := rfl
@[simp] theorem updCore_taskLast (n : Nat) (f : Core → Core) : (d.updCore n f).taskLast = d.taskLast := rfl
@[simp] theorem updCore_launches (n : Nat) (f : Core → Core) : (d.updCore n f).launches = d.launches := rfl
@[simp] theorem updCore_fecProgress (n : Nat) (f : Core → Core) : (d.updCore n f).fecProgress = d.fecProgress := rfl
@[simp] theorem updCore_windowWrites (n : Nat) (f : Core → Core) : (d.updCore n f).windowWrites = d.windowWrites := rfl
@[simp] theorem updCore_engines (n : Nat) (f : Core → Core) : (d.updCore n f).engines = d.engines := rfl
@[simp] theorem updCore_host (n : Nat) (f : Core → Core) : (d.updCore n f).host = d.host := rfl
@[simp] theorem updCore_err (n : Nat) (f : Core → Core) : (d.updCore n f).err = d.err := rfl
@[simp] theorem updCore_surv (n : Nat) (f : Core → Core) : (d.updCore n f).surv = d.surv := rfl
@[simp] theorem updCore_flash (n : Nat) (f : Core → Core) : (d.updCore n f).flash = d.flash := rfl
@[simp] theorem updCore_ports (n : Nat) (f : Core → Core) : (d.updCore n f).ports = d.ports := rfl
@[simp] theorem updCore_routes (n : Nat) (f : Core → Core) : (d.updCore n f).routes = d.routes := rfl
@[simp] theorem updCore_maxHops (n : Nat) (f : Core → Core) : (d.updCore n f).maxHops = d.maxHops := rfl
@[simp] theorem updCore_pendings (n : Nat) (f : Core → Core) : (d.updCore n f).pendings = d.pendings := rfl
@[simp] theorem updCore_nextTag (n : Nat) (f : Core → Core) : (d.updCore n f).nextTag = d.nextTag := rfl
@[simp] theorem updCore_remoteResults (n : Nat) (f : Core → Core) : (d.updCore n f).remoteResults = d.remoteResults := rfl
@[simp] theorem updCore_detected (n : Nat) (f : Core → Core) : (d.updCore n f).detected = d.detected := rfl
@[simp] theorem updCore_tabs (n : Nat) (f : Core → Core) : (d.updCore n f).tabs = d.tabs := rfl
@[simp] theorem updCore_caches (n : Nat) (f : Core → Core) : (d.updCore n f).caches = d.caches := rfl
@[simp] theorem updCore_rake (n : Nat) (f : Core → Core) : (d.updCore n f).rake = d.rake := rfl
@[simp] theorem updCore_restartWait (n : Nat) (f : Core → Core) : (d.updCore n f).restartWait = d.restartWait := rfl
@[simp] theorem updCore_bar4Base (n : Nat) (f : Core → Core) : (d.updCore n f).bar4Base = d.bar4Base := rfl
@[simp] theorem updCore_badAccess (n : Nat) (f : Core → Core) : (d.updCore n f).badAccess = d.badAccess := rfl
@[simp] theorem updCore_dbgSel (n : Nat) (f : Core → Core) : (d.updCore n f).dbgSel = d.dbgSel := rfl
@[simp] theorem updCore_debugEnable (n : Nat) (f : Core → Core) : (d.updCore n f).debugEnable = d.debugEnable := rfl
@[simp] theorem updCore_debugOn (n : Nat) (f : Core → Core) : (d.updCore n f).debugOn = d.debugOn := rfl
@[simp] theorem updCore_debugEntries (n : Nat) (f : Core → Core) : (d.updCore n f).debugEntries = d.debugEntries := rfl
@[simp] theorem updCore_free (n : Nat) (f : Core → Core) : (d.updCore n f).free = d.free := rfl
@[simp] theorem updCore_out (n : Nat) (f : Core → Core) : (d.updCore n f).out = d.out := rfl

@[simp] theorem setChan_deviceId (n : Nat) (x : Chan) : (d.setChan n x).deviceId = d.deviceId := rfl
@[simp] theorem setChan_layout (n : Nat) (x : Chan) : (d.setChan n x).layout = d.layout := rfl
@[simp] theorem setChan_layoutImage (n : Nat) (x : Chan) : (d.setChan n x).layoutImage = d.layoutImage := rfl
@[simp] theorem setChan_mem (n : Nat) (x : Chan) : (d.setChan n x).mem = d.mem := rfl
@[simp] theorem setChan_cores (n : Nat) (x : Chan) : (d.setChan n x).cores = d.cores := rfl
@[simp] theorem setChan_plots (n : Nat) (x : Chan) : (d.setChan n x).plots = d.plots := rfl
@[simp] theorem setChan_feeds (n : Nat) (x : Chan) : (d.setChan n x).feeds = d.feeds := rfl
@[simp] theorem setChan_chans (n : Nat) (x : Chan) : (d.setChan n x).chans = Tbl.set {} n x d.chans := rfl
@[simp] theorem setChan_rrChan (n : Nat) (x : Chan) : (d.setChan n x).rrChan = d.rrChan := rfl
@[simp] theorem setChan_inTurn (n : Nat) (x : Chan) : (d.setChan n x).inTurn = d.inTurn := rfl
@[simp] theorem setChan_jobs (n : Nat) (x : Chan) : (d.setChan n x).jobs = d.jobs := rfl
@[simp] theorem setChan_nextJob (n : Nat) (x : Chan) : (d.setChan n x).nextJob = d.nextJob := rfl
@[simp] theorem setChan_events (n : Nat) (x : Chan) : (d.setChan n x).events = d.events := rfl
@[simp] theorem setChan_graphs (n : Nat) (x : Chan) : (d.setChan n x).graphs = d.graphs := rfl
@[simp] theorem setChan_graphLaunches (n : Nat) (x : Chan) : (d.setChan n x).graphLaunches = d.graphLaunches := rfl
@[simp] theorem setChan_taskLast (n : Nat) (x : Chan) : (d.setChan n x).taskLast = d.taskLast := rfl
@[simp] theorem setChan_launches (n : Nat) (x : Chan) : (d.setChan n x).launches = d.launches := rfl
@[simp] theorem setChan_fecProgress (n : Nat) (x : Chan) : (d.setChan n x).fecProgress = d.fecProgress := rfl
@[simp] theorem setChan_windowWrites (n : Nat) (x : Chan) : (d.setChan n x).windowWrites = d.windowWrites := rfl
@[simp] theorem setChan_engines (n : Nat) (x : Chan) : (d.setChan n x).engines = d.engines := rfl
@[simp] theorem setChan_host (n : Nat) (x : Chan) : (d.setChan n x).host = d.host := rfl
@[simp] theorem setChan_err (n : Nat) (x : Chan) : (d.setChan n x).err = d.err := rfl
@[simp] theorem setChan_surv (n : Nat) (x : Chan) : (d.setChan n x).surv = d.surv := rfl
@[simp] theorem setChan_flash (n : Nat) (x : Chan) : (d.setChan n x).flash = d.flash := rfl
@[simp] theorem setChan_ports (n : Nat) (x : Chan) : (d.setChan n x).ports = d.ports := rfl
@[simp] theorem setChan_routes (n : Nat) (x : Chan) : (d.setChan n x).routes = d.routes := rfl
@[simp] theorem setChan_maxHops (n : Nat) (x : Chan) : (d.setChan n x).maxHops = d.maxHops := rfl
@[simp] theorem setChan_pendings (n : Nat) (x : Chan) : (d.setChan n x).pendings = d.pendings := rfl
@[simp] theorem setChan_nextTag (n : Nat) (x : Chan) : (d.setChan n x).nextTag = d.nextTag := rfl
@[simp] theorem setChan_remoteResults (n : Nat) (x : Chan) : (d.setChan n x).remoteResults = d.remoteResults := rfl
@[simp] theorem setChan_detected (n : Nat) (x : Chan) : (d.setChan n x).detected = d.detected := rfl
@[simp] theorem setChan_tabs (n : Nat) (x : Chan) : (d.setChan n x).tabs = d.tabs := rfl
@[simp] theorem setChan_caches (n : Nat) (x : Chan) : (d.setChan n x).caches = d.caches := rfl
@[simp] theorem setChan_rake (n : Nat) (x : Chan) : (d.setChan n x).rake = d.rake := rfl
@[simp] theorem setChan_restartWait (n : Nat) (x : Chan) : (d.setChan n x).restartWait = d.restartWait := rfl
@[simp] theorem setChan_bar4Base (n : Nat) (x : Chan) : (d.setChan n x).bar4Base = d.bar4Base := rfl
@[simp] theorem setChan_badAccess (n : Nat) (x : Chan) : (d.setChan n x).badAccess = d.badAccess := rfl
@[simp] theorem setChan_dbgSel (n : Nat) (x : Chan) : (d.setChan n x).dbgSel = d.dbgSel := rfl
@[simp] theorem setChan_debugEnable (n : Nat) (x : Chan) : (d.setChan n x).debugEnable = d.debugEnable := rfl
@[simp] theorem setChan_debugOn (n : Nat) (x : Chan) : (d.setChan n x).debugOn = d.debugOn := rfl
@[simp] theorem setChan_debugEntries (n : Nat) (x : Chan) : (d.setChan n x).debugEntries = d.debugEntries := rfl
@[simp] theorem setChan_free (n : Nat) (x : Chan) : (d.setChan n x).free = d.free := rfl
@[simp] theorem setChan_out (n : Nat) (x : Chan) : (d.setChan n x).out = d.out := rfl

@[simp] theorem updChan_deviceId (n : Nat) (f : Chan → Chan) : (d.updChan n f).deviceId = d.deviceId := rfl
@[simp] theorem updChan_layout (n : Nat) (f : Chan → Chan) : (d.updChan n f).layout = d.layout := rfl
@[simp] theorem updChan_layoutImage (n : Nat) (f : Chan → Chan) : (d.updChan n f).layoutImage = d.layoutImage := rfl
@[simp] theorem updChan_mem (n : Nat) (f : Chan → Chan) : (d.updChan n f).mem = d.mem := rfl
@[simp] theorem updChan_cores (n : Nat) (f : Chan → Chan) : (d.updChan n f).cores = d.cores := rfl
@[simp] theorem updChan_plots (n : Nat) (f : Chan → Chan) : (d.updChan n f).plots = d.plots := rfl
@[simp] theorem updChan_feeds (n : Nat) (f : Chan → Chan) : (d.updChan n f).feeds = d.feeds := rfl
@[simp] theorem updChan_chans (n : Nat) (f : Chan → Chan) : (d.updChan n f).chans = Tbl.set {} n (f (d.chan n)) d.chans := rfl
@[simp] theorem updChan_rrChan (n : Nat) (f : Chan → Chan) : (d.updChan n f).rrChan = d.rrChan := rfl
@[simp] theorem updChan_inTurn (n : Nat) (f : Chan → Chan) : (d.updChan n f).inTurn = d.inTurn := rfl
@[simp] theorem updChan_jobs (n : Nat) (f : Chan → Chan) : (d.updChan n f).jobs = d.jobs := rfl
@[simp] theorem updChan_nextJob (n : Nat) (f : Chan → Chan) : (d.updChan n f).nextJob = d.nextJob := rfl
@[simp] theorem updChan_events (n : Nat) (f : Chan → Chan) : (d.updChan n f).events = d.events := rfl
@[simp] theorem updChan_graphs (n : Nat) (f : Chan → Chan) : (d.updChan n f).graphs = d.graphs := rfl
@[simp] theorem updChan_graphLaunches (n : Nat) (f : Chan → Chan) : (d.updChan n f).graphLaunches = d.graphLaunches := rfl
@[simp] theorem updChan_taskLast (n : Nat) (f : Chan → Chan) : (d.updChan n f).taskLast = d.taskLast := rfl
@[simp] theorem updChan_launches (n : Nat) (f : Chan → Chan) : (d.updChan n f).launches = d.launches := rfl
@[simp] theorem updChan_fecProgress (n : Nat) (f : Chan → Chan) : (d.updChan n f).fecProgress = d.fecProgress := rfl
@[simp] theorem updChan_windowWrites (n : Nat) (f : Chan → Chan) : (d.updChan n f).windowWrites = d.windowWrites := rfl
@[simp] theorem updChan_engines (n : Nat) (f : Chan → Chan) : (d.updChan n f).engines = d.engines := rfl
@[simp] theorem updChan_host (n : Nat) (f : Chan → Chan) : (d.updChan n f).host = d.host := rfl
@[simp] theorem updChan_err (n : Nat) (f : Chan → Chan) : (d.updChan n f).err = d.err := rfl
@[simp] theorem updChan_surv (n : Nat) (f : Chan → Chan) : (d.updChan n f).surv = d.surv := rfl
@[simp] theorem updChan_flash (n : Nat) (f : Chan → Chan) : (d.updChan n f).flash = d.flash := rfl
@[simp] theorem updChan_ports (n : Nat) (f : Chan → Chan) : (d.updChan n f).ports = d.ports := rfl
@[simp] theorem updChan_routes (n : Nat) (f : Chan → Chan) : (d.updChan n f).routes = d.routes := rfl
@[simp] theorem updChan_maxHops (n : Nat) (f : Chan → Chan) : (d.updChan n f).maxHops = d.maxHops := rfl
@[simp] theorem updChan_pendings (n : Nat) (f : Chan → Chan) : (d.updChan n f).pendings = d.pendings := rfl
@[simp] theorem updChan_nextTag (n : Nat) (f : Chan → Chan) : (d.updChan n f).nextTag = d.nextTag := rfl
@[simp] theorem updChan_remoteResults (n : Nat) (f : Chan → Chan) : (d.updChan n f).remoteResults = d.remoteResults := rfl
@[simp] theorem updChan_detected (n : Nat) (f : Chan → Chan) : (d.updChan n f).detected = d.detected := rfl
@[simp] theorem updChan_tabs (n : Nat) (f : Chan → Chan) : (d.updChan n f).tabs = d.tabs := rfl
@[simp] theorem updChan_caches (n : Nat) (f : Chan → Chan) : (d.updChan n f).caches = d.caches := rfl
@[simp] theorem updChan_rake (n : Nat) (f : Chan → Chan) : (d.updChan n f).rake = d.rake := rfl
@[simp] theorem updChan_restartWait (n : Nat) (f : Chan → Chan) : (d.updChan n f).restartWait = d.restartWait := rfl
@[simp] theorem updChan_bar4Base (n : Nat) (f : Chan → Chan) : (d.updChan n f).bar4Base = d.bar4Base := rfl
@[simp] theorem updChan_badAccess (n : Nat) (f : Chan → Chan) : (d.updChan n f).badAccess = d.badAccess := rfl
@[simp] theorem updChan_dbgSel (n : Nat) (f : Chan → Chan) : (d.updChan n f).dbgSel = d.dbgSel := rfl
@[simp] theorem updChan_debugEnable (n : Nat) (f : Chan → Chan) : (d.updChan n f).debugEnable = d.debugEnable := rfl
@[simp] theorem updChan_debugOn (n : Nat) (f : Chan → Chan) : (d.updChan n f).debugOn = d.debugOn := rfl
@[simp] theorem updChan_debugEntries (n : Nat) (f : Chan → Chan) : (d.updChan n f).debugEntries = d.debugEntries := rfl
@[simp] theorem updChan_free (n : Nat) (f : Chan → Chan) : (d.updChan n f).free = d.free := rfl
@[simp] theorem updChan_out (n : Nat) (f : Chan → Chan) : (d.updChan n f).out = d.out := rfl

@[simp] theorem setPlot_deviceId (n : Nat) (x : Plot) : (d.setPlot n x).deviceId = d.deviceId := rfl
@[simp] theorem setPlot_layout (n : Nat) (x : Plot) : (d.setPlot n x).layout = d.layout := rfl
@[simp] theorem setPlot_layoutImage (n : Nat) (x : Plot) : (d.setPlot n x).layoutImage = d.layoutImage := rfl
@[simp] theorem setPlot_mem (n : Nat) (x : Plot) : (d.setPlot n x).mem = d.mem := rfl
@[simp] theorem setPlot_cores (n : Nat) (x : Plot) : (d.setPlot n x).cores = d.cores := rfl
@[simp] theorem setPlot_plots (n : Nat) (x : Plot) : (d.setPlot n x).plots = Tbl.set none n (some x) d.plots := rfl
@[simp] theorem setPlot_feeds (n : Nat) (x : Plot) : (d.setPlot n x).feeds = d.feeds := rfl
@[simp] theorem setPlot_chans (n : Nat) (x : Plot) : (d.setPlot n x).chans = d.chans := rfl
@[simp] theorem setPlot_rrChan (n : Nat) (x : Plot) : (d.setPlot n x).rrChan = d.rrChan := rfl
@[simp] theorem setPlot_inTurn (n : Nat) (x : Plot) : (d.setPlot n x).inTurn = d.inTurn := rfl
@[simp] theorem setPlot_jobs (n : Nat) (x : Plot) : (d.setPlot n x).jobs = d.jobs := rfl
@[simp] theorem setPlot_nextJob (n : Nat) (x : Plot) : (d.setPlot n x).nextJob = d.nextJob := rfl
@[simp] theorem setPlot_events (n : Nat) (x : Plot) : (d.setPlot n x).events = d.events := rfl
@[simp] theorem setPlot_graphs (n : Nat) (x : Plot) : (d.setPlot n x).graphs = d.graphs := rfl
@[simp] theorem setPlot_graphLaunches (n : Nat) (x : Plot) : (d.setPlot n x).graphLaunches = d.graphLaunches := rfl
@[simp] theorem setPlot_taskLast (n : Nat) (x : Plot) : (d.setPlot n x).taskLast = d.taskLast := rfl
@[simp] theorem setPlot_launches (n : Nat) (x : Plot) : (d.setPlot n x).launches = d.launches := rfl
@[simp] theorem setPlot_fecProgress (n : Nat) (x : Plot) : (d.setPlot n x).fecProgress = d.fecProgress := rfl
@[simp] theorem setPlot_windowWrites (n : Nat) (x : Plot) : (d.setPlot n x).windowWrites = d.windowWrites := rfl
@[simp] theorem setPlot_engines (n : Nat) (x : Plot) : (d.setPlot n x).engines = d.engines := rfl
@[simp] theorem setPlot_host (n : Nat) (x : Plot) : (d.setPlot n x).host = d.host := rfl
@[simp] theorem setPlot_err (n : Nat) (x : Plot) : (d.setPlot n x).err = d.err := rfl
@[simp] theorem setPlot_surv (n : Nat) (x : Plot) : (d.setPlot n x).surv = d.surv := rfl
@[simp] theorem setPlot_flash (n : Nat) (x : Plot) : (d.setPlot n x).flash = d.flash := rfl
@[simp] theorem setPlot_ports (n : Nat) (x : Plot) : (d.setPlot n x).ports = d.ports := rfl
@[simp] theorem setPlot_routes (n : Nat) (x : Plot) : (d.setPlot n x).routes = d.routes := rfl
@[simp] theorem setPlot_maxHops (n : Nat) (x : Plot) : (d.setPlot n x).maxHops = d.maxHops := rfl
@[simp] theorem setPlot_pendings (n : Nat) (x : Plot) : (d.setPlot n x).pendings = d.pendings := rfl
@[simp] theorem setPlot_nextTag (n : Nat) (x : Plot) : (d.setPlot n x).nextTag = d.nextTag := rfl
@[simp] theorem setPlot_remoteResults (n : Nat) (x : Plot) : (d.setPlot n x).remoteResults = d.remoteResults := rfl
@[simp] theorem setPlot_detected (n : Nat) (x : Plot) : (d.setPlot n x).detected = d.detected := rfl
@[simp] theorem setPlot_tabs (n : Nat) (x : Plot) : (d.setPlot n x).tabs = d.tabs := rfl
@[simp] theorem setPlot_caches (n : Nat) (x : Plot) : (d.setPlot n x).caches = d.caches := rfl
@[simp] theorem setPlot_rake (n : Nat) (x : Plot) : (d.setPlot n x).rake = d.rake := rfl
@[simp] theorem setPlot_restartWait (n : Nat) (x : Plot) : (d.setPlot n x).restartWait = d.restartWait := rfl
@[simp] theorem setPlot_bar4Base (n : Nat) (x : Plot) : (d.setPlot n x).bar4Base = d.bar4Base := rfl
@[simp] theorem setPlot_badAccess (n : Nat) (x : Plot) : (d.setPlot n x).badAccess = d.badAccess := rfl
@[simp] theorem setPlot_dbgSel (n : Nat) (x : Plot) : (d.setPlot n x).dbgSel = d.dbgSel := rfl
@[simp] theorem setPlot_debugEnable (n : Nat) (x : Plot) : (d.setPlot n x).debugEnable = d.debugEnable := rfl
@[simp] theorem setPlot_debugOn (n : Nat) (x : Plot) : (d.setPlot n x).debugOn = d.debugOn := rfl
@[simp] theorem setPlot_debugEntries (n : Nat) (x : Plot) : (d.setPlot n x).debugEntries = d.debugEntries := rfl
@[simp] theorem setPlot_free (n : Nat) (x : Plot) : (d.setPlot n x).free = d.free := rfl
@[simp] theorem setPlot_out (n : Nat) (x : Plot) : (d.setPlot n x).out = d.out := rfl

@[simp] theorem updPort_deviceId (n : Nat) (f : Port → Port) : (d.updPort n f).deviceId = d.deviceId := rfl
@[simp] theorem updPort_layout (n : Nat) (f : Port → Port) : (d.updPort n f).layout = d.layout := rfl
@[simp] theorem updPort_layoutImage (n : Nat) (f : Port → Port) : (d.updPort n f).layoutImage = d.layoutImage := rfl
@[simp] theorem updPort_mem (n : Nat) (f : Port → Port) : (d.updPort n f).mem = d.mem := rfl
@[simp] theorem updPort_cores (n : Nat) (f : Port → Port) : (d.updPort n f).cores = d.cores := rfl
@[simp] theorem updPort_plots (n : Nat) (f : Port → Port) : (d.updPort n f).plots = d.plots := rfl
@[simp] theorem updPort_feeds (n : Nat) (f : Port → Port) : (d.updPort n f).feeds = d.feeds := rfl
@[simp] theorem updPort_chans (n : Nat) (f : Port → Port) : (d.updPort n f).chans = d.chans := rfl
@[simp] theorem updPort_rrChan (n : Nat) (f : Port → Port) : (d.updPort n f).rrChan = d.rrChan := rfl
@[simp] theorem updPort_inTurn (n : Nat) (f : Port → Port) : (d.updPort n f).inTurn = d.inTurn := rfl
@[simp] theorem updPort_jobs (n : Nat) (f : Port → Port) : (d.updPort n f).jobs = d.jobs := rfl
@[simp] theorem updPort_nextJob (n : Nat) (f : Port → Port) : (d.updPort n f).nextJob = d.nextJob := rfl
@[simp] theorem updPort_events (n : Nat) (f : Port → Port) : (d.updPort n f).events = d.events := rfl
@[simp] theorem updPort_graphs (n : Nat) (f : Port → Port) : (d.updPort n f).graphs = d.graphs := rfl
@[simp] theorem updPort_graphLaunches (n : Nat) (f : Port → Port) : (d.updPort n f).graphLaunches = d.graphLaunches := rfl
@[simp] theorem updPort_taskLast (n : Nat) (f : Port → Port) : (d.updPort n f).taskLast = d.taskLast := rfl
@[simp] theorem updPort_launches (n : Nat) (f : Port → Port) : (d.updPort n f).launches = d.launches := rfl
@[simp] theorem updPort_fecProgress (n : Nat) (f : Port → Port) : (d.updPort n f).fecProgress = d.fecProgress := rfl
@[simp] theorem updPort_windowWrites (n : Nat) (f : Port → Port) : (d.updPort n f).windowWrites = d.windowWrites := rfl
@[simp] theorem updPort_engines (n : Nat) (f : Port → Port) : (d.updPort n f).engines = d.engines := rfl
@[simp] theorem updPort_host (n : Nat) (f : Port → Port) : (d.updPort n f).host = d.host := rfl
@[simp] theorem updPort_err (n : Nat) (f : Port → Port) : (d.updPort n f).err = d.err := rfl
@[simp] theorem updPort_surv (n : Nat) (f : Port → Port) : (d.updPort n f).surv = d.surv := rfl
@[simp] theorem updPort_flash (n : Nat) (f : Port → Port) : (d.updPort n f).flash = d.flash := rfl
@[simp] theorem updPort_ports (n : Nat) (f : Port → Port) : (d.updPort n f).ports = Tbl.set {} n (f (d.port n)) d.ports := rfl
@[simp] theorem updPort_routes (n : Nat) (f : Port → Port) : (d.updPort n f).routes = d.routes := rfl
@[simp] theorem updPort_maxHops (n : Nat) (f : Port → Port) : (d.updPort n f).maxHops = d.maxHops := rfl
@[simp] theorem updPort_pendings (n : Nat) (f : Port → Port) : (d.updPort n f).pendings = d.pendings := rfl
@[simp] theorem updPort_nextTag (n : Nat) (f : Port → Port) : (d.updPort n f).nextTag = d.nextTag := rfl
@[simp] theorem updPort_remoteResults (n : Nat) (f : Port → Port) : (d.updPort n f).remoteResults = d.remoteResults := rfl
@[simp] theorem updPort_detected (n : Nat) (f : Port → Port) : (d.updPort n f).detected = d.detected := rfl
@[simp] theorem updPort_tabs (n : Nat) (f : Port → Port) : (d.updPort n f).tabs = d.tabs := rfl
@[simp] theorem updPort_caches (n : Nat) (f : Port → Port) : (d.updPort n f).caches = d.caches := rfl
@[simp] theorem updPort_rake (n : Nat) (f : Port → Port) : (d.updPort n f).rake = d.rake := rfl
@[simp] theorem updPort_restartWait (n : Nat) (f : Port → Port) : (d.updPort n f).restartWait = d.restartWait := rfl
@[simp] theorem updPort_bar4Base (n : Nat) (f : Port → Port) : (d.updPort n f).bar4Base = d.bar4Base := rfl
@[simp] theorem updPort_badAccess (n : Nat) (f : Port → Port) : (d.updPort n f).badAccess = d.badAccess := rfl
@[simp] theorem updPort_dbgSel (n : Nat) (f : Port → Port) : (d.updPort n f).dbgSel = d.dbgSel := rfl
@[simp] theorem updPort_debugEnable (n : Nat) (f : Port → Port) : (d.updPort n f).debugEnable = d.debugEnable := rfl
@[simp] theorem updPort_debugOn (n : Nat) (f : Port → Port) : (d.updPort n f).debugOn = d.debugOn := rfl
@[simp] theorem updPort_debugEntries (n : Nat) (f : Port → Port) : (d.updPort n f).debugEntries = d.debugEntries := rfl
@[simp] theorem updPort_free (n : Nat) (f : Port → Port) : (d.updPort n f).free = d.free := rfl
@[simp] theorem updPort_out (n : Nat) (f : Port → Port) : (d.updPort n f).out = d.out := rfl

@[simp] theorem updEngine_deviceId (n : Nat) (f : Engine → Engine) : (d.updEngine n f).deviceId = d.deviceId := rfl
@[simp] theorem updEngine_layout (n : Nat) (f : Engine → Engine) : (d.updEngine n f).layout = d.layout := rfl
@[simp] theorem updEngine_layoutImage (n : Nat) (f : Engine → Engine) : (d.updEngine n f).layoutImage = d.layoutImage := rfl
@[simp] theorem updEngine_mem (n : Nat) (f : Engine → Engine) : (d.updEngine n f).mem = d.mem := rfl
@[simp] theorem updEngine_cores (n : Nat) (f : Engine → Engine) : (d.updEngine n f).cores = d.cores := rfl
@[simp] theorem updEngine_plots (n : Nat) (f : Engine → Engine) : (d.updEngine n f).plots = d.plots := rfl
@[simp] theorem updEngine_feeds (n : Nat) (f : Engine → Engine) : (d.updEngine n f).feeds = d.feeds := rfl
@[simp] theorem updEngine_chans (n : Nat) (f : Engine → Engine) : (d.updEngine n f).chans = d.chans := rfl
@[simp] theorem updEngine_rrChan (n : Nat) (f : Engine → Engine) : (d.updEngine n f).rrChan = d.rrChan := rfl
@[simp] theorem updEngine_inTurn (n : Nat) (f : Engine → Engine) : (d.updEngine n f).inTurn = d.inTurn := rfl
@[simp] theorem updEngine_jobs (n : Nat) (f : Engine → Engine) : (d.updEngine n f).jobs = d.jobs := rfl
@[simp] theorem updEngine_nextJob (n : Nat) (f : Engine → Engine) : (d.updEngine n f).nextJob = d.nextJob := rfl
@[simp] theorem updEngine_events (n : Nat) (f : Engine → Engine) : (d.updEngine n f).events = d.events := rfl
@[simp] theorem updEngine_graphs (n : Nat) (f : Engine → Engine) : (d.updEngine n f).graphs = d.graphs := rfl
@[simp] theorem updEngine_graphLaunches (n : Nat) (f : Engine → Engine) : (d.updEngine n f).graphLaunches = d.graphLaunches := rfl
@[simp] theorem updEngine_taskLast (n : Nat) (f : Engine → Engine) : (d.updEngine n f).taskLast = d.taskLast := rfl
@[simp] theorem updEngine_launches (n : Nat) (f : Engine → Engine) : (d.updEngine n f).launches = d.launches := rfl
@[simp] theorem updEngine_fecProgress (n : Nat) (f : Engine → Engine) : (d.updEngine n f).fecProgress = d.fecProgress := rfl
@[simp] theorem updEngine_windowWrites (n : Nat) (f : Engine → Engine) : (d.updEngine n f).windowWrites = d.windowWrites := rfl
@[simp] theorem updEngine_engines (n : Nat) (f : Engine → Engine) : (d.updEngine n f).engines = Tbl.set {} n (f (d.engine n)) d.engines := rfl
@[simp] theorem updEngine_host (n : Nat) (f : Engine → Engine) : (d.updEngine n f).host = d.host := rfl
@[simp] theorem updEngine_err (n : Nat) (f : Engine → Engine) : (d.updEngine n f).err = d.err := rfl
@[simp] theorem updEngine_surv (n : Nat) (f : Engine → Engine) : (d.updEngine n f).surv = d.surv := rfl
@[simp] theorem updEngine_flash (n : Nat) (f : Engine → Engine) : (d.updEngine n f).flash = d.flash := rfl
@[simp] theorem updEngine_ports (n : Nat) (f : Engine → Engine) : (d.updEngine n f).ports = d.ports := rfl
@[simp] theorem updEngine_routes (n : Nat) (f : Engine → Engine) : (d.updEngine n f).routes = d.routes := rfl
@[simp] theorem updEngine_maxHops (n : Nat) (f : Engine → Engine) : (d.updEngine n f).maxHops = d.maxHops := rfl
@[simp] theorem updEngine_pendings (n : Nat) (f : Engine → Engine) : (d.updEngine n f).pendings = d.pendings := rfl
@[simp] theorem updEngine_nextTag (n : Nat) (f : Engine → Engine) : (d.updEngine n f).nextTag = d.nextTag := rfl
@[simp] theorem updEngine_remoteResults (n : Nat) (f : Engine → Engine) : (d.updEngine n f).remoteResults = d.remoteResults := rfl
@[simp] theorem updEngine_detected (n : Nat) (f : Engine → Engine) : (d.updEngine n f).detected = d.detected := rfl
@[simp] theorem updEngine_tabs (n : Nat) (f : Engine → Engine) : (d.updEngine n f).tabs = d.tabs := rfl
@[simp] theorem updEngine_caches (n : Nat) (f : Engine → Engine) : (d.updEngine n f).caches = d.caches := rfl
@[simp] theorem updEngine_rake (n : Nat) (f : Engine → Engine) : (d.updEngine n f).rake = d.rake := rfl
@[simp] theorem updEngine_restartWait (n : Nat) (f : Engine → Engine) : (d.updEngine n f).restartWait = d.restartWait := rfl
@[simp] theorem updEngine_bar4Base (n : Nat) (f : Engine → Engine) : (d.updEngine n f).bar4Base = d.bar4Base := rfl
@[simp] theorem updEngine_badAccess (n : Nat) (f : Engine → Engine) : (d.updEngine n f).badAccess = d.badAccess := rfl
@[simp] theorem updEngine_dbgSel (n : Nat) (f : Engine → Engine) : (d.updEngine n f).dbgSel = d.dbgSel := rfl
@[simp] theorem updEngine_debugEnable (n : Nat) (f : Engine → Engine) : (d.updEngine n f).debugEnable = d.debugEnable := rfl
@[simp] theorem updEngine_debugOn (n : Nat) (f : Engine → Engine) : (d.updEngine n f).debugOn = d.debugOn := rfl
@[simp] theorem updEngine_debugEntries (n : Nat) (f : Engine → Engine) : (d.updEngine n f).debugEntries = d.debugEntries := rfl
@[simp] theorem updEngine_free (n : Nat) (f : Engine → Engine) : (d.updEngine n f).free = d.free := rfl
@[simp] theorem updEngine_out (n : Nat) (f : Engine → Engine) : (d.updEngine n f).out = d.out := rfl

@[simp] theorem updTab_deviceId (n : Nat) (f : TabEngine → TabEngine) : (d.updTab n f).deviceId = d.deviceId := rfl
@[simp] theorem updTab_layout (n : Nat) (f : TabEngine → TabEngine) : (d.updTab n f).layout = d.layout := rfl
@[simp] theorem updTab_layoutImage (n : Nat) (f : TabEngine → TabEngine) : (d.updTab n f).layoutImage = d.layoutImage := rfl
@[simp] theorem updTab_mem (n : Nat) (f : TabEngine → TabEngine) : (d.updTab n f).mem = d.mem := rfl
@[simp] theorem updTab_cores (n : Nat) (f : TabEngine → TabEngine) : (d.updTab n f).cores = d.cores := rfl
@[simp] theorem updTab_plots (n : Nat) (f : TabEngine → TabEngine) : (d.updTab n f).plots = d.plots := rfl
@[simp] theorem updTab_feeds (n : Nat) (f : TabEngine → TabEngine) : (d.updTab n f).feeds = d.feeds := rfl
@[simp] theorem updTab_chans (n : Nat) (f : TabEngine → TabEngine) : (d.updTab n f).chans = d.chans := rfl
@[simp] theorem updTab_rrChan (n : Nat) (f : TabEngine → TabEngine) : (d.updTab n f).rrChan = d.rrChan := rfl
@[simp] theorem updTab_inTurn (n : Nat) (f : TabEngine → TabEngine) : (d.updTab n f).inTurn = d.inTurn := rfl
@[simp] theorem updTab_jobs (n : Nat) (f : TabEngine → TabEngine) : (d.updTab n f).jobs = d.jobs := rfl
@[simp] theorem updTab_nextJob (n : Nat) (f : TabEngine → TabEngine) : (d.updTab n f).nextJob = d.nextJob := rfl
@[simp] theorem updTab_events (n : Nat) (f : TabEngine → TabEngine) : (d.updTab n f).events = d.events := rfl
@[simp] theorem updTab_graphs (n : Nat) (f : TabEngine → TabEngine) : (d.updTab n f).graphs = d.graphs := rfl
@[simp] theorem updTab_graphLaunches (n : Nat) (f : TabEngine → TabEngine) : (d.updTab n f).graphLaunches = d.graphLaunches := rfl
@[simp] theorem updTab_taskLast (n : Nat) (f : TabEngine → TabEngine) : (d.updTab n f).taskLast = d.taskLast := rfl
@[simp] theorem updTab_launches (n : Nat) (f : TabEngine → TabEngine) : (d.updTab n f).launches = d.launches := rfl
@[simp] theorem updTab_fecProgress (n : Nat) (f : TabEngine → TabEngine) : (d.updTab n f).fecProgress = d.fecProgress := rfl
@[simp] theorem updTab_windowWrites (n : Nat) (f : TabEngine → TabEngine) : (d.updTab n f).windowWrites = d.windowWrites := rfl
@[simp] theorem updTab_engines (n : Nat) (f : TabEngine → TabEngine) : (d.updTab n f).engines = d.engines := rfl
@[simp] theorem updTab_host (n : Nat) (f : TabEngine → TabEngine) : (d.updTab n f).host = d.host := rfl
@[simp] theorem updTab_err (n : Nat) (f : TabEngine → TabEngine) : (d.updTab n f).err = d.err := rfl
@[simp] theorem updTab_surv (n : Nat) (f : TabEngine → TabEngine) : (d.updTab n f).surv = d.surv := rfl
@[simp] theorem updTab_flash (n : Nat) (f : TabEngine → TabEngine) : (d.updTab n f).flash = d.flash := rfl
@[simp] theorem updTab_ports (n : Nat) (f : TabEngine → TabEngine) : (d.updTab n f).ports = d.ports := rfl
@[simp] theorem updTab_routes (n : Nat) (f : TabEngine → TabEngine) : (d.updTab n f).routes = d.routes := rfl
@[simp] theorem updTab_maxHops (n : Nat) (f : TabEngine → TabEngine) : (d.updTab n f).maxHops = d.maxHops := rfl
@[simp] theorem updTab_pendings (n : Nat) (f : TabEngine → TabEngine) : (d.updTab n f).pendings = d.pendings := rfl
@[simp] theorem updTab_nextTag (n : Nat) (f : TabEngine → TabEngine) : (d.updTab n f).nextTag = d.nextTag := rfl
@[simp] theorem updTab_remoteResults (n : Nat) (f : TabEngine → TabEngine) : (d.updTab n f).remoteResults = d.remoteResults := rfl
@[simp] theorem updTab_detected (n : Nat) (f : TabEngine → TabEngine) : (d.updTab n f).detected = d.detected := rfl
@[simp] theorem updTab_tabs (n : Nat) (f : TabEngine → TabEngine) : (d.updTab n f).tabs = Tbl.set {} n (f (d.tabEng n)) d.tabs := rfl
@[simp] theorem updTab_caches (n : Nat) (f : TabEngine → TabEngine) : (d.updTab n f).caches = d.caches := rfl
@[simp] theorem updTab_rake (n : Nat) (f : TabEngine → TabEngine) : (d.updTab n f).rake = d.rake := rfl
@[simp] theorem updTab_restartWait (n : Nat) (f : TabEngine → TabEngine) : (d.updTab n f).restartWait = d.restartWait := rfl
@[simp] theorem updTab_bar4Base (n : Nat) (f : TabEngine → TabEngine) : (d.updTab n f).bar4Base = d.bar4Base := rfl
@[simp] theorem updTab_badAccess (n : Nat) (f : TabEngine → TabEngine) : (d.updTab n f).badAccess = d.badAccess := rfl
@[simp] theorem updTab_dbgSel (n : Nat) (f : TabEngine → TabEngine) : (d.updTab n f).dbgSel = d.dbgSel := rfl
@[simp] theorem updTab_debugEnable (n : Nat) (f : TabEngine → TabEngine) : (d.updTab n f).debugEnable = d.debugEnable := rfl
@[simp] theorem updTab_debugOn (n : Nat) (f : TabEngine → TabEngine) : (d.updTab n f).debugOn = d.debugOn := rfl
@[simp] theorem updTab_debugEntries (n : Nat) (f : TabEngine → TabEngine) : (d.updTab n f).debugEntries = d.debugEntries := rfl
@[simp] theorem updTab_free (n : Nat) (f : TabEngine → TabEngine) : (d.updTab n f).free = d.free := rfl
@[simp] theorem updTab_out (n : Nat) (f : TabEngine → TabEngine) : (d.updTab n f).out = d.out := rfl

@[simp] theorem updCache_deviceId (n : Nat) (f : RowCache → RowCache) : (d.updCache n f).deviceId = d.deviceId := rfl
@[simp] theorem updCache_layout (n : Nat) (f : RowCache → RowCache) : (d.updCache n f).layout = d.layout := rfl
@[simp] theorem updCache_layoutImage (n : Nat) (f : RowCache → RowCache) : (d.updCache n f).layoutImage = d.layoutImage := rfl
@[simp] theorem updCache_mem (n : Nat) (f : RowCache → RowCache) : (d.updCache n f).mem = d.mem := rfl
@[simp] theorem updCache_cores (n : Nat) (f : RowCache → RowCache) : (d.updCache n f).cores = d.cores := rfl
@[simp] theorem updCache_plots (n : Nat) (f : RowCache → RowCache) : (d.updCache n f).plots = d.plots := rfl
@[simp] theorem updCache_feeds (n : Nat) (f : RowCache → RowCache) : (d.updCache n f).feeds = d.feeds := rfl
@[simp] theorem updCache_chans (n : Nat) (f : RowCache → RowCache) : (d.updCache n f).chans = d.chans := rfl
@[simp] theorem updCache_rrChan (n : Nat) (f : RowCache → RowCache) : (d.updCache n f).rrChan = d.rrChan := rfl
@[simp] theorem updCache_inTurn (n : Nat) (f : RowCache → RowCache) : (d.updCache n f).inTurn = d.inTurn := rfl
@[simp] theorem updCache_jobs (n : Nat) (f : RowCache → RowCache) : (d.updCache n f).jobs = d.jobs := rfl
@[simp] theorem updCache_nextJob (n : Nat) (f : RowCache → RowCache) : (d.updCache n f).nextJob = d.nextJob := rfl
@[simp] theorem updCache_events (n : Nat) (f : RowCache → RowCache) : (d.updCache n f).events = d.events := rfl
@[simp] theorem updCache_graphs (n : Nat) (f : RowCache → RowCache) : (d.updCache n f).graphs = d.graphs := rfl
@[simp] theorem updCache_graphLaunches (n : Nat) (f : RowCache → RowCache) : (d.updCache n f).graphLaunches = d.graphLaunches := rfl
@[simp] theorem updCache_taskLast (n : Nat) (f : RowCache → RowCache) : (d.updCache n f).taskLast = d.taskLast := rfl
@[simp] theorem updCache_launches (n : Nat) (f : RowCache → RowCache) : (d.updCache n f).launches = d.launches := rfl
@[simp] theorem updCache_fecProgress (n : Nat) (f : RowCache → RowCache) : (d.updCache n f).fecProgress = d.fecProgress := rfl
@[simp] theorem updCache_windowWrites (n : Nat) (f : RowCache → RowCache) : (d.updCache n f).windowWrites = d.windowWrites := rfl
@[simp] theorem updCache_engines (n : Nat) (f : RowCache → RowCache) : (d.updCache n f).engines = d.engines := rfl
@[simp] theorem updCache_host (n : Nat) (f : RowCache → RowCache) : (d.updCache n f).host = d.host := rfl
@[simp] theorem updCache_err (n : Nat) (f : RowCache → RowCache) : (d.updCache n f).err = d.err := rfl
@[simp] theorem updCache_surv (n : Nat) (f : RowCache → RowCache) : (d.updCache n f).surv = d.surv := rfl
@[simp] theorem updCache_flash (n : Nat) (f : RowCache → RowCache) : (d.updCache n f).flash = d.flash := rfl
@[simp] theorem updCache_ports (n : Nat) (f : RowCache → RowCache) : (d.updCache n f).ports = d.ports := rfl
@[simp] theorem updCache_routes (n : Nat) (f : RowCache → RowCache) : (d.updCache n f).routes = d.routes := rfl
@[simp] theorem updCache_maxHops (n : Nat) (f : RowCache → RowCache) : (d.updCache n f).maxHops = d.maxHops := rfl
@[simp] theorem updCache_pendings (n : Nat) (f : RowCache → RowCache) : (d.updCache n f).pendings = d.pendings := rfl
@[simp] theorem updCache_nextTag (n : Nat) (f : RowCache → RowCache) : (d.updCache n f).nextTag = d.nextTag := rfl
@[simp] theorem updCache_remoteResults (n : Nat) (f : RowCache → RowCache) : (d.updCache n f).remoteResults = d.remoteResults := rfl
@[simp] theorem updCache_detected (n : Nat) (f : RowCache → RowCache) : (d.updCache n f).detected = d.detected := rfl
@[simp] theorem updCache_tabs (n : Nat) (f : RowCache → RowCache) : (d.updCache n f).tabs = d.tabs := rfl
@[simp] theorem updCache_caches (n : Nat) (f : RowCache → RowCache) : (d.updCache n f).caches = Tbl.set {} n (f (d.cache n)) d.caches := rfl
@[simp] theorem updCache_rake (n : Nat) (f : RowCache → RowCache) : (d.updCache n f).rake = d.rake := rfl
@[simp] theorem updCache_restartWait (n : Nat) (f : RowCache → RowCache) : (d.updCache n f).restartWait = d.restartWait := rfl
@[simp] theorem updCache_bar4Base (n : Nat) (f : RowCache → RowCache) : (d.updCache n f).bar4Base = d.bar4Base := rfl
@[simp] theorem updCache_badAccess (n : Nat) (f : RowCache → RowCache) : (d.updCache n f).badAccess = d.badAccess := rfl
@[simp] theorem updCache_dbgSel (n : Nat) (f : RowCache → RowCache) : (d.updCache n f).dbgSel = d.dbgSel := rfl
@[simp] theorem updCache_debugEnable (n : Nat) (f : RowCache → RowCache) : (d.updCache n f).debugEnable = d.debugEnable := rfl
@[simp] theorem updCache_debugOn (n : Nat) (f : RowCache → RowCache) : (d.updCache n f).debugOn = d.debugOn := rfl
@[simp] theorem updCache_debugEntries (n : Nat) (f : RowCache → RowCache) : (d.updCache n f).debugEntries = d.debugEntries := rfl
@[simp] theorem updCache_free (n : Nat) (f : RowCache → RowCache) : (d.updCache n f).free = d.free := rfl
@[simp] theorem updCache_out (n : Nat) (f : RowCache → RowCache) : (d.updCache n f).out = d.out := rfl

@[simp] theorem setGraph_deviceId (n : Nat) (x : Option Graph) : (d.setGraph n x).deviceId = d.deviceId := rfl
@[simp] theorem setGraph_layout (n : Nat) (x : Option Graph) : (d.setGraph n x).layout = d.layout := rfl
@[simp] theorem setGraph_layoutImage (n : Nat) (x : Option Graph) : (d.setGraph n x).layoutImage = d.layoutImage := rfl
@[simp] theorem setGraph_mem (n : Nat) (x : Option Graph) : (d.setGraph n x).mem = d.mem := rfl
@[simp] theorem setGraph_cores (n : Nat) (x : Option Graph) : (d.setGraph n x).cores = d.cores := rfl
@[simp] theorem setGraph_plots (n : Nat) (x : Option Graph) : (d.setGraph n x).plots = d.plots := rfl
@[simp] theorem setGraph_feeds (n : Nat) (x : Option Graph) : (d.setGraph n x).feeds = d.feeds := rfl
@[simp] theorem setGraph_chans (n : Nat) (x : Option Graph) : (d.setGraph n x).chans = d.chans := rfl
@[simp] theorem setGraph_rrChan (n : Nat) (x : Option Graph) : (d.setGraph n x).rrChan = d.rrChan := rfl
@[simp] theorem setGraph_inTurn (n : Nat) (x : Option Graph) : (d.setGraph n x).inTurn = d.inTurn := rfl
@[simp] theorem setGraph_jobs (n : Nat) (x : Option Graph) : (d.setGraph n x).jobs = d.jobs := rfl
@[simp] theorem setGraph_nextJob (n : Nat) (x : Option Graph) : (d.setGraph n x).nextJob = d.nextJob := rfl
@[simp] theorem setGraph_events (n : Nat) (x : Option Graph) : (d.setGraph n x).events = d.events := rfl
@[simp] theorem setGraph_graphs (n : Nat) (x : Option Graph) : (d.setGraph n x).graphs = Tbl.set none n x d.graphs := rfl
@[simp] theorem setGraph_graphLaunches (n : Nat) (x : Option Graph) : (d.setGraph n x).graphLaunches = d.graphLaunches := rfl
@[simp] theorem setGraph_taskLast (n : Nat) (x : Option Graph) : (d.setGraph n x).taskLast = d.taskLast := rfl
@[simp] theorem setGraph_launches (n : Nat) (x : Option Graph) : (d.setGraph n x).launches = d.launches := rfl
@[simp] theorem setGraph_fecProgress (n : Nat) (x : Option Graph) : (d.setGraph n x).fecProgress = d.fecProgress := rfl
@[simp] theorem setGraph_windowWrites (n : Nat) (x : Option Graph) : (d.setGraph n x).windowWrites = d.windowWrites := rfl
@[simp] theorem setGraph_engines (n : Nat) (x : Option Graph) : (d.setGraph n x).engines = d.engines := rfl
@[simp] theorem setGraph_host (n : Nat) (x : Option Graph) : (d.setGraph n x).host = d.host := rfl
@[simp] theorem setGraph_err (n : Nat) (x : Option Graph) : (d.setGraph n x).err = d.err := rfl
@[simp] theorem setGraph_surv (n : Nat) (x : Option Graph) : (d.setGraph n x).surv = d.surv := rfl
@[simp] theorem setGraph_flash (n : Nat) (x : Option Graph) : (d.setGraph n x).flash = d.flash := rfl
@[simp] theorem setGraph_ports (n : Nat) (x : Option Graph) : (d.setGraph n x).ports = d.ports := rfl
@[simp] theorem setGraph_routes (n : Nat) (x : Option Graph) : (d.setGraph n x).routes = d.routes := rfl
@[simp] theorem setGraph_maxHops (n : Nat) (x : Option Graph) : (d.setGraph n x).maxHops = d.maxHops := rfl
@[simp] theorem setGraph_pendings (n : Nat) (x : Option Graph) : (d.setGraph n x).pendings = d.pendings := rfl
@[simp] theorem setGraph_nextTag (n : Nat) (x : Option Graph) : (d.setGraph n x).nextTag = d.nextTag := rfl
@[simp] theorem setGraph_remoteResults (n : Nat) (x : Option Graph) : (d.setGraph n x).remoteResults = d.remoteResults := rfl
@[simp] theorem setGraph_detected (n : Nat) (x : Option Graph) : (d.setGraph n x).detected = d.detected := rfl
@[simp] theorem setGraph_tabs (n : Nat) (x : Option Graph) : (d.setGraph n x).tabs = d.tabs := rfl
@[simp] theorem setGraph_caches (n : Nat) (x : Option Graph) : (d.setGraph n x).caches = d.caches := rfl
@[simp] theorem setGraph_rake (n : Nat) (x : Option Graph) : (d.setGraph n x).rake = d.rake := rfl
@[simp] theorem setGraph_restartWait (n : Nat) (x : Option Graph) : (d.setGraph n x).restartWait = d.restartWait := rfl
@[simp] theorem setGraph_bar4Base (n : Nat) (x : Option Graph) : (d.setGraph n x).bar4Base = d.bar4Base := rfl
@[simp] theorem setGraph_badAccess (n : Nat) (x : Option Graph) : (d.setGraph n x).badAccess = d.badAccess := rfl
@[simp] theorem setGraph_dbgSel (n : Nat) (x : Option Graph) : (d.setGraph n x).dbgSel = d.dbgSel := rfl
@[simp] theorem setGraph_debugEnable (n : Nat) (x : Option Graph) : (d.setGraph n x).debugEnable = d.debugEnable := rfl
@[simp] theorem setGraph_debugOn (n : Nat) (x : Option Graph) : (d.setGraph n x).debugOn = d.debugOn := rfl
@[simp] theorem setGraph_debugEntries (n : Nat) (x : Option Graph) : (d.setGraph n x).debugEntries = d.debugEntries := rfl
@[simp] theorem setGraph_free (n : Nat) (x : Option Graph) : (d.setGraph n x).free = d.free := rfl
@[simp] theorem setGraph_out (n : Nat) (x : Option Graph) : (d.setGraph n x).out = d.out := rfl

@[simp] theorem setEvent_deviceId (n v : Nat) : (d.setEvent n v).deviceId = d.deviceId := rfl
@[simp] theorem setEvent_layout (n v : Nat) : (d.setEvent n v).layout = d.layout := rfl
@[simp] theorem setEvent_layoutImage (n v : Nat) : (d.setEvent n v).layoutImage = d.layoutImage := rfl
@[simp] theorem setEvent_mem (n v : Nat) : (d.setEvent n v).mem = d.mem := rfl
@[simp] theorem setEvent_cores (n v : Nat) : (d.setEvent n v).cores = d.cores := rfl
@[simp] theorem setEvent_plots (n v : Nat) : (d.setEvent n v).plots = d.plots := rfl
@[simp] theorem setEvent_feeds (n v : Nat) : (d.setEvent n v).feeds = d.feeds := rfl
@[simp] theorem setEvent_chans (n v : Nat) : (d.setEvent n v).chans = d.chans := rfl
@[simp] theorem setEvent_rrChan (n v : Nat) : (d.setEvent n v).rrChan = d.rrChan := rfl
@[simp] theorem setEvent_inTurn (n v : Nat) : (d.setEvent n v).inTurn = d.inTurn := rfl
@[simp] theorem setEvent_jobs (n v : Nat) : (d.setEvent n v).jobs = d.jobs := rfl
@[simp] theorem setEvent_nextJob (n v : Nat) : (d.setEvent n v).nextJob = d.nextJob := rfl
@[simp] theorem setEvent_events (n v : Nat) : (d.setEvent n v).events = Tbl.set 0 n v d.events := rfl
@[simp] theorem setEvent_graphs (n v : Nat) : (d.setEvent n v).graphs = d.graphs := rfl
@[simp] theorem setEvent_graphLaunches (n v : Nat) : (d.setEvent n v).graphLaunches = d.graphLaunches := rfl
@[simp] theorem setEvent_taskLast (n v : Nat) : (d.setEvent n v).taskLast = d.taskLast := rfl
@[simp] theorem setEvent_launches (n v : Nat) : (d.setEvent n v).launches = d.launches := rfl
@[simp] theorem setEvent_fecProgress (n v : Nat) : (d.setEvent n v).fecProgress = d.fecProgress := rfl
@[simp] theorem setEvent_windowWrites (n v : Nat) : (d.setEvent n v).windowWrites = d.windowWrites := rfl
@[simp] theorem setEvent_engines (n v : Nat) : (d.setEvent n v).engines = d.engines := rfl
@[simp] theorem setEvent_host (n v : Nat) : (d.setEvent n v).host = d.host := rfl
@[simp] theorem setEvent_err (n v : Nat) : (d.setEvent n v).err = d.err := rfl
@[simp] theorem setEvent_surv (n v : Nat) : (d.setEvent n v).surv = d.surv := rfl
@[simp] theorem setEvent_flash (n v : Nat) : (d.setEvent n v).flash = d.flash := rfl
@[simp] theorem setEvent_ports (n v : Nat) : (d.setEvent n v).ports = d.ports := rfl
@[simp] theorem setEvent_routes (n v : Nat) : (d.setEvent n v).routes = d.routes := rfl
@[simp] theorem setEvent_maxHops (n v : Nat) : (d.setEvent n v).maxHops = d.maxHops := rfl
@[simp] theorem setEvent_pendings (n v : Nat) : (d.setEvent n v).pendings = d.pendings := rfl
@[simp] theorem setEvent_nextTag (n v : Nat) : (d.setEvent n v).nextTag = d.nextTag := rfl
@[simp] theorem setEvent_remoteResults (n v : Nat) : (d.setEvent n v).remoteResults = d.remoteResults := rfl
@[simp] theorem setEvent_detected (n v : Nat) : (d.setEvent n v).detected = d.detected := rfl
@[simp] theorem setEvent_tabs (n v : Nat) : (d.setEvent n v).tabs = d.tabs := rfl
@[simp] theorem setEvent_caches (n v : Nat) : (d.setEvent n v).caches = d.caches := rfl
@[simp] theorem setEvent_rake (n v : Nat) : (d.setEvent n v).rake = d.rake := rfl
@[simp] theorem setEvent_restartWait (n v : Nat) : (d.setEvent n v).restartWait = d.restartWait := rfl
@[simp] theorem setEvent_bar4Base (n v : Nat) : (d.setEvent n v).bar4Base = d.bar4Base := rfl
@[simp] theorem setEvent_badAccess (n v : Nat) : (d.setEvent n v).badAccess = d.badAccess := rfl
@[simp] theorem setEvent_dbgSel (n v : Nat) : (d.setEvent n v).dbgSel = d.dbgSel := rfl
@[simp] theorem setEvent_debugEnable (n v : Nat) : (d.setEvent n v).debugEnable = d.debugEnable := rfl
@[simp] theorem setEvent_debugOn (n v : Nat) : (d.setEvent n v).debugOn = d.debugOn := rfl
@[simp] theorem setEvent_debugEntries (n v : Nat) : (d.setEvent n v).debugEntries = d.debugEntries := rfl
@[simp] theorem setEvent_free (n v : Nat) : (d.setEvent n v).free = d.free := rfl
@[simp] theorem setEvent_out (n v : Nat) : (d.setEvent n v).out = d.out := rfl

@[simp] theorem updJob_deviceId (n : Nat) (f : Job → Job) : (d.updJob n f).deviceId = d.deviceId := rfl
@[simp] theorem updJob_layout (n : Nat) (f : Job → Job) : (d.updJob n f).layout = d.layout := rfl
@[simp] theorem updJob_layoutImage (n : Nat) (f : Job → Job) : (d.updJob n f).layoutImage = d.layoutImage := rfl
@[simp] theorem updJob_mem (n : Nat) (f : Job → Job) : (d.updJob n f).mem = d.mem := rfl
@[simp] theorem updJob_cores (n : Nat) (f : Job → Job) : (d.updJob n f).cores = d.cores := rfl
@[simp] theorem updJob_plots (n : Nat) (f : Job → Job) : (d.updJob n f).plots = d.plots := rfl
@[simp] theorem updJob_feeds (n : Nat) (f : Job → Job) : (d.updJob n f).feeds = d.feeds := rfl
@[simp] theorem updJob_chans (n : Nat) (f : Job → Job) : (d.updJob n f).chans = d.chans := rfl
@[simp] theorem updJob_rrChan (n : Nat) (f : Job → Job) : (d.updJob n f).rrChan = d.rrChan := rfl
@[simp] theorem updJob_inTurn (n : Nat) (f : Job → Job) : (d.updJob n f).inTurn = d.inTurn := rfl
@[simp] theorem updJob_jobs (n : Nat) (f : Job → Job) : (d.updJob n f).jobs = d.jobs.map fun j => if j.id = n then f j else j := rfl
@[simp] theorem updJob_nextJob (n : Nat) (f : Job → Job) : (d.updJob n f).nextJob = d.nextJob := rfl
@[simp] theorem updJob_events (n : Nat) (f : Job → Job) : (d.updJob n f).events = d.events := rfl
@[simp] theorem updJob_graphs (n : Nat) (f : Job → Job) : (d.updJob n f).graphs = d.graphs := rfl
@[simp] theorem updJob_graphLaunches (n : Nat) (f : Job → Job) : (d.updJob n f).graphLaunches = d.graphLaunches := rfl
@[simp] theorem updJob_taskLast (n : Nat) (f : Job → Job) : (d.updJob n f).taskLast = d.taskLast := rfl
@[simp] theorem updJob_launches (n : Nat) (f : Job → Job) : (d.updJob n f).launches = d.launches := rfl
@[simp] theorem updJob_fecProgress (n : Nat) (f : Job → Job) : (d.updJob n f).fecProgress = d.fecProgress := rfl
@[simp] theorem updJob_windowWrites (n : Nat) (f : Job → Job) : (d.updJob n f).windowWrites = d.windowWrites := rfl
@[simp] theorem updJob_engines (n : Nat) (f : Job → Job) : (d.updJob n f).engines = d.engines := rfl
@[simp] theorem updJob_host (n : Nat) (f : Job → Job) : (d.updJob n f).host = d.host := rfl
@[simp] theorem updJob_err (n : Nat) (f : Job → Job) : (d.updJob n f).err = d.err := rfl
@[simp] theorem updJob_surv (n : Nat) (f : Job → Job) : (d.updJob n f).surv = d.surv := rfl
@[simp] theorem updJob_flash (n : Nat) (f : Job → Job) : (d.updJob n f).flash = d.flash := rfl
@[simp] theorem updJob_ports (n : Nat) (f : Job → Job) : (d.updJob n f).ports = d.ports := rfl
@[simp] theorem updJob_routes (n : Nat) (f : Job → Job) : (d.updJob n f).routes = d.routes := rfl
@[simp] theorem updJob_maxHops (n : Nat) (f : Job → Job) : (d.updJob n f).maxHops = d.maxHops := rfl
@[simp] theorem updJob_pendings (n : Nat) (f : Job → Job) : (d.updJob n f).pendings = d.pendings := rfl
@[simp] theorem updJob_nextTag (n : Nat) (f : Job → Job) : (d.updJob n f).nextTag = d.nextTag := rfl
@[simp] theorem updJob_remoteResults (n : Nat) (f : Job → Job) : (d.updJob n f).remoteResults = d.remoteResults := rfl
@[simp] theorem updJob_detected (n : Nat) (f : Job → Job) : (d.updJob n f).detected = d.detected := rfl
@[simp] theorem updJob_tabs (n : Nat) (f : Job → Job) : (d.updJob n f).tabs = d.tabs := rfl
@[simp] theorem updJob_caches (n : Nat) (f : Job → Job) : (d.updJob n f).caches = d.caches := rfl
@[simp] theorem updJob_rake (n : Nat) (f : Job → Job) : (d.updJob n f).rake = d.rake := rfl
@[simp] theorem updJob_restartWait (n : Nat) (f : Job → Job) : (d.updJob n f).restartWait = d.restartWait := rfl
@[simp] theorem updJob_bar4Base (n : Nat) (f : Job → Job) : (d.updJob n f).bar4Base = d.bar4Base := rfl
@[simp] theorem updJob_badAccess (n : Nat) (f : Job → Job) : (d.updJob n f).badAccess = d.badAccess := rfl
@[simp] theorem updJob_dbgSel (n : Nat) (f : Job → Job) : (d.updJob n f).dbgSel = d.dbgSel := rfl
@[simp] theorem updJob_debugEnable (n : Nat) (f : Job → Job) : (d.updJob n f).debugEnable = d.debugEnable := rfl
@[simp] theorem updJob_debugOn (n : Nat) (f : Job → Job) : (d.updJob n f).debugOn = d.debugOn := rfl
@[simp] theorem updJob_debugEntries (n : Nat) (f : Job → Job) : (d.updJob n f).debugEntries = d.debugEntries := rfl
@[simp] theorem updJob_free (n : Nat) (f : Job → Job) : (d.updJob n f).free = d.free := rfl
@[simp] theorem updJob_out (n : Nat) (f : Job → Job) : (d.updJob n f).out = d.out := rfl

@[simp] theorem updFeed_deviceId (k : Src) (f : Feed → Feed) : (d.updFeed k f).deviceId = d.deviceId := rfl
@[simp] theorem updFeed_layout (k : Src) (f : Feed → Feed) : (d.updFeed k f).layout = d.layout := rfl
@[simp] theorem updFeed_layoutImage (k : Src) (f : Feed → Feed) : (d.updFeed k f).layoutImage = d.layoutImage := rfl
@[simp] theorem updFeed_mem (k : Src) (f : Feed → Feed) : (d.updFeed k f).mem = d.mem := rfl
@[simp] theorem updFeed_cores (k : Src) (f : Feed → Feed) : (d.updFeed k f).cores = d.cores := rfl
@[simp] theorem updFeed_plots (k : Src) (f : Feed → Feed) : (d.updFeed k f).plots = d.plots := rfl
@[simp] theorem updFeed_feeds (k : Src) (f : Feed → Feed) : (d.updFeed k f).feeds = d.feeds.map fun x => if x.src = k then f x else x := rfl
@[simp] theorem updFeed_chans (k : Src) (f : Feed → Feed) : (d.updFeed k f).chans = d.chans := rfl
@[simp] theorem updFeed_rrChan (k : Src) (f : Feed → Feed) : (d.updFeed k f).rrChan = d.rrChan := rfl
@[simp] theorem updFeed_inTurn (k : Src) (f : Feed → Feed) : (d.updFeed k f).inTurn = d.inTurn := rfl
@[simp] theorem updFeed_jobs (k : Src) (f : Feed → Feed) : (d.updFeed k f).jobs = d.jobs := rfl
@[simp] theorem updFeed_nextJob (k : Src) (f : Feed → Feed) : (d.updFeed k f).nextJob = d.nextJob := rfl
@[simp] theorem updFeed_events (k : Src) (f : Feed → Feed) : (d.updFeed k f).events = d.events := rfl
@[simp] theorem updFeed_graphs (k : Src) (f : Feed → Feed) : (d.updFeed k f).graphs = d.graphs := rfl
@[simp] theorem updFeed_graphLaunches (k : Src) (f : Feed → Feed) : (d.updFeed k f).graphLaunches = d.graphLaunches := rfl
@[simp] theorem updFeed_taskLast (k : Src) (f : Feed → Feed) : (d.updFeed k f).taskLast = d.taskLast := rfl
@[simp] theorem updFeed_launches (k : Src) (f : Feed → Feed) : (d.updFeed k f).launches = d.launches := rfl
@[simp] theorem updFeed_fecProgress (k : Src) (f : Feed → Feed) : (d.updFeed k f).fecProgress = d.fecProgress := rfl
@[simp] theorem updFeed_windowWrites (k : Src) (f : Feed → Feed) : (d.updFeed k f).windowWrites = d.windowWrites := rfl
@[simp] theorem updFeed_engines (k : Src) (f : Feed → Feed) : (d.updFeed k f).engines = d.engines := rfl
@[simp] theorem updFeed_host (k : Src) (f : Feed → Feed) : (d.updFeed k f).host = d.host := rfl
@[simp] theorem updFeed_err (k : Src) (f : Feed → Feed) : (d.updFeed k f).err = d.err := rfl
@[simp] theorem updFeed_surv (k : Src) (f : Feed → Feed) : (d.updFeed k f).surv = d.surv := rfl
@[simp] theorem updFeed_flash (k : Src) (f : Feed → Feed) : (d.updFeed k f).flash = d.flash := rfl
@[simp] theorem updFeed_ports (k : Src) (f : Feed → Feed) : (d.updFeed k f).ports = d.ports := rfl
@[simp] theorem updFeed_routes (k : Src) (f : Feed → Feed) : (d.updFeed k f).routes = d.routes := rfl
@[simp] theorem updFeed_maxHops (k : Src) (f : Feed → Feed) : (d.updFeed k f).maxHops = d.maxHops := rfl
@[simp] theorem updFeed_pendings (k : Src) (f : Feed → Feed) : (d.updFeed k f).pendings = d.pendings := rfl
@[simp] theorem updFeed_nextTag (k : Src) (f : Feed → Feed) : (d.updFeed k f).nextTag = d.nextTag := rfl
@[simp] theorem updFeed_remoteResults (k : Src) (f : Feed → Feed) : (d.updFeed k f).remoteResults = d.remoteResults := rfl
@[simp] theorem updFeed_detected (k : Src) (f : Feed → Feed) : (d.updFeed k f).detected = d.detected := rfl
@[simp] theorem updFeed_tabs (k : Src) (f : Feed → Feed) : (d.updFeed k f).tabs = d.tabs := rfl
@[simp] theorem updFeed_caches (k : Src) (f : Feed → Feed) : (d.updFeed k f).caches = d.caches := rfl
@[simp] theorem updFeed_rake (k : Src) (f : Feed → Feed) : (d.updFeed k f).rake = d.rake := rfl
@[simp] theorem updFeed_restartWait (k : Src) (f : Feed → Feed) : (d.updFeed k f).restartWait = d.restartWait := rfl
@[simp] theorem updFeed_bar4Base (k : Src) (f : Feed → Feed) : (d.updFeed k f).bar4Base = d.bar4Base := rfl
@[simp] theorem updFeed_badAccess (k : Src) (f : Feed → Feed) : (d.updFeed k f).badAccess = d.badAccess := rfl
@[simp] theorem updFeed_dbgSel (k : Src) (f : Feed → Feed) : (d.updFeed k f).dbgSel = d.dbgSel := rfl
@[simp] theorem updFeed_debugEnable (k : Src) (f : Feed → Feed) : (d.updFeed k f).debugEnable = d.debugEnable := rfl
@[simp] theorem updFeed_debugOn (k : Src) (f : Feed → Feed) : (d.updFeed k f).debugOn = d.debugOn := rfl
@[simp] theorem updFeed_debugEntries (k : Src) (f : Feed → Feed) : (d.updFeed k f).debugEntries = d.debugEntries := rfl
@[simp] theorem updFeed_free (k : Src) (f : Feed → Feed) : (d.updFeed k f).free = d.free := rfl
@[simp] theorem updFeed_out (k : Src) (f : Feed → Feed) : (d.updFeed k f).out = d.out := rfl

@[simp] theorem emit_deviceId (o : Out) : (d.emit o).deviceId = d.deviceId := rfl
@[simp] theorem emit_layout (o : Out) : (d.emit o).layout = d.layout := rfl
@[simp] theorem emit_layoutImage (o : Out) : (d.emit o).layoutImage = d.layoutImage := rfl
@[simp] theorem emit_mem (o : Out) : (d.emit o).mem = d.mem := rfl
@[simp] theorem emit_cores (o : Out) : (d.emit o).cores = d.cores := rfl
@[simp] theorem emit_plots (o : Out) : (d.emit o).plots = d.plots := rfl
@[simp] theorem emit_feeds (o : Out) : (d.emit o).feeds = d.feeds := rfl
@[simp] theorem emit_chans (o : Out) : (d.emit o).chans = d.chans := rfl
@[simp] theorem emit_rrChan (o : Out) : (d.emit o).rrChan = d.rrChan := rfl
@[simp] theorem emit_inTurn (o : Out) : (d.emit o).inTurn = d.inTurn := rfl
@[simp] theorem emit_jobs (o : Out) : (d.emit o).jobs = d.jobs := rfl
@[simp] theorem emit_nextJob (o : Out) : (d.emit o).nextJob = d.nextJob := rfl
@[simp] theorem emit_events (o : Out) : (d.emit o).events = d.events := rfl
@[simp] theorem emit_graphs (o : Out) : (d.emit o).graphs = d.graphs := rfl
@[simp] theorem emit_graphLaunches (o : Out) : (d.emit o).graphLaunches = d.graphLaunches := rfl
@[simp] theorem emit_taskLast (o : Out) : (d.emit o).taskLast = d.taskLast := rfl
@[simp] theorem emit_launches (o : Out) : (d.emit o).launches = d.launches := rfl
@[simp] theorem emit_fecProgress (o : Out) : (d.emit o).fecProgress = d.fecProgress := rfl
@[simp] theorem emit_windowWrites (o : Out) : (d.emit o).windowWrites = d.windowWrites := rfl
@[simp] theorem emit_engines (o : Out) : (d.emit o).engines = d.engines := rfl
@[simp] theorem emit_host (o : Out) : (d.emit o).host = d.host := rfl
@[simp] theorem emit_err (o : Out) : (d.emit o).err = d.err := rfl
@[simp] theorem emit_surv (o : Out) : (d.emit o).surv = d.surv := rfl
@[simp] theorem emit_flash (o : Out) : (d.emit o).flash = d.flash := rfl
@[simp] theorem emit_ports (o : Out) : (d.emit o).ports = d.ports := rfl
@[simp] theorem emit_routes (o : Out) : (d.emit o).routes = d.routes := rfl
@[simp] theorem emit_maxHops (o : Out) : (d.emit o).maxHops = d.maxHops := rfl
@[simp] theorem emit_pendings (o : Out) : (d.emit o).pendings = d.pendings := rfl
@[simp] theorem emit_nextTag (o : Out) : (d.emit o).nextTag = d.nextTag := rfl
@[simp] theorem emit_remoteResults (o : Out) : (d.emit o).remoteResults = d.remoteResults := rfl
@[simp] theorem emit_detected (o : Out) : (d.emit o).detected = d.detected := rfl
@[simp] theorem emit_tabs (o : Out) : (d.emit o).tabs = d.tabs := rfl
@[simp] theorem emit_caches (o : Out) : (d.emit o).caches = d.caches := rfl
@[simp] theorem emit_rake (o : Out) : (d.emit o).rake = d.rake := rfl
@[simp] theorem emit_restartWait (o : Out) : (d.emit o).restartWait = d.restartWait := rfl
@[simp] theorem emit_bar4Base (o : Out) : (d.emit o).bar4Base = d.bar4Base := rfl
@[simp] theorem emit_badAccess (o : Out) : (d.emit o).badAccess = d.badAccess := rfl
@[simp] theorem emit_dbgSel (o : Out) : (d.emit o).dbgSel = d.dbgSel := rfl
@[simp] theorem emit_debugEnable (o : Out) : (d.emit o).debugEnable = d.debugEnable := rfl
@[simp] theorem emit_debugOn (o : Out) : (d.emit o).debugOn = d.debugOn := rfl
@[simp] theorem emit_debugEntries (o : Out) : (d.emit o).debugEntries = d.debugEntries := rfl
@[simp] theorem emit_free (o : Out) : (d.emit o).free = d.free := rfl
@[simp] theorem emit_out (o : Out) : (d.emit o).out = d.out ++ [o] := rfl

@[simp] theorem finishJob_deviceId (n : Nat) (st : Status) (nf : NFlags) : (d.finishJob n st nf).deviceId = d.deviceId := rfl
@[simp] theorem finishJob_layout (n : Nat) (st : Status) (nf : NFlags) : (d.finishJob n st nf).layout = d.layout := rfl
@[simp] theorem finishJob_layoutImage (n : Nat) (st : Status) (nf : NFlags) : (d.finishJob n st nf).layoutImage = d.layoutImage := rfl
@[simp] theorem finishJob_mem (n : Nat) (st : Status) (nf : NFlags) : (d.finishJob n st nf).mem = d.mem := rfl
@[simp] theorem finishJob_cores (n : Nat) (st : Status) (nf : NFlags) : (d.finishJob n st nf).cores = d.cores := rfl
@[simp] theorem finishJob_plots (n : Nat) (st : Status) (nf : NFlags) : (d.finishJob n st nf).plots = d.plots := rfl
@[simp] theorem finishJob_feeds (n : Nat) (st : Status) (nf : NFlags) : (d.finishJob n st nf).feeds = d.feeds := rfl
@[simp] theorem finishJob_chans (n : Nat) (st : Status) (nf : NFlags) : (d.finishJob n st nf).chans = d.chans := rfl
@[simp] theorem finishJob_rrChan (n : Nat) (st : Status) (nf : NFlags) : (d.finishJob n st nf).rrChan = d.rrChan := rfl
@[simp] theorem finishJob_inTurn (n : Nat) (st : Status) (nf : NFlags) : (d.finishJob n st nf).inTurn = d.inTurn := rfl
@[simp] theorem finishJob_nextJob (n : Nat) (st : Status) (nf : NFlags) : (d.finishJob n st nf).nextJob = d.nextJob := rfl
@[simp] theorem finishJob_events (n : Nat) (st : Status) (nf : NFlags) : (d.finishJob n st nf).events = d.events := rfl
@[simp] theorem finishJob_graphs (n : Nat) (st : Status) (nf : NFlags) : (d.finishJob n st nf).graphs = d.graphs := rfl
@[simp] theorem finishJob_graphLaunches (n : Nat) (st : Status) (nf : NFlags) : (d.finishJob n st nf).graphLaunches = d.graphLaunches := rfl
@[simp] theorem finishJob_taskLast (n : Nat) (st : Status) (nf : NFlags) : (d.finishJob n st nf).taskLast = d.taskLast := rfl
@[simp] theorem finishJob_launches (n : Nat) (st : Status) (nf : NFlags) : (d.finishJob n st nf).launches = d.launches := rfl
@[simp] theorem finishJob_fecProgress (n : Nat) (st : Status) (nf : NFlags) : (d.finishJob n st nf).fecProgress = d.fecProgress := rfl
@[simp] theorem finishJob_windowWrites (n : Nat) (st : Status) (nf : NFlags) : (d.finishJob n st nf).windowWrites = d.windowWrites := rfl
@[simp] theorem finishJob_engines (n : Nat) (st : Status) (nf : NFlags) : (d.finishJob n st nf).engines = d.engines := rfl
@[simp] theorem finishJob_host (n : Nat) (st : Status) (nf : NFlags) : (d.finishJob n st nf).host = d.host := rfl
@[simp] theorem finishJob_err (n : Nat) (st : Status) (nf : NFlags) : (d.finishJob n st nf).err = d.err := rfl
@[simp] theorem finishJob_surv (n : Nat) (st : Status) (nf : NFlags) : (d.finishJob n st nf).surv = d.surv := rfl
@[simp] theorem finishJob_flash (n : Nat) (st : Status) (nf : NFlags) : (d.finishJob n st nf).flash = d.flash := rfl
@[simp] theorem finishJob_ports (n : Nat) (st : Status) (nf : NFlags) : (d.finishJob n st nf).ports = d.ports := rfl
@[simp] theorem finishJob_routes (n : Nat) (st : Status) (nf : NFlags) : (d.finishJob n st nf).routes = d.routes := rfl
@[simp] theorem finishJob_maxHops (n : Nat) (st : Status) (nf : NFlags) : (d.finishJob n st nf).maxHops = d.maxHops := rfl
@[simp] theorem finishJob_pendings (n : Nat) (st : Status) (nf : NFlags) : (d.finishJob n st nf).pendings = d.pendings := rfl
@[simp] theorem finishJob_nextTag (n : Nat) (st : Status) (nf : NFlags) : (d.finishJob n st nf).nextTag = d.nextTag := rfl
@[simp] theorem finishJob_remoteResults (n : Nat) (st : Status) (nf : NFlags) : (d.finishJob n st nf).remoteResults = d.remoteResults := rfl
@[simp] theorem finishJob_detected (n : Nat) (st : Status) (nf : NFlags) : (d.finishJob n st nf).detected = d.detected := rfl
@[simp] theorem finishJob_tabs (n : Nat) (st : Status) (nf : NFlags) : (d.finishJob n st nf).tabs = d.tabs := rfl
@[simp] theorem finishJob_caches (n : Nat) (st : Status) (nf : NFlags) : (d.finishJob n st nf).caches = d.caches := rfl
@[simp] theorem finishJob_rake (n : Nat) (st : Status) (nf : NFlags) : (d.finishJob n st nf).rake = d.rake := rfl
@[simp] theorem finishJob_restartWait (n : Nat) (st : Status) (nf : NFlags) : (d.finishJob n st nf).restartWait = d.restartWait := rfl
@[simp] theorem finishJob_bar4Base (n : Nat) (st : Status) (nf : NFlags) : (d.finishJob n st nf).bar4Base = d.bar4Base := rfl
@[simp] theorem finishJob_badAccess (n : Nat) (st : Status) (nf : NFlags) : (d.finishJob n st nf).badAccess = d.badAccess := rfl
@[simp] theorem finishJob_dbgSel (n : Nat) (st : Status) (nf : NFlags) : (d.finishJob n st nf).dbgSel = d.dbgSel := rfl
@[simp] theorem finishJob_debugEnable (n : Nat) (st : Status) (nf : NFlags) : (d.finishJob n st nf).debugEnable = d.debugEnable := rfl
@[simp] theorem finishJob_debugOn (n : Nat) (st : Status) (nf : NFlags) : (d.finishJob n st nf).debugOn = d.debugOn := rfl
@[simp] theorem finishJob_debugEntries (n : Nat) (st : Status) (nf : NFlags) : (d.finishJob n st nf).debugEntries = d.debugEntries := rfl
@[simp] theorem finishJob_free (n : Nat) (st : Status) (nf : NFlags) : (d.finishJob n st nf).free = d.free := rfl
@[simp] theorem finishJob_out (n : Nat) (st : Status) (nf : NFlags) : (d.finishJob n st nf).out = d.out := rfl

@[simp] theorem abortJob_deviceId (n : Nat) (st : Status) : (d.abortJob n st).deviceId = d.deviceId := rfl
@[simp] theorem abortJob_layout (n : Nat) (st : Status) : (d.abortJob n st).layout = d.layout := rfl
@[simp] theorem abortJob_layoutImage (n : Nat) (st : Status) : (d.abortJob n st).layoutImage = d.layoutImage := rfl
@[simp] theorem abortJob_mem (n : Nat) (st : Status) : (d.abortJob n st).mem = d.mem := rfl
@[simp] theorem abortJob_cores (n : Nat) (st : Status) : (d.abortJob n st).cores = d.cores := rfl
@[simp] theorem abortJob_plots (n : Nat) (st : Status) : (d.abortJob n st).plots = d.plots := rfl
@[simp] theorem abortJob_feeds (n : Nat) (st : Status) : (d.abortJob n st).feeds = d.feeds := rfl
@[simp] theorem abortJob_chans (n : Nat) (st : Status) : (d.abortJob n st).chans = d.chans := rfl
@[simp] theorem abortJob_rrChan (n : Nat) (st : Status) : (d.abortJob n st).rrChan = d.rrChan := rfl
@[simp] theorem abortJob_inTurn (n : Nat) (st : Status) : (d.abortJob n st).inTurn = d.inTurn := rfl
@[simp] theorem abortJob_nextJob (n : Nat) (st : Status) : (d.abortJob n st).nextJob = d.nextJob := rfl
@[simp] theorem abortJob_events (n : Nat) (st : Status) : (d.abortJob n st).events = d.events := rfl
@[simp] theorem abortJob_graphs (n : Nat) (st : Status) : (d.abortJob n st).graphs = d.graphs := rfl
@[simp] theorem abortJob_graphLaunches (n : Nat) (st : Status) : (d.abortJob n st).graphLaunches = d.graphLaunches := rfl
@[simp] theorem abortJob_taskLast (n : Nat) (st : Status) : (d.abortJob n st).taskLast = d.taskLast := rfl
@[simp] theorem abortJob_launches (n : Nat) (st : Status) : (d.abortJob n st).launches = d.launches := rfl
@[simp] theorem abortJob_fecProgress (n : Nat) (st : Status) : (d.abortJob n st).fecProgress = d.fecProgress := rfl
@[simp] theorem abortJob_windowWrites (n : Nat) (st : Status) : (d.abortJob n st).windowWrites = d.windowWrites := rfl
@[simp] theorem abortJob_engines (n : Nat) (st : Status) : (d.abortJob n st).engines = d.engines := rfl
@[simp] theorem abortJob_host (n : Nat) (st : Status) : (d.abortJob n st).host = d.host := rfl
@[simp] theorem abortJob_err (n : Nat) (st : Status) : (d.abortJob n st).err = d.err := rfl
@[simp] theorem abortJob_surv (n : Nat) (st : Status) : (d.abortJob n st).surv = d.surv := rfl
@[simp] theorem abortJob_flash (n : Nat) (st : Status) : (d.abortJob n st).flash = d.flash := rfl
@[simp] theorem abortJob_ports (n : Nat) (st : Status) : (d.abortJob n st).ports = d.ports := rfl
@[simp] theorem abortJob_routes (n : Nat) (st : Status) : (d.abortJob n st).routes = d.routes := rfl
@[simp] theorem abortJob_maxHops (n : Nat) (st : Status) : (d.abortJob n st).maxHops = d.maxHops := rfl
@[simp] theorem abortJob_pendings (n : Nat) (st : Status) : (d.abortJob n st).pendings = d.pendings := rfl
@[simp] theorem abortJob_nextTag (n : Nat) (st : Status) : (d.abortJob n st).nextTag = d.nextTag := rfl
@[simp] theorem abortJob_remoteResults (n : Nat) (st : Status) : (d.abortJob n st).remoteResults = d.remoteResults := rfl
@[simp] theorem abortJob_detected (n : Nat) (st : Status) : (d.abortJob n st).detected = d.detected := rfl
@[simp] theorem abortJob_tabs (n : Nat) (st : Status) : (d.abortJob n st).tabs = d.tabs := rfl
@[simp] theorem abortJob_caches (n : Nat) (st : Status) : (d.abortJob n st).caches = d.caches := rfl
@[simp] theorem abortJob_rake (n : Nat) (st : Status) : (d.abortJob n st).rake = d.rake := rfl
@[simp] theorem abortJob_restartWait (n : Nat) (st : Status) : (d.abortJob n st).restartWait = d.restartWait := rfl
@[simp] theorem abortJob_bar4Base (n : Nat) (st : Status) : (d.abortJob n st).bar4Base = d.bar4Base := rfl
@[simp] theorem abortJob_badAccess (n : Nat) (st : Status) : (d.abortJob n st).badAccess = d.badAccess := rfl
@[simp] theorem abortJob_dbgSel (n : Nat) (st : Status) : (d.abortJob n st).dbgSel = d.dbgSel := rfl
@[simp] theorem abortJob_debugEnable (n : Nat) (st : Status) : (d.abortJob n st).debugEnable = d.debugEnable := rfl
@[simp] theorem abortJob_debugOn (n : Nat) (st : Status) : (d.abortJob n st).debugOn = d.debugOn := rfl
@[simp] theorem abortJob_debugEntries (n : Nat) (st : Status) : (d.abortJob n st).debugEntries = d.debugEntries := rfl
@[simp] theorem abortJob_free (n : Nat) (st : Status) : (d.abortJob n st).free = d.free := rfl
@[simp] theorem abortJob_out (n : Nat) (st : Status) : (d.abortJob n st).out = d.out := rfl

@[simp] theorem dropJob_deviceId (n : Nat) : (d.dropJob n).deviceId = d.deviceId := rfl
@[simp] theorem dropJob_layout (n : Nat) : (d.dropJob n).layout = d.layout := rfl
@[simp] theorem dropJob_layoutImage (n : Nat) : (d.dropJob n).layoutImage = d.layoutImage := rfl
@[simp] theorem dropJob_mem (n : Nat) : (d.dropJob n).mem = d.mem := rfl
@[simp] theorem dropJob_cores (n : Nat) : (d.dropJob n).cores = d.cores := rfl
@[simp] theorem dropJob_plots (n : Nat) : (d.dropJob n).plots = d.plots := rfl
@[simp] theorem dropJob_feeds (n : Nat) : (d.dropJob n).feeds = d.feeds := rfl
@[simp] theorem dropJob_chans (n : Nat) : (d.dropJob n).chans = d.chans := rfl
@[simp] theorem dropJob_rrChan (n : Nat) : (d.dropJob n).rrChan = d.rrChan := rfl
@[simp] theorem dropJob_inTurn (n : Nat) : (d.dropJob n).inTurn = d.inTurn := rfl
@[simp] theorem dropJob_nextJob (n : Nat) : (d.dropJob n).nextJob = d.nextJob := rfl
@[simp] theorem dropJob_events (n : Nat) : (d.dropJob n).events = d.events := rfl
@[simp] theorem dropJob_graphs (n : Nat) : (d.dropJob n).graphs = d.graphs := rfl
@[simp] theorem dropJob_graphLaunches (n : Nat) : (d.dropJob n).graphLaunches = d.graphLaunches := rfl
@[simp] theorem dropJob_taskLast (n : Nat) : (d.dropJob n).taskLast = d.taskLast := rfl
@[simp] theorem dropJob_fecProgress (n : Nat) : (d.dropJob n).fecProgress = d.fecProgress := rfl
@[simp] theorem dropJob_windowWrites (n : Nat) : (d.dropJob n).windowWrites = d.windowWrites := rfl
@[simp] theorem dropJob_engines (n : Nat) : (d.dropJob n).engines = d.engines := rfl
@[simp] theorem dropJob_host (n : Nat) : (d.dropJob n).host = d.host := rfl
@[simp] theorem dropJob_err (n : Nat) : (d.dropJob n).err = d.err := rfl
@[simp] theorem dropJob_surv (n : Nat) : (d.dropJob n).surv = d.surv := rfl
@[simp] theorem dropJob_flash (n : Nat) : (d.dropJob n).flash = d.flash := rfl
@[simp] theorem dropJob_ports (n : Nat) : (d.dropJob n).ports = d.ports := rfl
@[simp] theorem dropJob_routes (n : Nat) : (d.dropJob n).routes = d.routes := rfl
@[simp] theorem dropJob_maxHops (n : Nat) : (d.dropJob n).maxHops = d.maxHops := rfl
@[simp] theorem dropJob_pendings (n : Nat) : (d.dropJob n).pendings = d.pendings := rfl
@[simp] theorem dropJob_nextTag (n : Nat) : (d.dropJob n).nextTag = d.nextTag := rfl
@[simp] theorem dropJob_remoteResults (n : Nat) : (d.dropJob n).remoteResults = d.remoteResults := rfl
@[simp] theorem dropJob_detected (n : Nat) : (d.dropJob n).detected = d.detected := rfl
@[simp] theorem dropJob_tabs (n : Nat) : (d.dropJob n).tabs = d.tabs := rfl
@[simp] theorem dropJob_caches (n : Nat) : (d.dropJob n).caches = d.caches := rfl
@[simp] theorem dropJob_rake (n : Nat) : (d.dropJob n).rake = d.rake := rfl
@[simp] theorem dropJob_restartWait (n : Nat) : (d.dropJob n).restartWait = d.restartWait := rfl
@[simp] theorem dropJob_bar4Base (n : Nat) : (d.dropJob n).bar4Base = d.bar4Base := rfl
@[simp] theorem dropJob_badAccess (n : Nat) : (d.dropJob n).badAccess = d.badAccess := rfl
@[simp] theorem dropJob_dbgSel (n : Nat) : (d.dropJob n).dbgSel = d.dbgSel := rfl
@[simp] theorem dropJob_debugEnable (n : Nat) : (d.dropJob n).debugEnable = d.debugEnable := rfl
@[simp] theorem dropJob_debugOn (n : Nat) : (d.dropJob n).debugOn = d.debugOn := rfl
@[simp] theorem dropJob_debugEntries (n : Nat) : (d.dropJob n).debugEntries = d.debugEntries := rfl
@[simp] theorem dropJob_free (n : Nat) : (d.dropJob n).free = d.free := rfl
@[simp] theorem dropJob_out (n : Nat) : (d.dropJob n).out = d.out := rfl

@[simp] theorem updPlot_deviceId (n : Nat) (f : Plot → Plot) : (d.updPlot n f).deviceId = d.deviceId := by unfold updPlot; split <;> rfl
@[simp] theorem updPlot_layout (n : Nat) (f : Plot → Plot) : (d.updPlot n f).layout = d.layout := by unfold updPlot; split <;> rfl
@[simp] theorem updPlot_layoutImage (n : Nat) (f : Plot → Plot) : (d.updPlot n f).layoutImage = d.layoutImage := by unfold updPlot; split <;> rfl
@[simp] theorem updPlot_mem (n : Nat) (f : Plot → Plot) : (d.updPlot n f).mem = d.mem := by unfold updPlot; split <;> rfl
@[simp] theorem updPlot_cores (n : Nat) (f : Plot → Plot) : (d.updPlot n f).cores = d.cores := by unfold updPlot; split <;> rfl
@[simp] theorem updPlot_feeds (n : Nat) (f : Plot → Plot) : (d.updPlot n f).feeds = d.feeds := by unfold updPlot; split <;> rfl
@[simp] theorem updPlot_chans (n : Nat) (f : Plot → Plot) : (d.updPlot n f).chans = d.chans := by unfold updPlot; split <;> rfl
@[simp] theorem updPlot_rrChan (n : Nat) (f : Plot → Plot) : (d.updPlot n f).rrChan = d.rrChan := by unfold updPlot; split <;> rfl
@[simp] theorem updPlot_inTurn (n : Nat) (f : Plot → Plot) : (d.updPlot n f).inTurn = d.inTurn := by unfold updPlot; split <;> rfl
@[simp] theorem updPlot_jobs (n : Nat) (f : Plot → Plot) : (d.updPlot n f).jobs = d.jobs := by unfold updPlot; split <;> rfl
@[simp] theorem updPlot_nextJob (n : Nat) (f : Plot → Plot) : (d.updPlot n f).nextJob = d.nextJob := by unfold updPlot; split <;> rfl
@[simp] theorem updPlot_events (n : Nat) (f : Plot → Plot) : (d.updPlot n f).events = d.events := by unfold updPlot; split <;> rfl
@[simp] theorem updPlot_graphs (n : Nat) (f : Plot → Plot) : (d.updPlot n f).graphs = d.graphs := by unfold updPlot; split <;> rfl
@[simp] theorem updPlot_graphLaunches (n : Nat) (f : Plot → Plot) : (d.updPlot n f).graphLaunches = d.graphLaunches := by unfold updPlot; split <;> rfl
@[simp] theorem updPlot_taskLast (n : Nat) (f : Plot → Plot) : (d.updPlot n f).taskLast = d.taskLast := by unfold updPlot; split <;> rfl
@[simp] theorem updPlot_launches (n : Nat) (f : Plot → Plot) : (d.updPlot n f).launches = d.launches := by unfold updPlot; split <;> rfl
@[simp] theorem updPlot_fecProgress (n : Nat) (f : Plot → Plot) : (d.updPlot n f).fecProgress = d.fecProgress := by unfold updPlot; split <;> rfl
@[simp] theorem updPlot_windowWrites (n : Nat) (f : Plot → Plot) : (d.updPlot n f).windowWrites = d.windowWrites := by unfold updPlot; split <;> rfl
@[simp] theorem updPlot_engines (n : Nat) (f : Plot → Plot) : (d.updPlot n f).engines = d.engines := by unfold updPlot; split <;> rfl
@[simp] theorem updPlot_host (n : Nat) (f : Plot → Plot) : (d.updPlot n f).host = d.host := by unfold updPlot; split <;> rfl
@[simp] theorem updPlot_err (n : Nat) (f : Plot → Plot) : (d.updPlot n f).err = d.err := by unfold updPlot; split <;> rfl
@[simp] theorem updPlot_surv (n : Nat) (f : Plot → Plot) : (d.updPlot n f).surv = d.surv := by unfold updPlot; split <;> rfl
@[simp] theorem updPlot_flash (n : Nat) (f : Plot → Plot) : (d.updPlot n f).flash = d.flash := by unfold updPlot; split <;> rfl
@[simp] theorem updPlot_ports (n : Nat) (f : Plot → Plot) : (d.updPlot n f).ports = d.ports := by unfold updPlot; split <;> rfl
@[simp] theorem updPlot_routes (n : Nat) (f : Plot → Plot) : (d.updPlot n f).routes = d.routes := by unfold updPlot; split <;> rfl
@[simp] theorem updPlot_maxHops (n : Nat) (f : Plot → Plot) : (d.updPlot n f).maxHops = d.maxHops := by unfold updPlot; split <;> rfl
@[simp] theorem updPlot_pendings (n : Nat) (f : Plot → Plot) : (d.updPlot n f).pendings = d.pendings := by unfold updPlot; split <;> rfl
@[simp] theorem updPlot_nextTag (n : Nat) (f : Plot → Plot) : (d.updPlot n f).nextTag = d.nextTag := by unfold updPlot; split <;> rfl
@[simp] theorem updPlot_remoteResults (n : Nat) (f : Plot → Plot) : (d.updPlot n f).remoteResults = d.remoteResults := by unfold updPlot; split <;> rfl
@[simp] theorem updPlot_detected (n : Nat) (f : Plot → Plot) : (d.updPlot n f).detected = d.detected := by unfold updPlot; split <;> rfl
@[simp] theorem updPlot_tabs (n : Nat) (f : Plot → Plot) : (d.updPlot n f).tabs = d.tabs := by unfold updPlot; split <;> rfl
@[simp] theorem updPlot_caches (n : Nat) (f : Plot → Plot) : (d.updPlot n f).caches = d.caches := by unfold updPlot; split <;> rfl
@[simp] theorem updPlot_rake (n : Nat) (f : Plot → Plot) : (d.updPlot n f).rake = d.rake := by unfold updPlot; split <;> rfl
@[simp] theorem updPlot_restartWait (n : Nat) (f : Plot → Plot) : (d.updPlot n f).restartWait = d.restartWait := by unfold updPlot; split <;> rfl
@[simp] theorem updPlot_bar4Base (n : Nat) (f : Plot → Plot) : (d.updPlot n f).bar4Base = d.bar4Base := by unfold updPlot; split <;> rfl
@[simp] theorem updPlot_badAccess (n : Nat) (f : Plot → Plot) : (d.updPlot n f).badAccess = d.badAccess := by unfold updPlot; split <;> rfl
@[simp] theorem updPlot_dbgSel (n : Nat) (f : Plot → Plot) : (d.updPlot n f).dbgSel = d.dbgSel := by unfold updPlot; split <;> rfl
@[simp] theorem updPlot_debugEnable (n : Nat) (f : Plot → Plot) : (d.updPlot n f).debugEnable = d.debugEnable := by unfold updPlot; split <;> rfl
@[simp] theorem updPlot_debugOn (n : Nat) (f : Plot → Plot) : (d.updPlot n f).debugOn = d.debugOn := by unfold updPlot; split <;> rfl
@[simp] theorem updPlot_debugEntries (n : Nat) (f : Plot → Plot) : (d.updPlot n f).debugEntries = d.debugEntries := by unfold updPlot; split <;> rfl
@[simp] theorem updPlot_free (n : Nat) (f : Plot → Plot) : (d.updPlot n f).free = d.free := by unfold updPlot; split <;> rfl
@[simp] theorem updPlot_out (n : Nat) (f : Plot → Plot) : (d.updPlot n f).out = d.out := by unfold updPlot; split <;> rfl

end Dev
end Sys2Proof.Machine
end

