-- ==== Sys2Proof/Laws/Tbl.lean ====
section
/-! SUPPORT. Laws of sparse tables: a read after a write, and the canonical form. -/
namespace Sys2Proof.Machine.Tbl

variable {α : Type} (d : α)

@[simp] theorem get_ins_self (k : Nat) (v : α) (t : Tbl α) : get d k (ins k v t) = v := by
  induction t with
  | nil => simp [ins, get]
  | cons p t ih =>
    obtain ⟨k', v'⟩ := p
    simp only [ins]
    split
    · simp [get]
    · split
      · simp [get]
      · simp only [get]; rw [if_neg ‹_›, ih]

theorem get_ins_other {k j : Nat} (h : j ≠ k) (v : α) (t : Tbl α) : get d j (ins k v t) = get d j t := by
  induction t with
  | nil => simp [ins, get, h]
  | cons p t ih =>
    obtain ⟨k', v'⟩ := p
    simp only [ins]
    split
    · subst_vars; simp [get, h]
    · split
      · simp only [get, h, if_false]
      · simp only [get, ih]

@[simp] theorem get_del_self (k : Nat) (t : Tbl α) : get d k (del k t) = d := by
  induction t with
  | nil => rfl
  | cons p t ih =>
    obtain ⟨k', v'⟩ := p
    simp only [del]
    split
    · exact ih
    · simp only [get]; rw [if_neg ‹_›, ih]

theorem get_del_other {k j : Nat} (h : j ≠ k) (t : Tbl α) : get d j (del k t) = get d j t := by
  induction t with
  | nil => rfl
  | cons p t ih =>
    obtain ⟨k', v'⟩ := p
    simp only [del]
    split
    · subst_vars; simp only [get, h, if_false, ih]
    · simp only [get, ih]

variable [DecidableEq α]

/-- A read of the key just written gives the value written. -/
@[simp] theorem get_set_self (k : Nat) (v : α) (t : Tbl α) : get d k (set d k v t) = v := by
  unfold set
  split
  · subst_vars; exact get_del_self v k t
  · exact get_ins_self d k v t

/-- A write leaves every other key alone. -/
theorem get_set_other {k j : Nat} (h : j ≠ k) (v : α) (t : Tbl α) : get d j (set d k v t) = get d j t := by
  unfold set
  split
  · exact get_del_other d h t
  · exact get_ins_other d h v t

@[simp] theorem get_upd_self (k : Nat) (f : α → α) (t : Tbl α) : get d k (upd d k f t) = f (get d k t) := get_set_self d k _ t

theorem get_upd_other {k j : Nat} (h : j ≠ k) (f : α → α) (t : Tbl α) : get d j (upd d k f t) = get d j t :=
  get_set_other d h _ t

/-- Writing a range leaves the keys outside it alone. -/
theorem get_setRange_outside {j : Nat} (k : Nat) (vs : List α) (t : Tbl α) (h : j < k ∨ k + vs.length ≤ j) :
    get d j (setRange d k vs t) = get d j t := by
  induction vs generalizing k t with
  | nil => rfl
  | cons v vs ih =>
    simp only [setRange]
    rw [ih (k + 1) _ (by simp at h; omega), get_set_other d (by simp at h; omega) v t]

theorem wfFrom_mono {m n : Nat} {t : Tbl α} (h : m ≤ n) (w : wfFrom d n t = true) : wfFrom d m t = true := by
  cases t with
  | nil => rfl
  | cons p t => simp [wfFrom] at *; exact ⟨⟨by omega, w.1.2⟩, w.2⟩

theorem get_below {n j : Nat} {t : Tbl α} (w : wfFrom d n t = true) (h : j < n) : get d j t = d := by
  induction t generalizing n with
  | nil => rfl
  | cons p t ih => simp [wfFrom] at w; simp only [get]; rw [if_neg (by omega), ih w.2 (by omega)]

theorem wfFrom_ins {n k : Nat} {v : α} (hk : n ≤ k) (hv : v ≠ d) {t : Tbl α} (w : wfFrom d n t = true) :
    wfFrom d n (ins k v t) = true := by
  induction t generalizing n with
  | nil => simp [ins, wfFrom, hk, hv]
  | cons p t ih =>
    obtain ⟨k', v'⟩ := p
    simp [wfFrom] at w
    simp only [ins]
    split
    · subst_vars; simp [wfFrom, hk, hv, w.2]
    · split
      · simp [wfFrom, hk, hv, w.1.2, w.2]; omega
      · simp [wfFrom, w.1]; exact ih (by omega) w.2

theorem wfFrom_del {n : Nat} (k : Nat) {t : Tbl α} (w : wfFrom d n t = true) : wfFrom d n (del k t) = true := by
  induction t generalizing n with
  | nil => rfl
  | cons p t ih =>
    obtain ⟨k', v'⟩ := p
    simp [wfFrom] at w
    simp only [del]
    split
    · exact wfFrom_mono d (Nat.le_succ_of_le w.1.1) (ih w.2)
    · simp [wfFrom, w.1]; exact ih w.2

/-- A write keeps the canonical form. -/
theorem wf_set (k : Nat) (v : α) {t : Tbl α} (w : wf d t = true) : wf d (set d k v t) = true := by
  unfold set
  split
  · exact wfFrom_del d k w
  · exact wfFrom_ins d (by omega) ‹_› w

/-- A change of one entry keeps the canonical form. -/
theorem wf_upd (k : Nat) (f : α → α) {t : Tbl α} (w : wf d t = true) : wf d (upd d k f t) = true := wf_set d k _ w

/-- Writing a range keeps the canonical form. -/
theorem wf_setRange (k : Nat) (vs : List α) {t : Tbl α} (w : wf d t = true) : wf d (setRange d k vs t) = true := by
  induction vs generalizing k t with
  | nil => exact w
  | cons v vs ih => exact ih (k + 1) (wf_set d k v w)

/-- Two tables in canonical form that read alike at every key are the same data. -/
theorem ext_of_get {m n : Nat} {s t : Tbl α} (ws : wfFrom d m s = true) (wt : wfFrom d n t = true)
    (h : ∀ k, get d k s = get d k t) : s = t := by
  induction s generalizing m n t with
  | nil =>
    cases t with
    | nil => rfl
    | cons p t =>
      have hk := h p.1
      simp [wfFrom] at wt
      simp [get] at hk
      exact absurd hk.symm wt.1.2
  | cons p s ih =>
    cases t with
    | nil =>
      have hk := h p.1
      simp [wfFrom] at ws
      simp [get] at hk
      exact absurd hk ws.1.2
    | cons q t =>
      obtain ⟨k1, v1⟩ := p
      obtain ⟨k2, v2⟩ := q
      simp [wfFrom] at ws wt
      have e : k1 = k2 := by
        apply Decidable.byContradiction; intro hne
        rcases Nat.lt_or_gt_of_ne hne with hl | hl
        · have := h k1
          simp only [get, if_true] at this
          rw [if_neg hne, get_below d wt.2 (by omega)] at this
          exact ws.1.2 this
        · have := h k2
          simp only [get, if_true] at this
          rw [if_neg (Ne.symm hne), get_below d ws.2 (by omega)] at this
          exact wt.1.2 this.symm
      subst e
      have ev : v1 = v2 := by have := h k1; simpa [get] using this
      subst ev
      congr 1
      refine ih ws.2 wt.2 fun k => ?_
      by_cases hk : k ≤ k1
      · rw [get_below d ws.2 (by omega), get_below d wt.2 (by omega)]
      · have := h k
        simp only [get] at this
        rwa [if_neg (by omega), if_neg (by omega)] at this

end Sys2Proof.Machine.Tbl
end

