-- ==== Sys2Proof/Laws/Mem.lean ====
section
/-! SUPPORT. Laws of the local memory: every operation that writes it keeps its canonical form, changes nothing beside it,
and leaves the bytes outside the ones written alone. -/
namespace Sys2Proof.Machine

/-- Reset memory lists nothing, and so is in its canonical form. -/
theorem Memory.wf_reset : Memory.wf State.reset.dev.mem = true := rfl

namespace Dev

/-- What a write of one byte can do: nothing, or one entry of the memory set. -/
theorem setLocalByte_cases (d : Dev) (o : Nat) (b : Byte) :
    d.setLocalByte o b = d ∨ d.setLocalByte o b = { d with mem := Tbl.set unlistedByte o b d.mem } := by
  unfold setLocalByte
  split <;> (try split) <;> simp

theorem wf_setLocalByte {d : Dev} (o : Nat) (b : Byte) (h : Memory.wf d.mem = true) :
    Memory.wf (d.setLocalByte o b).mem = true := by
  rcases setLocalByte_cases d o b with e | e <;> rw [e]
  · exact h
  · exact Tbl.wf_set _ o b h

theorem wf_setLocalBytes {d : Dev} (o : Nat) (b : Bytes) (h : Memory.wf d.mem = true) :
    Memory.wf (d.setLocalBytes o b).mem = true := by
  induction b generalizing d o with
  | nil => exact h
  | cons x xs ih => exact ih (o + 1) (wf_setLocalByte o x h)

/-- A write of one byte changes nothing but the memory. -/
theorem setLocalByte_frame (d : Dev) (o : Nat) (b : Byte) : d.setLocalByte o b = { d with mem := (d.setLocalByte o b).mem } := by
  rcases setLocalByte_cases d o b with e | e <;> rw [e]

/-- Two writes one after another change nothing but the memory, when each does. -/
theorem setMem_trans {d e f : Dev} (h : e = { d with mem := e.mem }) (k : f = { e with mem := f.mem }) :
    f = { d with mem := f.mem } := by rw [h] at k; exact k

/-- A write of bytes changes nothing but the memory. -/
theorem setLocalBytes_frame (d : Dev) (o : Nat) (b : Bytes) :
    d.setLocalBytes o b = { d with mem := (d.setLocalBytes o b).mem } := by
  induction b generalizing d o with
  | nil => rfl
  | cons x xs ih => exact setMem_trans (setLocalByte_frame d o x) (ih (d.setLocalByte o x) (o + 1))

/-- What the local memory reads as depends on the memory only at the byte's own offset. -/
theorem localByte_congr {d : Dev} {m : Tbl Byte} {x : Nat} (h : Tbl.get unlistedByte x m = Tbl.get unlistedByte x d.mem) :
    ({ d with mem := m } : Dev).localByte x = d.localByte x := by
  have hg (r : Nat) : ({ d with mem := m } : Dev).graphByte r = d.graphByte r := rfl
  have he (r : Nat) : ({ d with mem := m } : Dev).eventByte r = d.eventByte r := rfl
  unfold localByte
  split <;> (try split) <;> (try split) <;> simp_all [core]

theorem get_setLocalByte {d : Dev} {o x : Nat} (b : Byte) (h : x ≠ o) :
    Tbl.get unlistedByte x (d.setLocalByte o b).mem = Tbl.get unlistedByte x d.mem := by
  rcases setLocalByte_cases d o b with e | e <;> rw [e]
  exact Tbl.get_set_other _ h b d.mem

theorem get_setLocalBytes {d : Dev} {o x : Nat} (b : Bytes) (h : x < o ∨ o + b.length ≤ x) :
    Tbl.get unlistedByte x (d.setLocalBytes o b).mem = Tbl.get unlistedByte x d.mem := by
  induction b generalizing d o with
  | nil => rfl
  | cons y ys ih =>
    simp only [setLocalBytes]
    rw [ih (by simp at h; omega), get_setLocalByte y (by simp at h; omega)]

/-- A byte outside the bytes written reads as before. -/
theorem localByte_setLocalBytes {d : Dev} {o x : Nat} (b : Bytes) (h : x < o ∨ o + b.length ≤ x) :
    (d.setLocalBytes o b).localByte x = d.localByte x := by
  rw [setLocalBytes_frame]
  exact localByte_congr (get_setLocalBytes b h)

/-- A byte written in HBM outside the device region reads as written. -/
theorem localByte_setLocalByte_hbm {d : Dev} {o c r : Nat} (b : Byte) (hr : regionOf o = (.hbm c, r))
    (hd : inDeviceRegion r = false) : (d.setLocalByte o b).localByte o = b := by
  simp [setLocalByte, localByte, hr, hd]

end Dev
end Sys2Proof.Machine
end

