-- ==== Sys2Proof/Laws/Ops.lean ====
section
/-! SUPPORT. What each shared operation of the commands can do: the digital part, the management part, units by number. -/
namespace Sys2Proof.Machine

/-- Work of the device that goes on: only the digital part changes. -/
theorem onDev_live {f : Dev → Dev} {s : State} (h : s.live = true) : onDev f s = .next { s with dev := f s.dev } := by
  simp [onDev, h]

/-- Work of a device that is off, in test mode or fatal: nothing changes. -/
theorem onDev_dead {f : Dev → Dev} {s : State} (h : s.live = false) : onDev f s = .next s := by simp [onDev, h]

/-- Everything that work of the device can do. -/
theorem onDev_cases {f : Dev → Dev} {s t : State} (h : onDev f s = .next t) :
    (s.live = true ∧ t = { s with dev := f s.dev }) ∨ (s.live = false ∧ t = s) := by
  cases hl : s.live
  · rw [onDev_dead hl] at h; exact .inr ⟨rfl, by cases h; rfl⟩
  · rw [onDev_live hl] at h; exact .inl ⟨rfl, by cases h; rfl⟩

/-- Everything that an operation of the powered device can do. -/
theorem onAny_cases {f : Dev → Dev} {s t : State} (h : onAny f s = .next t) :
    (s.mc.pwr.state = .on ∧ t = { s with dev := f s.dev }) ∨ (s.mc.pwr.state ≠ .on ∧ t = s) := by
  unfold onAny at h
  split at h
  · exact .inl ⟨‹_›, by cases h; rfl⟩
  · exact .inr ⟨‹_›, by cases h; rfl⟩

/-- Everything that an operation of the management controller can do. -/
theorem onMc_cases {f : Mc → Mc} {s t : State} (h : onMc f s = .next t) : t = { s with mc := f s.mc } := by
  unfold onMc at h; cases h; rfl

/-- Everything that a host write to a register of the management controller can do. -/
theorem hostToMc_cases {f : Mc → Mc} {s t : State} (h : hostToMc f s = .next t) :
    (s.live = true ∧ t = { s with mc := f s.mc }) ∨ (s.live = false ∧ t = s) := by
  unfold hostToMc at h
  split at h
  · exact .inl ⟨‹_›, by cases h; rfl⟩
  · exact .inr ⟨by simp_all, by cases h; rfl⟩

/-- Everything that an operation of the management interface can do. -/
theorem managed_cases {f : Mc → Mc} {s t : State} (h : managed f s = .next t) :
    (s.mc.pwr.state ≠ .off ∧ t = { s with mc := f s.mc }) ∨ (s.mc.pwr.state = .off ∧ t = s) := by
  unfold managed at h
  have := onMc_cases h
  by_cases hp : s.mc.pwr.state = .off
  · exact .inr ⟨hp, by simp [hp] at this; exact this⟩
  · exact .inl ⟨hp, by simp [hp] at this; exact this⟩

namespace Dev
variable (d : Dev)

@[simp] theorem core_setCore (n : Nat) (x : Core) : (d.setCore n x).core n = x := Tbl.get_set_self ({} : Core) n x d.cores
theorem core_setCore_other {m n : Nat} (h : m ≠ n) (x : Core) : (d.setCore n x).core m = d.core m :=
  Tbl.get_set_other ({} : Core) h x d.cores
@[simp] theorem core_updCore (n : Nat) (f : Core → Core) : (d.updCore n f).core n = f (d.core n) := core_setCore d n _
theorem core_updCore_other {m n : Nat} (h : m ≠ n) (f : Core → Core) : (d.updCore n f).core m = d.core m :=
  core_setCore_other d h _
@[simp] theorem chan_setChan (n : Nat) (x : Chan) : (d.setChan n x).chan n = x := Tbl.get_set_self ({} : Chan) n x d.chans
theorem chan_setChan_other {m n : Nat} (h : m ≠ n) (x : Chan) : (d.setChan n x).chan m = d.chan m :=
  Tbl.get_set_other ({} : Chan) h x d.chans
@[simp] theorem chan_updChan (n : Nat) (f : Chan → Chan) : (d.updChan n f).chan n = f (d.chan n) := chan_setChan d n _
theorem chan_updChan_other {m n : Nat} (h : m ≠ n) (f : Chan → Chan) : (d.updChan n f).chan m = d.chan m :=
  chan_setChan_other d h _
@[simp] theorem plot_setPlot (n : Nat) (x : Plot) : (d.setPlot n x).plot n = some x := Tbl.get_set_self none n (some x) d.plots
theorem plot_setPlot_other {m n : Nat} (h : m ≠ n) (x : Plot) : (d.setPlot n x).plot m = d.plot m :=
  Tbl.get_set_other none h (some x) d.plots
@[simp] theorem plot_updPlot (n : Nat) (f : Plot → Plot) : (d.updPlot n f).plot n = (d.plot n).map f := by
  unfold updPlot
  cases h : d.plot n with
  | none => simp [h]
  | some x => simp
@[simp] theorem port_updPort (n : Nat) (f : Port → Port) : (d.updPort n f).port n = f (d.port n) :=
  Tbl.get_set_self ({} : Port) n _ d.ports
theorem port_updPort_other {m n : Nat} (h : m ≠ n) (f : Port → Port) : (d.updPort n f).port m = d.port m :=
  Tbl.get_set_other ({} : Port) h _ d.ports
@[simp] theorem graph_setGraph (n : Nat) (x : Option Graph) : (d.setGraph n x).graph n = x := Tbl.get_set_self none n x d.graphs
@[simp] theorem eventVal_setEvent (n v : Nat) : (d.setEvent n v).eventVal n = v := Tbl.get_set_self 0 n v d.events
theorem eventVal_setEvent_other {m n : Nat} (h : m ≠ n) (v : Nat) : (d.setEvent n v).eventVal m = d.eventVal m :=
  Tbl.get_set_other 0 h v d.events

/-- What is sent toward the host changes the host link's state and the output alone. -/
theorem toHost_frame (o : HostOut) : d.toHost o = { d with host := (d.toHost o).host, out := (d.toHost o).out } := by
  unfold toHost cachePages emit; split <;> (try split) <;> (try split) <;> rfl

theorem msix_frame (v : Nat) : d.msix v = { d with host := (d.msix v).host, out := (d.msix v).out } := by
  unfold msix; split
  · rfl
  · exact toHost_frame d _

/-- An error record changes the error block, the host link's state and the output alone. -/
theorem report_frame (r : ErrRec) :
    d.report r = { d with err := (d.report r).err, host := (d.report r).host, out := (d.report r).out } := by
  unfold report errVector
  dsimp only
  split <;> split <;> (try split) <;> first | rfl | (rw [msix_frame])

end Dev
end Sys2Proof.Machine
end

