-- ==== Sys2Proof/Laws/PerInstr.lean ====
section
/-! SUPPORT. The families of statements that are made for every command: that no word spells it, since the table gives bits
to no row. -/
namespace Sys2Proof.Laws.NoWord

/-- No word of any length spells the command. -/
def Statement (i : Instr) : Prop := ∀ nbits w, decodeTableWord nbits w ≠ some i

theorem nop (c : Fin 64) (d : Desc) (env : Env) : Statement (.nop c d env) := fun _ _ h => nomatch h
theorem recordEvent (c : Fin 64) (d : Desc) (env : Env) : Statement (.recordEvent c d env) := fun _ _ h => nomatch h
theorem recordEventApply (job : Nat) : Statement (.recordEventApply job) := fun _ _ h => nomatch h
theorem waitEvent (c : Fin 64) (d : Desc) (env : Env) : Statement (.waitEvent c d env) := fun _ _ h => nomatch h
theorem progressScan (c : Fin 64) (d : Desc) (env : Env) : Statement (.progressScan c d env) := fun _ _ h => nomatch h
theorem loadLayout (c : Fin 64) (d : Desc) (env : Env) : Statement (.loadLayout c d env) := fun _ _ h => nomatch h
theorem loadGrove (c : Fin 64) (d : Desc) (env : Env) : Statement (.loadGrove c d env) := fun _ _ h => nomatch h
theorem evictGrove (c : Fin 64) (d : Desc) (env : Env) : Statement (.evictGrove c d env) := fun _ _ h => nomatch h
theorem graft (c : Fin 64) (d : Desc) (env : Env) : Statement (.graft c d env) := fun _ _ h => nomatch h
theorem scoreBatch (c : Fin 64) (d : Desc) (env : Env) : Statement (.scoreBatch c d env) := fun _ _ h => nomatch h
theorem residentScore (c : Fin 64) (d : Desc) (env : Env) : Statement (.residentScore c d env) := fun _ _ h => nomatch h
theorem stopResident (c : Fin 64) (d : Desc) (env : Env) : Statement (.stopResident c d env) := fun _ _ h => nomatch h
theorem histBuild (c : Fin 64) (d : Desc) (env : Env) : Statement (.histBuild c d env) := fun _ _ h => nomatch h
theorem splitFind (c : Fin 64) (d : Desc) (env : Env) : Statement (.splitFind c d env) := fun _ _ h => nomatch h
theorem partition (c : Fin 64) (d : Desc) (env : Env) : Statement (.partition c d env) := fun _ _ h => nomatch h
theorem leafFit (c : Fin 64) (d : Desc) (env : Env) : Statement (.leafFit c d env) := fun _ _ h => nomatch h
theorem snapshotStep (c : Fin 64) (d : Desc) (env : Env) : Statement (.snapshotStep c d env) := fun _ _ h => nomatch h
theorem snapshotEpoch (c : Fin 64) (d : Desc) (env : Env) : Statement (.snapshotEpoch c d env) := fun _ _ h => nomatch h
theorem snapshotFull (c : Fin 64) (d : Desc) (env : Env) : Statement (.snapshotFull c d env) := fun _ _ h => nomatch h
theorem snapshotReadback (c : Fin 64) (d : Desc) (env : Env) : Statement (.snapshotReadback c d env) := fun _ _ h => nomatch h
theorem gather (c : Fin 64) (d : Desc) (env : Env) : Statement (.gather c d env) := fun _ _ h => nomatch h
theorem update (c : Fin 64) (d : Desc) (env : Env) : Statement (.update c d env) := fun _ _ h => nomatch h
theorem tableSync (c : Fin 64) (d : Desc) (env : Env) : Statement (.tableSync c d env) := fun _ _ h => nomatch h
theorem accPreload (c : Fin 64) (d : Desc) (env : Env) : Statement (.accPreload c d env) := fun _ _ h => nomatch h
theorem tilePreloadWrite (job : Nat) (env : Env) : Statement (.tilePreloadWrite job env) := fun _ _ h => nomatch h
theorem accPreloadStream (c : Fin 64) (d : Desc) (env : Env) : Statement (.accPreloadStream c d env) := fun _ _ h => nomatch h
theorem accPreloadDisarm (c : Fin 64) (d : Desc) (env : Env) : Statement (.accPreloadDisarm c d env) := fun _ _ h => nomatch h
theorem accReduce (c : Fin 64) (d : Desc) (env : Env) : Statement (.accReduce c d env) := fun _ _ h => nomatch h
theorem accRelease (c : Fin 64) (d : Desc) (env : Env) : Statement (.accRelease c d env) := fun _ _ h => nomatch h
theorem accFinish (c : Fin 64) (d : Desc) (env : Env) : Statement (.accFinish c d env) := fun _ _ h => nomatch h
theorem accFinishStream (c : Fin 64) (d : Desc) (env : Env) : Statement (.accFinishStream c d env) := fun _ _ h => nomatch h
theorem matmul (c : Fin 64) (d : Desc) (env : Env) : Statement (.matmul c d env) := fun _ _ h => nomatch h
theorem denseOut (c : Fin 64) (d : Desc) (env : Env) : Statement (.denseOut c d env) := fun _ _ h => nomatch h
theorem copy (c : Fin 64) (d : Desc) (env : Env) : Statement (.copy c d env) := fun _ _ h => nomatch h
theorem storeGraph (c : Fin 64) (d : Desc) (env : Env) : Statement (.storeGraph c d env) := fun _ _ h => nomatch h
theorem launchGraph (c : Fin 64) (d : Desc) (env : Env) : Statement (.launchGraph c d env) := fun _ _ h => nomatch h
theorem patchGraph (c : Fin 64) (d : Desc) (env : Env) : Statement (.patchGraph c d env) := fun _ _ h => nomatch h
theorem freeGraph (c : Fin 64) (d : Desc) (env : Env) : Statement (.freeGraph c d env) := fun _ _ h => nomatch h
theorem dbgRead (c : Fin 64) (d : Desc) (env : Env) : Statement (.dbgRead c d env) := fun _ _ h => nomatch h
theorem sqDoorbell (c : Fin 64) (v : BitVec 32) : Statement (.sqDoorbell c v) := fun _ _ h => nomatch h
theorem dispatchTurn (fetches : List Fetch) : Statement (.dispatchTurn fetches) := fun _ _ h => nomatch h
theorem staleCommand (c : Fin 64) (entry : Option Bytes) : Statement (.staleCommand c entry) := fun _ _ h => nomatch h
theorem chainLinkStart (job : Nat) (env : Env) : Statement (.chainLinkStart job env) := fun _ _ h => nomatch h
theorem channelWaitEnd (c : Fin 64) : Statement (.channelWaitEnd c) := fun _ _ h => nomatch h
theorem descriptorComplete (job : Nat) (env : Env) : Statement (.descriptorComplete job env) := fun _ _ h => nomatch h
theorem completionBlocked (c : Fin 64) (kind : Fin 4) (job : Nat) : Statement (.completionBlocked c kind job) := fun _ _ h => nomatch h
theorem hostAccessFault (c : Fin 64) (job : Option Nat) : Statement (.hostAccessFault c job) := fun _ _ h => nomatch h
theorem cqDoorbell (c : Fin 64) (v : BitVec 32) : Statement (.cqDoorbell c v) := fun _ _ h => nomatch h
theorem recordRingDoorbell (c : Fin 64) (v : BitVec 32) (entry : Option Bytes) : Statement (.recordRingDoorbell c v entry) := fun _ _ h => nomatch h
theorem resultRingDoorbell (c : Fin 64) (v : BitVec 32) : Statement (.resultRingDoorbell c v) := fun _ _ h => nomatch h
theorem recordRingRead (c : Fin 64) (entry : Option Bytes) : Statement (.recordRingRead c entry) := fun _ _ h => nomatch h
theorem enable (c : Fin 64) : Statement (.enable c) := fun _ _ h => nomatch h
theorem disable (c : Fin 64) : Statement (.disable c) := fun _ _ h => nomatch h
theorem halt (c : Fin 64) : Statement (.halt c) := fun _ _ h => nomatch h
theorem resume (c : Fin 64) : Statement (.resume c) := fun _ _ h => nomatch h
theorem resumeCompletion (c : Fin 64) (env : Env) : Statement (.resumeCompletion c env) := fun _ _ h => nomatch h
theorem registerWrite (bar2 : Bool) (offset : BitVec 24) (bytes : Nat) (v : BitVec 64) : Statement (.registerWrite bar2 offset bytes v) := fun _ _ h => nomatch h
theorem ceFlush (e : Fin 20) : Statement (.ceFlush e) := fun _ _ h => nomatch h
theorem hostLinkDown (flr : Bool) (failed : List Nat) : Statement (.hostLinkDown flr failed) := fun _ _ h => nomatch h
theorem reattach (v : BitVec 64) (bme : Bool) (env : Env) : Statement (.reattach v bme env) := fun _ _ h => nomatch h
theorem discard (failed : List Nat) : Statement (.discard failed) := fun _ _ h => nomatch h
theorem deviceReset (failed : List Nat) : Statement (.deviceReset failed) := fun _ _ h => nomatch h
theorem atsInvalidate (addr : BitVec 64) (bytes : Nat) : Statement (.atsInvalidate addr bytes) := fun _ _ h => nomatch h
theorem msixUnmask (v : Fin 128) : Statement (.msixUnmask v) := fun _ _ h => nomatch h
theorem bar4Resize (sizeLog2 : Nat) : Statement (.bar4Resize sizeLog2) := fun _ _ h => nomatch h
theorem bar4Write (offset : Nat) (data : Bytes) : Statement (.bar4Write offset data) := fun _ _ h => nomatch h
theorem bar4Read (offset : Nat) (n : Nat) : Statement (.bar4Read offset n) := fun _ _ h => nomatch h
theorem debugEnable (on : Bool) : Statement (.debugEnable on) := fun _ _ h => nomatch h
theorem debugWindowRead (offset : Nat) (n : Nat) : Statement (.debugWindowRead offset n) := fun _ _ h => nomatch h
theorem errorRingConfigure (base : BitVec 64) (log2 : BitVec 5) (env : Env) : Statement (.errorRingConfigure base log2 env) := fun _ _ h => nomatch h
theorem errorRecordWrite (env : Env) : Statement (.errorRecordWrite env) := fun _ _ h => nomatch h
theorem vddRequest (v : BitVec 64) : Statement (.vddRequest v) := fun _ _ h => nomatch h
theorem powerLimitHost (v : BitVec 64) : Statement (.powerLimitHost v) := fun _ _ h => nomatch h
theorem portEnable (p : Fin 16) : Statement (.portEnable p) := fun _ _ h => nomatch h
theorem portDisable (p : Fin 16) : Statement (.portDisable p) := fun _ _ h => nomatch h
theorem portReset (p : Fin 16) : Statement (.portReset p) := fun _ _ h => nomatch h
theorem routeEntryWrite (dev : Fin 4096) (v : BitVec 64) : Statement (.routeEntryWrite dev v) := fun _ _ h => nomatch h
theorem ingressFrame (plot : Fin 256) (env : Env) : Statement (.ingressFrame plot env) := fun _ _ h => nomatch h
theorem headTakeRecord (core : Fin 256) (u : Upset) : Statement (.headTakeRecord core u) := fun _ _ h => nomatch h
theorem entityLookup (core : Fin 256) (env : Env) : Statement (.entityLookup core env) := fun _ _ h => nomatch h
theorem sieveBin (core : Fin 256) (u : Upset) : Statement (.sieveBin core u) := fun _ _ h => nomatch h
theorem binVectorPacket (core : Fin 256) : Statement (.binVectorPacket core) := fun _ _ h => nomatch h
theorem contextAllocate (core : Fin 256) (env : Env) : Statement (.contextAllocate core env) := fun _ _ h => nomatch h
theorem sumPacketTake (core : Fin 256) (u : Upset) : Statement (.sumPacketTake core u) := fun _ _ h => nomatch h
theorem recordAdmit (core : Fin 256) : Statement (.recordAdmit core) := fun _ _ h => nomatch h
theorem roundIssue (core : Fin 256) (u : Upset) : Statement (.roundIssue core u) := fun _ _ h => nomatch h
theorem roundDrain (core : Fin 256) (u : Upset) : Statement (.roundDrain core u) := fun _ _ h => nomatch h
theorem sumPacketSend (core : Fin 256) : Statement (.sumPacketSend core) := fun _ _ h => nomatch h
theorem contextFree (core : Fin 256) : Statement (.contextFree core) := fun _ _ h => nomatch h
theorem leafKeyBlock (core : Fin 256) : Statement (.leafKeyBlock core) := fun _ _ h => nomatch h
theorem keyGatherBag (core : Fin 256) (env : Env) : Statement (.keyGatherBag core env) := fun _ _ h => nomatch h
theorem finisherPass (core : Fin 256) (env : Env) : Statement (.finisherPass core env) := fun _ _ h => nomatch h
theorem egressWrite (core : Fin 256) (u : Upset) (env : Env) : Statement (.egressWrite core u env) := fun _ _ h => nomatch h
theorem resultDatagramSend (p : Fin 16) : Statement (.resultDatagramSend p) := fun _ _ h => nomatch h
theorem datagramTxDone (p : Fin 16) : Statement (.datagramTxDone p) := fun _ _ h => nomatch h
theorem recordDatagramRx (p : Fin 16) (frame : Bytes) (fcsOk : Bool) : Statement (.recordDatagramRx p frame fcsOk) := fun _ _ h => nomatch h
theorem pfcRelease (p : Fin 16) : Statement (.pfcRelease p) := fun _ _ h => nomatch h
theorem pauseRx (p : Fin 16) (quanta : BitVec 16) : Statement (.pauseRx p quanta) := fun _ _ h => nomatch h
theorem pauseTimer (p : Fin 16) : Statement (.pauseTimer p) := fun _ _ h => nomatch h
theorem graftMarkerPlace (plot : Fin 256) : Statement (.graftMarkerPlace plot) := fun _ _ h => nomatch h
theorem markerAtHead (core : Fin 256) : Statement (.markerAtHead core) := fun _ _ h => nomatch h
theorem markerAtFirstCore (core : Fin 256) : Statement (.markerAtFirstCore core) := fun _ _ h => nomatch h
theorem coreSwitch (core : Fin 256) (u : Upset) : Statement (.coreSwitch core u) := fun _ _ h => nomatch h
theorem heldMarkerRelease (core : Fin 256) : Statement (.heldMarkerRelease core) := fun _ _ h => nomatch h
theorem graftComplete (plot : Fin 256) : Statement (.graftComplete plot) := fun _ _ h => nomatch h
theorem drainAndSwap (plot : Fin 256) : Statement (.drainAndSwap plot) := fun _ _ h => nomatch h
theorem fence (core : Fin 256) (u : Upset) : Statement (.fence core u) := fun _ _ h => nomatch h
theorem rePlacement (plot : Fin 256) (env : Env) : Statement (.rePlacement plot env) := fun _ _ h => nomatch h
theorem plotRestart (plot : Fin 256) : Statement (.plotRestart plot) := fun _ _ h => nomatch h
theorem plotReplay (plot : Fin 256) (bad : List Nat) (ecc : List Nat) : Statement (.plotReplay plot bad ecc) := fun _ _ h => nomatch h
theorem rakeScan (blocked : List (Nat × Nat)) : Statement (.rakeScan blocked) := fun _ _ h => nomatch h
theorem fecLockstep : Statement (.fecLockstep) := fun _ _ h => nomatch h
theorem hubFatal (crossing : Bool) : Statement (.hubFatal crossing) := fun _ _ h => nomatch h
theorem hello (p : Fin 16) (frame : Bytes) : Statement (.hello p frame) := fun _ _ h => nomatch h
theorem lcpData (p : Fin 16) (frame : Bytes) (fcsOk : Bool) : Statement (.lcpData p frame fcsOk) := fun _ _ h => nomatch h
theorem lcpNak (p : Fin 16) (frame : Bytes) : Statement (.lcpNak p frame) := fun _ _ h => nomatch h
theorem lcpControl (p : Fin 16) (frame : Bytes) : Statement (.lcpControl p frame) := fun _ _ h => nomatch h
theorem lcpRetransmitTimer (p : Fin 16) : Statement (.lcpRetransmitTimer p) := fun _ _ h => nomatch h
theorem linkLost (p : Fin 16) : Statement (.linkLost p) := fun _ _ h => nomatch h
theorem readUnit (p : Fin 16) (env : Env) : Statement (.readUnit p env) := fun _ _ h => nomatch h
theorem writeUnit (p : Fin 16) : Statement (.writeUnit p) := fun _ _ h => nomatch h
theorem eventUnit (p : Fin 16) : Statement (.eventUnit p) := fun _ _ h => nomatch h
theorem readResponse (p : Fin 16) : Statement (.readResponse p) := fun _ _ h => nomatch h
theorem writeAcknowledgement (p : Fin 16) : Statement (.writeAcknowledgement p) := fun _ _ h => nomatch h
theorem mirrorRecord (p : Fin 16) : Statement (.mirrorRecord p) := fun _ _ h => nomatch h
theorem mirrorClose (p : Fin 16) (hash : BitVec 32) : Statement (.mirrorClose p hash) := fun _ _ h => nomatch h
theorem mirrorDrain : Statement (.mirrorDrain) := fun _ _ h => nomatch h
theorem restartRequest (plot : Fin 256) : Statement (.restartRequest plot) := fun _ _ h => nomatch h
theorem restartUnit (p : Fin 16) : Statement (.restartUnit p) := fun _ _ h => nomatch h
theorem restartDone (p : Fin 16) : Statement (.restartDone p) := fun _ _ h => nomatch h
theorem accept (p : Fin 16) : Statement (.accept p) := fun _ _ h => nomatch h
theorem pcieCompletionTimeout (c : Fin 64) (job : Option Nat) : Statement (.pcieCompletionTimeout c job) := fun _ _ h => nomatch h
theorem flashPoll : Statement (.flashPoll) := fun _ _ h => nomatch h
theorem inputApplied (milliVolts : Nat) : Statement (.inputApplied milliVolts) := fun _ _ h => nomatch h
theorem inputLockout (milliVolts : Nat) : Statement (.inputLockout milliVolts) := fun _ _ h => nomatch h
theorem powerOn (testEn : Bool) (failed : List Nat) : Statement (.powerOn testEn failed) := fun _ _ h => nomatch h
theorem powerOff : Statement (.powerOff) := fun _ _ h => nomatch h
theorem thermalTrip (celsius : Int) : Statement (.thermalTrip celsius) := fun _ _ h => nomatch h
theorem flowTrip (flow : Nat) : Statement (.flowTrip flow) := fun _ _ h => nomatch h
theorem flowLow (flow : Nat) : Statement (.flowLow flow) := fun _ _ h => nomatch h
theorem peakClamp (milliAmps : Nat) : Statement (.peakClamp milliAmps) := fun _ _ h => nomatch h
theorem powerSample (r : PowerReading) : Statement (.powerSample r) := fun _ _ h => nomatch h
theorem coolantSample (r : CoolReading) : Statement (.coolantSample r) := fun _ _ h => nomatch h
theorem valveStep : Statement (.valveStep) := fun _ _ h => nomatch h
theorem canaryMeasure (counts : List (List Nat)) : Statement (.canaryMeasure counts) := fun _ _ h => nomatch h
theorem pldmRackLimit (watts : BitVec 16) : Statement (.pldmRackLimit watts) := fun _ _ h => nomatch h
theorem pldmCoolModel (which : Fin 5) (v : BitVec 16) : Statement (.pldmCoolModel which v) := fun _ _ h => nomatch h
theorem pldmFirmwareUpdate (image : Bytes) : Statement (.pldmFirmwareUpdate image) := fun _ _ h => nomatch h
theorem ownerKeyInstall (slot : Fin 4) (key : Bytes) : Statement (.ownerKeyInstall slot key) := fun _ _ h => nomatch h
theorem ownerKeyClear (slot : Fin 4) : Statement (.ownerKeyClear slot) := fun _ _ h => nomatch h
theorem requireSigned (on : Bool) : Statement (.requireSigned on) := fun _ _ h => nomatch h
theorem permit (on : Bool) : Statement (.permit on) := fun _ _ h => nomatch h
theorem tapReset : Statement (.tapReset) := fun _ _ h => nomatch h
theorem extest (taps : BitVec 5) : Statement (.extest taps) := fun _ _ h => nomatch h
theorem idcode (taps : BitVec 5) : Statement (.idcode taps) := fun _ _ h => nomatch h
theorem samplePreload (taps : BitVec 5) : Statement (.samplePreload taps) := fun _ _ h => nomatch h
theorem clamp (taps : BitVec 5) : Statement (.clamp taps) := fun _ _ h => nomatch h
theorem highz (taps : BitVec 5) : Statement (.highz taps) := fun _ _ h => nomatch h
theorem extestPulse (taps : BitVec 5) : Statement (.extestPulse taps) := fun _ _ h => nomatch h
theorem extestTrain (taps : BitVec 5) : Statement (.extestTrain taps) := fun _ _ h => nomatch h
theorem bypass (taps : BitVec 5) : Statement (.bypass taps) := fun _ _ h => nomatch h
theorem drScan (pins : List Bool) (tdi : List Bool) : Statement (.drScan pins tdi) := fun _ _ h => nomatch h
theorem pcsAlignment (p : Fin 16) : Statement (.pcsAlignment p) := fun _ _ h => nomatch h
theorem atsEnable (on : Bool) : Statement (.atsEnable on) := fun _ _ h => nomatch h

end Sys2Proof.Laws.NoWord
end

