-- ==== Sys2Proof/WellFormed.lean ====
section
/-! DEFINITION. Which commands are well formed: what the interfaces that carry them can carry. -/
namespace Sys2Proof

/-- The environment's lists name addresses a bus can carry. -/
def Env.wf (e : Env) : Bool :=
  e.remote.all (fun p => p.1 < 2 ^ 64) && e.host.all (fun p => p.1 < 2 ^ 64)

/-- A power reading lies in the range of its register fields. -/
def PowerReading.wf (r : PowerReading) : Bool := r.milliVolts < 2 ^ 16 && r.milliAmps < 2 ^ 20

/-- A temperature fits its signed 16-bit field (R508). -/
def tempWf (t : Int) : Bool := -0x8000 ≤ t && t < 0x8000

/-- A coolant reading names every die, in the range of its register fields. -/
def CoolReading.wf (r : CoolReading) : Bool :=
  r.tjCluster.length == 4 && r.tjCore.length == 256 && (r.tjHub :: r.inlet :: r.outlet :: r.tjCluster ++ r.tjCore).all tempWf &&
  r.flow < 2 ^ 16

/-- A command is well formed when its lengths and readings are ones its interface can carry. -/
def Instr.wf : Instr → Bool
  | .dispatchTurn fs => fs.all fun f => f.env.wf && (match f.entry with | none => true | some b => b.length == 64)
  | .staleCommand _ e => match e with | none => true | some b => b.length == 64
  | .msixUnmask _ => true
  | .bar4Write o d => 1 ≤ d.length && d.length ≤ 4096 && o < 2 ^ 40
  | .bar4Read o n => 1 ≤ n && n ≤ 4096 && o < 2 ^ 40
  | .debugWindowRead o n => 1 ≤ n && o + n ≤ 0x10000
  | .ownerKeyInstall _ k => k.length == 96
  | .powerSample r => r.wf
  | .coolantSample r => r.wf
  | .canaryMeasure cs => cs.length == 256 && cs.all fun c => c.length == 4
  | .registerWrite bar2 o n _ => 1 ≤ n && n ≤ 8 && (!bar2 || o.toNat < 0x40000)
  | .recordDatagramRx _ f _ => f.length ≤ 9216
  | _ => true

end Sys2Proof
end

