-- ==== Sys2Proof/Tests/Slice0.lean ====
section
/-! SUPPORT. Tests: what each well-formedness check refuses, and for each statement states that meet its hypotheses, clause by clause. -/
open Sys2Proof Sys2Proof.Machine Sys2Proof.Safety
namespace Sys2Proof.Tests
set_option exponentiation.threshold 512

/-! ### Well-formedness -/

/-- Each check of Instr.wf refuses a command that its interface cannot carry. -/
theorem test_ill_formed : (∀ i ∈ [Instr.dispatchTurn [⟨some [], {}⟩], .dispatchTurn [⟨none, { remote := [(2 ^ 64, 0)] }⟩],
    .dispatchTurn [⟨none, { host := [(2 ^ 64, 0)] }⟩], .staleCommand 0 (some []), .bar4Write 0 [], .bar4Write (2 ^ 40) [0], .bar4Read 0 0,
    .bar4Read 0 4097, .bar4Read (2 ^ 40) 1, .debugWindowRead 0 0, .debugWindowRead 0xFFFF 2, .ownerKeyInstall 0 [], .powerSample ⟨65536, 0⟩,
    .powerSample ⟨0, 2 ^ 20⟩, .coolantSample ⟨[], [], 0, 0, 0, 0, false, []⟩, .canaryMeasure [], .registerWrite false 0 0 0,
    .registerWrite false 0 9 0, .registerWrite true 0x40000 4 0], i.wf = false) := by decide

/-- A frame longer than any port carries is refused. -/
theorem test_long_frame : (Instr.recordDatagramRx 0 (List.replicate 9217 0) true).wf = false := by
  show decide ((List.replicate 9217 (0 : Byte)).length ≤ 9216) = false
  rw [List.length_replicate]; decide

set_option maxRecDepth 8000 in
/-- A coolant reading of the wrong size, a temperature and a flow that their registers do not hold are refused. -/
theorem test_ill_coolant : CoolReading.wf ⟨[0, 0, 0, 0], List.replicate 256 0, 0x8000, 0, 0, 0, false, []⟩ = false ∧
    CoolReading.wf ⟨[0, 0, 0, 0], List.replicate 256 0, 0, 0, 0, 65536, false, []⟩ = false ∧
    CoolReading.wf ⟨[0, 0, 0, 0], List.replicate 256 0, 0x7FFF, -0x8000, 0, 65535, false, []⟩ = true := by decide

/-- The table gives its rows no bits, so no word spells a command. -/
theorem test_no_word : decodeTableWord 0 0 = none ∧ (State.reset.withFetchWord 0 0) = State.reset := by decide

/-! ### States -/

/-- A state that is ON and runs, with its digital part changed. -/
def work (f : Dev → Dev) : State := { mc := {}, dev := f { err := { fatalState := 0 } }, pending := [] }

/-- The same with its management part changed. -/
def mcOf (f : Mc → Mc) : State := { mc := f {}, dev := { err := { fatalState := 0 } }, pending := [] }

/-- A state in a power state. -/
def powered (p : PowerState) : State := mcOf fun m => { m with pwr := { m.pwr with state := p } }

/-! ### The step, reset, whole-machine rules -/

theorem test_step : (work id).pending = [] ∧ ({ work id with pending := [.powerOff] } : State).pending = .powerOff :: [] := by decide

theorem test_mc_ranges : McInv State.reset.mc := by constructor <;> decide

/-- A command of each kind that the whole-machine rules name answers a next state. -/
theorem test_whole_machine : (∃ t, Machine.exec (.requireSigned true) (powered .standby) = .next t ∧ t.mc.requireSigned = true) ∧
    (∃ t, Machine.exec (.fence 3 (.ecc 0)) (work id) = .next t ∧ Tbl.get 0 3 t.mc.fences = 1) ∧
    (powered .standby).mc.pwr.state ≠ .on ∧ (work fun d => { d with err := { d.err with fatalState := 2 } }).dev.fatal = true := by
  refine ⟨⟨_, rfl, by decide⟩, ⟨_, rfl, by decide⟩, by decide, by decide⟩

/-! ### The management controller -/

theorem test_power_states : (powered .off).mc.pwr.state = .off ∧
    (mcOf fun m => { m with pwr := { m.pwr with state := .off, uvlo := true } }).mc.pwr.uvlo = true ∧ (powered .off).mc.pwr.uvlo = false ∧ (powered .standby).mc.pwr.state = .standby ∧
    (mcOf fun m => { m with pwr := { m.pwr with state := .standby }, cool := { m.cool with flow := 1000 } }).mc.mayPowerOn = true ∧
    (work id).mc.pwr.state = .on := by decide

theorem test_management : (powered .standby).mc.pwr.state ≠ .off ∧ (work id).live = true ∧ bits (0x28#64).toNat 0 6 ≤ 40 ∧
    40 < bits (0x29#64).toNat 0 6 := by decide

theorem test_samples : (work id).mc.pwr.state = .on ∧ (powered .standby).mc.pwr.state ≠ .off ∧
    (powered .standby).mc.cool.flowLow = false ∧ 
    (3600000000 : Nat) < 72001 * (mcOf fun m => { m with pwr := { m.pwr with input := 50000 } }).mc.pwr.input ∧ (work id).mc.pwr.request ≠ 0 ∧
    (mcOf fun m => { m with cool := { m.cool with valveFixed := true, valve := 2, valveActual := 0 } }).mc.cool.valveActual + 2 ≤
      (mcOf fun m => { m with cool := { m.cool with valveFixed := true, valve := 2, valveActual := 0 } }).mc.opening := by decide

theorem test_taps : (mcOf fun m => { m with testMode := true }).mc.testMode = true ∧ (mcOf fun m => { m with testMode := true }).mc.pwr.state = .on ∧
    ∀ i ∈ [0, 1, 4, 5, 6, 7], ((mcOf fun m => { m with taps := [(0, { ir := i })] }).mc.tap 0).ir = i := by
  decide

/-! ### Descriptors -/

/-- A channel that runs with one entry at HEAD and a completion ring. -/
def chan1 : Chan := { state := .running, sqBase := 0x1000, tail := 1, phase := true, cqBase := 0x2000, cqLog2 := 4 }

/-- A running state whose channel `c` has an entry at HEAD, with the digital part changed. -/
def ring (c : Nat) (f : Dev → Dev) : State := work fun d => (f d).setChan c chan1

/-- A descriptor of an opcode with operand fields (offset, value). -/
def desc (opcode : BitVec 8) (fs : List (Nat × Nat)) : Desc :=
  { hdr := 1, opcode := opcode, ops := BitVec.ofNat 352 (fs.map fun p => p.2 * 2 ^ (8 * (p.1 - 0x10))).sum }

/-- The entry that a descriptor is on channel `c`. -/
def ent (c : Nat) (x : Desc) : Entry := ⟨c, x, {}, true⟩

/-- A plot of one core, head and tail. -/
def recOf (pid core : Nat) : PlotRec := {
  plotId := pid, coreCount := 1, firstEntry := 0, fold := 0, chainMode := 0, sumFmt := 0, partner := 0xFF
  prevDevice := 0xFFFF, nextDevice := 0xFFFF, firstPosition := 0, plotCores := 1, entries := [⟨core, true, true, 0, 0, 0, 0⟩] }

/-- A tile word: rows 0 and 1, columns 0 and 1 of core 0, FP32. -/
def tile0 : Nat := 2 * 2 ^ 20 + 2 * 2 ^ 40

/-- Plot 0 on core 0. -/
def plotted (d : Dev) : Dev := d.setPlot 0 { lay := recOf 0 0 }

/-- Plot 0 on core 0, whose tile is allocated. -/
def tiled (d : Dev) : Dev := (plotted d).setCore 0 { tiles := [⟨tile0, 0, none, 16, none⟩] }

/-- A stored graph of one node with one patch slot. -/
def graph0 : Graph := { base := 0, nodes := [List.replicate 64 0#8], patches := [0x4000], slots := [7] }

/-- Graph 3 stored. -/
def graphed (d : Dev) : Dev := d.setGraph 3 (some graph0)

/-- Memory that holds the source of a graph of one NOP, 256 bytes from address 0 (R363 to R365). -/
def graphSource (d : Dev) : Dev := { d with mem :=
  [(0, 76), (1, 71), (2, 80), (3, 72), (4, 1), (6, 1), (12, 134), (13, 65), (14, 215), (15, 114), (192, 1), (252, 106), (253, 161),
   (254, 176), (255, 47)] }

/-- Memory that holds a layout image with plot 5 on core 7, 104 bytes from address 0 (R130 to R134). -/
def layoutImage (d : Dev) : Dev := { d with mem :=
  [(0, 76), (1, 76), (2, 65), (3, 89), (4, 1), (6, 1), (8, 104), (12, 221), (13, 112), (14, 66), (15, 132), (18, 1), (64, 5), (66, 1),
   (73, 255), (74, 255), (75, 255), (76, 255), (77, 255), (80, 1), (96, 7), (98, 3)] }

theorem test_dispatched : dispatches (.nop 0 (desc 0 []) {}) (ent 0 (desc 0 [])) (ring 0 id) := by decide

theorem test_rejected : verdictAt (ring 0 id) (ent 0 (desc 0x03 [(0x10, 1)])) = .reject stDescriptorInvalid ∧
    entryOf (.progressScan 0 (desc 0x03 [(0x10, 1)]) {}) = some (ent 0 (desc 0x03 [(0x10, 1)])) ∧ takes (ring 0 id) 0 = true := by decide

theorem test_held : verdictAt (ring 0 id) (ent 0 (desc 0x02 [(0x10, 1), (0x18, 5)])) = .wait .event ∧
    verdictAt (ring 4 fun d => { d with jobs := [{ (d.addJob 4 1 (desc 0x12 []) {} none 0).2 with phase := .active }] })
      (ent 4 (desc 0x12 [(0x12, 1)])) = .busy := by decide

/-- A channel that waits for event 5 to reach 1, and one held by BARRIER. -/
def waiting (w : Wait) (d : Dev) : Dev :=
  d.setChan 0 { chan1 with state := .waiting, wait := w, held := some ⟨1, desc 0x02 [(0x10, 1), (0x18, 5)], false, w⟩ }

theorem test_waits :
    ((work fun d => (waiting .event d).setEvent 5 1).dev.chan 0).state = .waiting ∧
    waitOver (work fun d => (waiting .event d).setEvent 5 1).dev 0 ⟨1, desc 0x02 [(0x10, 1), (0x18, 5)], false, .event⟩ = true ∧
    waitOver (work (waiting .event)).dev 0 ⟨1, desc 0x02 [(0x10, 1), (0x18, 5)], false, .event⟩ = false ∧
    waitOver (work (waiting .barrier)).dev 0 ⟨1, desc 0x02 [(0x10, 1), (0x18, 5)], false, .barrier⟩ = true := by decide

/-- A dispatched descriptor: number 0 of channel 0. -/
def job0 (x : Desc) (p : Phase) : Job := { ({} : Dev).addJob 0 1 x {} none 0 |>.2 with phase := p }

/-- A state with one dispatched descriptor. -/
def jobbed (x : Desc) (p : Phase) (f : Dev → Dev) : State := work fun d => f { d with jobs := [job0 x p], nextJob := 1 }

theorem test_barrier : dispatches (.nop 0 { desc 0 [] with cflags := 1 } {}) (ent 0 { desc 0 [] with cflags := 1 })
      (work fun d => { d with jobs := [job0 (desc 0 []) .done], nextJob := 1 }.setChan 0 chan1) ∧
    verdictOf {} (jobbed (desc 0 []) .done id).dev 0 ⟨1, { desc 0 [] with cflags := 1 }, false, .none⟩ {} none = .go := by decide

theorem test_events : dispatches (.recordEvent 0 (desc 1 [(0x10, 1), (0x18, 5), (0x1A, 0xFFFF)]) {})
      (ent 0 (desc 1 [(0x10, 1), (0x18, 5), (0x1A, 0xFFFF)])) (ring 0 id) ∧
    (∀ add, (eventRecord 3 2 add).1 = if add then 5 else 3) ∧
    (let s := jobbed (desc 1 [(0x10, 1), (0x18, 5), (0x1A, 0xFFFF)]) .queued id
     s.live = true ∧ (s.dev.job 0).map (·.desc.code) = some 1 ∧ s.dev.earlierDone 0 0 none = true ∧
       eventLocal s.dev (desc 1 [(0x10, 1), (0x18, 5), (0x1A, 0xFFFF)]) = true) ∧
    eventLocal (jobbed (desc 1 [(0x10, 1), (0x18, 5), (0x1A, 9)]) .queued id).dev (desc 1 [(0x10, 1), (0x18, 5), (0x1A, 9)]) = false ∧
    (({ rx := [⟨8, 0xFFFF, 9, List.replicate 16 0, 0, 0, 1⟩] } : Port).requestOf 8).isSome = true := by decide

set_option maxRecDepth 100000 in
theorem test_graphs : dispatches (.freeGraph 0 (desc 0x73 [(0x10, 3)]) {}) (ent 0 (desc 0x73 [(0x10, 3)])) (ring 0 graphed) ∧
    dispatches (.storeGraph 0 (desc 0x70 [(0x18, 256), (0x1C, 3)]) {}) (ent 0 (desc 0x70 [(0x18, 256), (0x1C, 3)]))
      (ring 0 graphSource) ∧
    dispatches (.patchGraph 4 (desc 0x72 [(0x10, 3), (0x13, 1), (0x18, 9)]) {}) (ent 4 (desc 0x72 [(0x10, 3), (0x13, 1), (0x18, 9)]))
      (ring 4 graphed) ∧
    dispatches (.launchGraph 4 (desc 0x71 [(0x10, 3)]) {}) (ent 4 (desc 0x71 [(0x10, 3)])) (ring 4 graphed) := by decide

theorem test_arming :
    dispatches (.accPreloadStream 4 (desc 0x50 [(0x18, 0x1000), (0x20, 4), (0x26, 1), (0x32, 1)]) {})
      (ent 4 (desc 0x50 [(0x18, 0x1000), (0x20, 4), (0x26, 1), (0x32, 1)])) (ring 4 plotted) ∧
    dispatches (.accPreloadDisarm 4 (desc 0x50 [(0x26, 1), (0x27, 8)]) {}) (ent 4 (desc 0x50 [(0x26, 1), (0x27, 8)])) (ring 4 plotted) ∧
    dispatches (.accFinishStream 4 (desc 0x53 [(0x24, 1), (0x25, 8)]) {}) (ent 4 (desc 0x53 [(0x24, 1), (0x25, 8)])) (ring 4 plotted) ∧
    dispatches (.accFinishStream 4 (desc 0x53 [(0x24, 1), (0x25, 4), (0x38, 4)]) {}) (ent 4 (desc 0x53 [(0x24, 1), (0x25, 4), (0x38, 4)]))
      (ring 4 plotted) := by decide

theorem test_tiles :
    dispatches (.accRelease 4 (desc 0x52 [(0x10, tile0)]) {}) (ent 4 (desc 0x52 [(0x10, tile0)])) (ring 4 tiled) ∧
    (entered (ring 4 tiled) (ent 4 (desc 0x52 [(0x10, tile0)]))).tilesFree 0 [tile0] = true ∧
    dispatches (.accPreload 4 (desc 0x50 [(0x10, tile0), (0x27, 1)]) {}) (ent 4 (desc 0x50 [(0x10, tile0), (0x27, 1)])) (ring 4 plotted) ∧
    (let s := jobbed (desc 0x50 [(0x10, tile0), (0x27, 1)]) .active tiled
     s.live = true ∧ (s.dev.job 0).isSome = true ∧ s.dev.tilesFree 0 [] = true ∧ (s.dev.core 0).fenced = false ∧
       bit ((desc 0x50 [(0x10, tile0), (0x27, 1)]).op 0x27 1) 0 = true) := by decide

set_option maxRecDepth 100000 in
theorem test_layouts : (∀ f ∈ [0, 1, 2], (jobbed (desc 0x11 [(0x1E, f)]) .active plotted).dev.plot ((desc 0x11 [(0x1E, f)]).op 0x1C 2) =
      some { lay := recOf 0 0 } ∧ (desc 0x11 [(0x1E, f)]).op 0x1E 2 = f) ∧
    (∀ b ∈ [false, true], let s := ring 0 fun d => { layoutImage d with detected := if b then [⟨7, stCodeViolation, 1, [], none, 0⟩] else [] }
      let x := desc 0x10 [(0x18, 104)]
      dispatches (.loadLayout 0 x {}) (ent 0 x) s ∧ faultWaits s.dev (parseLayout ((entered s (ent 0 x)).readOr {} (x.op 0x10 8) (x.op 0x18 4))) = b) ∧
    dispatches (.evictGrove 4 (desc 0x12 [(0x12, 3)]) {}) (ent 4 (desc 0x12 [(0x12, 3)])) (ring 4 plotted) ∧
    dispatches (.tableSync 4 (desc 0x42 []) {}) (ent 4 (desc 0x42 [])) (ring 4 id) ∧ codeMet {} = none := by decide

theorem test_copy : dispatches (.copy 4 (desc 0x60 [(0x10, 0x1000), (0x18, 0x2000), (0x20, 8), (0x28, 0xFF)]) {})
      (ent 4 (desc 0x60 [(0x10, 0x1000), (0x18, 0x2000), (0x20, 8), (0x28, 0xFF)])) (ring 4 id) ∧
    plainMem (addrLocal 0x1000) = true ∧ plainMem (addrLocal 0x1007) = true := by decide

/-! ### Turns, chains, completions, channel control -/

/-- The 64 bytes of a descriptor of zeros with PHASE 1 and this opcode, its CRC given (R346). -/
def entry64 (op : Byte) (crc : Bytes) : Bytes := [1, op] ++ List.replicate 58 0 ++ crc

/-- A NOP in a ring. -/
def nop64 : Bytes := entry64 0 [0x6A, 0xA1, 0xB0, 0x2F]

/-- A TABLE_SYNC as a chain link. -/
def sync64 : Bytes := entry64 0x42 [0xBF, 0xCD, 0x6E, 0x6A]

/-- Bytes of memory from an address, the zeros left out. -/
def memAt (a : Nat) (b : Bytes) : Tbl Byte := ((b.zipIdx a).filter fun p => p.1 ≠ 0).map fun p => (p.2, p.1)

/-- A state with a turn of channel 0 in progress. -/
def turned (f : Chan → Chan) : State := work fun d => { d.setChan 0 (f { chan1 with left := 3 }) with inTurn := true, rrChan := 0 }

set_option maxRecDepth 100000 in
theorem test_turns : ((ring 2 id).live = true ∧ (ring 2 id).dev.inTurn = false ∧ (ring 2 id).dev.rrChan = 63 ∧
      (∀ i, i < 2 → eligible (ring 2 id).dev ((63 + 1 + i) % 64) = false) ∧ eligible (ring 2 id).dev ((63 + 1 + 2) % 64) = true ∧
      ((ring 2 id).dev.chan 2).debt.toNat < max ((ring 2 id).dev.chan 2).slice.toNat 1) ∧
    (dispatches (.nop 0 (Desc.ofBytes nop64) {}) (ent 0 (Desc.ofBytes nop64)) (turned id) ∧ (turned id).dev.rrChan = 0 ∧
      ((turned id).dev.chan 0).left ≠ 0 ∧ fetchOk ((turned id).dev.chan 0) (some nop64) = true) ∧
    (takes (turned id) 0 = true ∧ fetchOk ((turned id).dev.chan 0) (some sync64.tail) = false ∧
      ((turned id).dev.chan 0).refetches < ((turned id).dev.chan 0).refetchLimit.toNat) ∧
    (work id).dev.inTurn = false ∧ (∀ c, c < 64 → eligible (work id).dev c = false) ∧
    (let s := turned fun c => { c with refetches := 16 }
     takes s 0 = true ∧ fetchOk (s.dev.chan 0) none = false ∧ (s.dev.chan 0).refetchLimit.toNat ≤ (s.dev.chan 0).refetches) := by decide

/-- A TABLE_SYNC that has ended, with a chain link at 0x3000 whose bytes are given. -/
def chained (b : Bytes) : State := jobbed { desc 0x42 [] with next := 0x3000 } .done fun d => { d with mem := memAt 0x3000 b }

set_option maxRecDepth 100000 in
theorem test_chain : ∀ b ∈ [sync64, nop64], ∃ j, (chained b).dev.job 0 = some j ∧ j.linkDue = true ∧ linkHeld (chained b).dev j = false ∧
    flushDue (chained b).dev j = false ∧ (chained b).dev.addrOk .read false j.desc.next.toNat 64 = true ∧
    (chained b).dev.readG {} j.desc.next.toNat 64 = .ok b ∧ linkOk (chained b).dev j b = decide (b = sync64) ∧
    (b = sync64 → descCheck (chained b).mc ((chained b).dev.askRead j.desc.next.toNat 64) j.chan (Desc.ofBytes b) {} = .go) := by
  intro b h
  simp only [List.mem_cons, List.not_mem_nil, or_false] at h
  rcases h with rfl | rfl <;> exact ⟨_, rfl, by decide, by decide, by decide, by decide, by rfl, by decide, by decide⟩

/-- The same with an operand byte that R321 does not name. -/
def badSync64 : Bytes := [1, 0x42] ++ List.replicate 30 0 ++ [1] ++ List.replicate 27 0 ++ [0x8B, 0x46, 0x7B, 0xC8]

set_option maxRecDepth 100000 in
theorem test_chain_refused : ∃ j, (chained badSync64).dev.job 0 = some j ∧ j.linkDue = true ∧ linkHeld (chained badSync64).dev j = false ∧
    flushDue (chained badSync64).dev j = false ∧ (chained badSync64).dev.readG {} j.desc.next.toNat 64 = .ok badSync64 ∧
    linkOk (chained badSync64).dev j badSync64 = true ∧
    descCheck (chained badSync64).mc ((chained badSync64).dev.askRead j.desc.next.toNat 64) j.chan (Desc.ofBytes badSync64) {} =
      .reject stDescriptorInvalid := ⟨_, rfl, by decide, by decide, by decide, by rfl, by decide, by decide⟩

/-- A launch of a graph whose only node, descriptor 1, has ended. -/
def launched : State := work fun d =>
  { d with jobs := [{ job0 (desc 0 []) .done with id := 1, launch := some 0 }], nextJob := 2
           launches := [⟨0, 0, 1, desc 0x71 [(0x10, 3)], 3, [List.replicate 64 0], 1, false, 0, 0, 0⟩] }

theorem test_completions :
    (let d := settledEnd (jobbed (desc 0 []) .done id).dev 0
     ∃ j, d.job 0 = some j ∧ d.jobComplete j = true ∧ completionHeld d j = false ∧ flushDue d j = false ∧ storeFull d j = false ∧
       j.launch = none) ∧
    (let j := { job0 { desc 0x60 [(0x29, 6)] with cflags := 4 } .done with engine := some 1 }
     let d : Dev := { (jobbed (desc 0 []) .done id).dev with jobs := [j], engines := [(1, { last := [(0, some 0x5000)] })] }
     flushDue d j = true ∧ d.job j.id = some j) ∧
    (let d := settledEnd launched.dev 1
     ∃ j, d.job 1 = some j ∧ d.jobComplete j = true ∧ completionHeld d j = false ∧ flushDue d j = false ∧ storeFull d j = false ∧
       j.launch = some 0) ∧
    ((ring 0 id).dev.fatal = false ∧ (ring 0 id).dev.host.held = false ∧ ((ring 0 id).dev.chan 0).blocked = false ∧
      ((ring 0 id).dev.chan 0).cqLog2 ≠ 0 ∧ ((ring 0 id).dev.chan 0).cwAddr = 0 ∧
      hostDenied (ring 0 id).dev {} ((ring 0 id).dev.chan 0).slotAddr 32 = false) ∧
    (((work fun d => d.setChan 0 { chan1 with blocked := true }).dev.chan 0).blocked = true) ∧
    (({} : Chan).cw.toNat + ({} : Chan).cwDone.length + 2 < 2 ^ 64) := by
  refine ⟨⟨_, rfl, by decide⟩, by decide, ⟨_, rfl, by decide⟩, by decide, by decide, by decide⟩

theorem test_control : (work id).live = true ∧ ((work fun d => d.setChan 0 { sqBase := 0x1000 }).dev.chan 0).state = .disabled ∧
    ((work fun d => d.setChan 0 { sqBase := 0x1000 }).dev.chan 0).sqBase ≠ 0 ∧ (4 ≤ ({} : Chan).sqLog2.toNat ∧ ({} : Chan).sqLog2.toNat ≤ 16) ∧
    (((ring 0 id).dev.chan 0).state = .running ∧ ((ring 0 id).dev.chan 0).held = none ∧ ((ring 0 id).dev.chan 0).launch = none ∧
      (∀ j ∈ (ring 0 id).dev.jobs, j.chan ≠ 0) ∧ (∀ f ∈ (ring 0 id).dev.taskFeeds, f.chan ≠ 0)) ∧
    ((work (waiting .event)).dev.chan 0).state = .waiting ∧
    (let s := work fun d => d.setChan 0 { chan1 with state := .halted }
     (s.dev.chan 0).state = .halted ∧ (s.dev.chan 0).held = none ∧ (s.dev.chan 0).blocked = false) ∧
    (let s := work fun d => (waiting .event d).updChan 0 fun c => { c with state := .halted }
     (s.dev.chan 0).state = .halted ∧ ∃ h, (s.dev.chan 0).held = some h ∧ waitOver s.dev 0 h = false) ∧
    ((work id).dev.chan 0).sqBase = 0 ∧ (∀ j ∈ (jobbed (desc 0 []) .done id).dev.jobs, j.chan = 0 ∧ ({} : Dev).jobComplete j = true) ∧
    (∃ j ∈ (jobbed (desc 0 []) .active id).dev.jobs, j.chan = 0 ∧ (jobbed (desc 0 []) .active id).dev.jobComplete j = false) := by
  refine ⟨by decide, by decide, by decide, by decide, by decide, by decide, by decide, ⟨by decide, ⟨_, rfl, by decide⟩⟩, by decide, by decide,
    ⟨_, List.mem_cons_self .., by decide⟩⟩

/-- Task 0 on plot 0, fed by the record ring of channel 0 or, on port 0, by datagrams; its results in the result ring. -/
def feed0 (port : Nat) : Feed := {
  src := .task 0, chan := 0, plot := 0, stream := some 0, firstSeq := 0, taken := 0, accepted := 0, nonzero := 0, pos := 0
  stop := 0, queue := [], ended := false, eccHeader := false, linkLost := false, rowUnreadable := false, keyRange := false
  fencedRec := false, dst := 0, dstKind := 1, slotBytes := 64, entrySlice := 0, keyGather := none, residual := none, operand := none
  port := port, udp := 7, holds := [], stopping := none, gated := false }

/-- Channel 0 with a record ring of 16 entries of 64 bytes, one of them waiting, and the task bound to it. -/
def ringTask : State := work fun d =>
  { d.setChan 0 { chan1 with inBase := 0x4000, inLog2 := 4, inEntryLog2 := 6, inTail := 1 } with feeds := [feed0 16] }

theorem test_doorbells : (bits (1#32).toNat 24 8 = 0 ∧ tailBad 4 0 1 2 = false ∧ tailBad 4 0 1 16 = true ∧ tailBad 4 0 2 1 = true ∧
      bits (0x1000001#32).toNat 24 8 ≠ 0) ∧
    (ringTask.live = true ∧ (ringTask.dev.chan 0).state ≠ .disabled ∧ (ringTask.dev.chan 0).inLog2 ≠ 0 ∧
      (ringTask.dev.chan 0).inRetry = false ∧ tailBad 4 0 1 (bits (2#32).toNat 0 16) = false ∧
      tailBad 4 0 1 (bits (16#32).toNat 0 16) = true ∧ (work id).live = true ∧ ((work id).dev.chan 0).inLog2 = 0) ∧
    ringTask.dev.ringFeed 0 = some (feed0 16) ∧ ringTask.dev.host.held = false ∧ (feed0 16).stopping = none ∧
    (feed0 16).queue.length < ((ringTask.dev.chan 0).inTail.toNat + 2 ^ 4 - (ringTask.dev.chan 0).inHead.toNat) % 2 ^ 4 ∧
    16 ≤ (entryFrames (ringTask.dev.chan 0) ([56] ++ List.replicate 63 0)).length := by decide

/-! ### The host link, resets, errors -/

/-- A state whose host link is changed. -/
def linked (f : HostLink → HostLink) : State := work fun d => { d with host := f { d.host with token := 5, holdOnReset := true } }

theorem test_hold : ((linked id).mc.pwr.state = .on ∧ (linked id).dev.host.holdOnReset = true ∧ (linked id).dev.host.token ≠ 0 ∧
      (linked id).dev.fatal = false) ∧ (work id).dev.host.holdOnReset = false ∧ (work id).dev.host.held = false ∧
    (let s := linked fun h => { h with held := true }
     s.live = true ∧ s.dev.host.held = true ∧ s.dev.host.token ≠ 0 ∧ (let v : BitVec 64 := 0x100000005
       bit v.toNat 32 = true ∧ bit v.toNat 34 = false ∧ v.toNat % 2 ^ 32 = s.dev.host.token.toNat) ∧
       (let v : BitVec 64 := 0x100000004; bit v.toNat 32 = true ∧ bit v.toNat 34 = false ∧ v.toNat % 2 ^ 32 ≠ s.dev.host.token.toNat) ∧
       bit (0x400000000#64).toNat 34 = true) ∧
    (work id).mc.pwr.state = .on := by decide

theorem test_blocked :
    (let s := jobbed (desc 0 []) .done fun d => { d.setChan 0 chan1 with host := { d.host with ats := true } }
     s.live = true ∧ s.dev.host.ats = true ∧ s.dev.host.held = false ∧ (s.dev.chan 0).state ≠ .disabled ∧ (s.dev.chan 0).slotAddr ≠ 0 ∧
       (s.dev.chan 0).cqLog2 ≠ 0 ∧ ∃ j, s.dev.job 0 = some j ∧ j.chan = 0 ∧ j.launch = none ∧ s.dev.jobComplete j = true ∧
       completionHeld s.dev j = false ∧ flushDue s.dev j = false ∧ storeFull s.dev j = false) ∧
    (let s := work fun d => { d.setChan 0 { chan1 with cwAddr := 0x5000, outBase := 0x6000, outLog2 := 4, outProducer := 0x7000 } with
       host := { d.host with ats := true } }
     s.live = true ∧ s.dev.host.ats = true ∧ s.dev.host.held = false ∧ (s.dev.chan 0).state ≠ .disabled ∧ (s.dev.chan 0).outLog2 ≠ 0 ∧
       ∀ k ∈ [1, 2, 3], (s.dev.chan 0).blockAddrOf k ≠ 0) ∧
    (work id).dev.err.queue.length < 64 ∧
    (let s := work fun d => { d.setChan 0 { chan1 with state := .blocked, blocked := true } with
       host := { d.host with ats := true, ucs := [⟨0, 1, List.replicate 28 0, 0⟩] } }
     s.live = true ∧ (s.dev.chan 0).state = .blocked ∧ s.dev.host.held = false ∧ (s.dev.chan 0).cqLog2 ≠ 0 ∧ ({} : Env).deny = [] ∧
       (∃ r ∈ s.dev.host.ucs, r.chan = 0) ∧ hostDenied s.dev { deny := [(0x2000, 32)] } (s.dev.chan 0).slotAddr 32 = true) := by
  refine ⟨⟨by decide, by decide, by decide, by decide, by decide, by decide, ⟨_, rfl, by decide⟩⟩, by decide, by decide, by decide⟩

/-- A state whose undelivered-completion store is full, with a descriptor of channel 0 complete. -/
def storeFilled : State := jobbed (desc 0 []) .done fun d =>
  { d.setChan 0 chan1 with host := { d.host with ats := true, ucs := List.replicate 16384 ⟨1, 1, [], 0⟩ } }

theorem test_store_full : storeFilled.live = true ∧ storeFilled.dev.host.ats = true ∧ storeFilled.dev.host.held = false ∧
    (storeFilled.dev.chan 0).state ≠ .disabled ∧ (storeFilled.dev.chan 0).slotAddr ≠ 0 ∧ (storeFilled.dev.chan 0).blocked = false ∧
    ∃ j, storeFilled.dev.job 0 = some j ∧ j.chan = 0 ∧ storeFilled.dev.jobComplete j = true ∧ flushDue storeFilled.dev j = false ∧
      storeFull storeFilled.dev j = true := by
  refine ⟨by decide, by decide, by decide, by decide, by decide, by decide, _, rfl, by decide, by decide, by decide, ?_⟩
  show (true && decide (16384 ≤ (List.replicate 16384 (⟨1, 1, [], 0⟩ : Stored)).length)) = true
  rw [List.length_replicate]; decide

theorem test_host : (let s := work fun d => { d with
        jobs := [{ job0 (desc 0x60 [(0x28, 0x1FF)]) .active with engine := some 1 }], nextJob := 1 }
     s.live = true ∧ ∃ j, s.dev.job 0 = some j ∧ j.chan = 0 ∧ j.engine ≠ none ∧ (j.desc.srcHost = true ∨ j.desc.dstHost = true) ∧
       s.dev.jobComplete j = false ∧ flushDue s.dev j = false) ∧ (work id).dev.host.held = false ∧
    (linked fun h => { h with held := true }).dev.host.held = true ∧ (linked fun h => { h with held := true }).dev.fatal = false := by
  refine ⟨⟨by decide, ⟨_, rfl, by decide⟩⟩, by decide⟩

/-- A state with one error record in the queue of an error ring of 16 slots. -/
def erred : State := work fun d => { d with
  host := { d.host with masked := 0, ats := true }, err := { d.err with ringBase := 0x8000, ringLog2 := 4, queue := [errRec stEcc 0 0 0 0] } }

theorem test_errors : ((work id).dev.err.ringLog2 = 0 ∧ (work id).dev.err.queue = []) ∧ erred.dev.err.ringLog2 ≠ 0 ∧
    (erred.live = true ∧ erred.dev.err.queue = errRec stEcc 0 0 0 0 :: [] ∧ erred.dev.errRoom = true ∧
      erred.dev.host.masked.getLsbD erred.dev.host.errorVector.toNat = false ∧ hostDenied erred.dev {} erred.dev.err.slot 64 = false ∧
      hostDenied erred.dev { deny := [(0x8000, 64)] } erred.dev.err.slot 64 = true) := by decide

set_option maxRecDepth 100000 in
theorem test_rake : (work fun d => { d with err := { d.err with rakeInterval := 0 } }).dev.err.rakeInterval = 0 ∧
    (work id).dev.err.rakeInterval ≠ 0 ∧ (∀ i, i < engineCount → pendingOf (work id).dev (engineOf i) = false) ∧ cycles [] = [] ∧
    (∀ j ∈ (work id).dev.jobs, j.desc.code ≠ 3) ∧
    (let d := (work fun d => d.setChan 0 { chan1 with held := some ⟨1, desc 0x60 [], false, .none⟩ }).dev
     pendingOf d (engineOf 308) = true ∧ progressOf d (engineOf 308) = (Tbl.get {} 308 d.rake : RakeEntry).last ∧
       blockedOn d [] 308 = false ∧ hostWait d (engineOf 308) = false ∧ blockedOn d [(308, 309)] 308 = true) := by decide

theorem test_registers : (¬((8 : Nat) = 8 ∧ (0x100004#24).toNat % 8 = 0)) ∧ ¬((8 : Nat) = 4 ∧ (0x100004#24).toNat % 4 = 0) ∧
    (regRead (work id).mc (work id).dev ((0xFFFFF8#24).toNat / 8 * 8) = none ∧ (0xFFFFF8#24).toNat / 8 * 8 ≠ 0xE00040) ∧
    (work id).live = true ∧ 0x7F8 + 8 ≤ 0x800 := by decide

theorem test_windows : (work id).live = true ∧ 0x1000 + [1#8].length ≤ 2 ^ (work id).dev.host.bar4Log2 ∧ bar4Stores 0x1000 = true ∧
    plainMem 0x1000 = true ∧ (mcOf fun m => { m with permit := true }).mc.permit = true ∧ (work id).mc.permit = false ∧
    (∃ j ∈ (jobbed (desc 0xF0 []) .active id).dev.jobs, j.desc.code = 0xF0 ∧ j.ended = false) ∧
    (∀ j ∈ (jobbed (desc 0xF0 []) .done id).dev.jobs, j.desc.code = 0xF0 ∧ j.ended = true) ∧
    (work fun d => { d with debugOn := true }).dev.debugOn = true ∧ ¬((4 : Nat) = 8 ∧ 4 % 8 = 0) ∧ ¬((2 : Nat) = 4 ∧ 4 % 4 = 0) := by
  refine ⟨by decide, by decide, by decide, by decide, by decide, by decide, ⟨_, List.mem_cons_self .., by decide⟩, by decide⟩

/-! ### Links and ports -/

/-- A running state with a port in a given state. -/
def ported (n : Nat) (q : Port) (f : Dev → Dev := id) : State := work fun d => (f d).updPort n fun _ => q

/-- A chain link that is up, in session 3. -/
def up1 : Port := { mode := 1, state := .up, session := 3, peer := 9, credits := [8, 8, 8, 8], peerFreed := [0, 0, 0, 0], freed := [0, 0, 0, 0] }

/-- A frame of type `t` in session 3 that bears no units. -/
def frame3 (t : Nat) : Bytes := lcpFrame t 0 0 0 0 9 0 [0, 0, 0, 0] 3 []

/-- An LCP frame in its Ethernet frame, with an 802.1Q tag. -/
def ether (f : Bytes) : Bytes := List.replicate 12 0#8 ++ [0x81, 0x00, 0x20, 0x05, 0x8B, 0x4C] ++ f

/-- A HELLO of device 9. -/
def hello9 : Bytes := lcpFrame 3 0 0 0 0 9 0xFFFF [] 0 (toLe 2 9 ++ toLe 6 0 ++ toLe 2 2 ++ toLe 8 0 ++ toLe 14 0)

/-- A frame that waits for its acknowledgement. -/
def sent0 : TxFrame := { seq := 0, cls := 0, src := 0, dst := 9, hops := 0, units := [], blocks := 1 }

set_option maxRecDepth 100000 in
theorem test_links :
    (((ported 0 { mode := 1 }).dev.port 0).state = .disabled ∧ ((ported 0 { mode := 1 }).dev.port 0).mode = 1) ∧
    ((work id).dev.port 0).mode = 0 ∧ (ported 0 { mode := 2, state := .training }).live = true ∧
    (let s := ported 0 { mode := 1, state := .training, expectAny := false, expectDevice := 8 }
     s.live = true ∧ (s.dev.port 0).mode = 1 ∧ (s.dev.port 0).state = .training ∧ lcpPayload (ether hello9) = some hello9 ∧ lcpOk hello9 = true ∧ field hello9 0 1 = 1 ∧
       field hello9 1 1 = 3 ∧ field hello9 0x20 2 ≠ (s.dev.port 0).expectDevice.toNat) ∧
    ({ mode := 1, state := .training } : Port).expectAny = true ∧ 0 < up1.credits.length := by decide

set_option maxRecDepth 100000 in
theorem test_frames : (let s := ported 0 up1
     s.live = true ∧ (∀ t ∈ [0, 1, 2], lcpPayload (ether (frame3 t)) = some (frame3 t) ∧ (s.dev.port 0).current (frame3 t) = true ∧ lcpOk (frame3 t) = true ∧ field (frame3 t) 1 1 = t) ∧
       field (frame3 0) 4 4 = (s.dev.port 0).expectSeq.toNat ∧ field (frame3 0) 0xE 2 = s.dev.deviceId ∧ (s.dev.port 0).txq = [] ∧
       lcpPayload (ether []) = some [] ∧ lcpPayload [] = none ∧ (s.dev.port 0).current [] = false ∧ (s.dev.port 0).nakSent = false ∧ (s.dev.port 0).state = .up ∧ (s.dev.port 0).mode = 1) ∧
    ((ported 0 { up1 with nakSent := true }).dev.port 0).nakSent = true ∧
    (let s := ported 0 { up1 with unacked := [sent0] }
     (s.dev.port 0).unacked ≠ [] ∧ (s.dev.port 0).retries + 1 < max 1 (s.dev.port 0).retryLimit.toNat) ∧
    (let s := ported 0 { up1 with unacked := [sent0], retries := 31 }
     max 1 (s.dev.port 0).retryLimit.toNat ≤ (s.dev.port 0).retries + 1) := by decide

theorem test_losses : (ported 0 up1).live = true ∧ ((ported 0 up1).dev.port 0).state = .up ∧ ((ported 0 up1).dev.port 0).mode = 1 ∧
    ((work id).dev.port 0).state ≠ .up ∧ ((ported 0 { mode := 2 }).dev.port 0).mode = 2 ∧
    (work id).dev.routePinned 5 = false ∧ bits (0x71#64).toNat 0 4 = 1 ∧
    bits (0x71#64).toNat 0 4 ≠ ((work id).dev.route 5).port.toNat ∧
    (let s := work fun d => { d with routes := [(9, { port := 0, portValid := true })] }.setPlot 0
       { lay := { recOf 0 0 with nextDevice := 9 } }
     s.dev.routePinned 9 = true ∧ (1 : Nat) ≠ (s.dev.route 9).port.toNat) ∧
    (bit (0x310#64).toNat 4 = true ∧ (ported 0 up1).dev.portUp 0 = true ∧ bit (0x301#64).toNat 4 = false ∧ bit (0x301#64).toNat 9 = true) := by
  decide

/-- A chain link with one unit received from device 9. -/
def received (kind plot : Nat) (body : Bytes) (f : Dev → Dev := id) : State :=
  ported 0 { up1 with rx := [⟨kind, plot, 9, body, 0, 0, 1⟩] } f

/-- The body of a Read or a Write of four bytes at 0x1000, tag 5. -/
def ask4 : Bytes := toLe 8 0x1000 ++ toLe 4 4 ++ toLe 4 5 ++ [1, 2, 3, 4]

theorem test_requests :
    (∀ k ∈ [6, 7], ∃ u, ((received k 0xFFFF ask4).dev.port 0).requestOf k = some u ∧ u.plot = 0xFFFF ∧
      (regionOf (addrLocal (field u.body 0 8))).1 ≠ .regs) ∧
    overlaps 0x1000 8 (field ask4 0 8) (field ask4 8 4) = true ∧ addrDevice (field ask4 0 8) = (work id).dev.deviceId ∧
    ((work id).dev.cache (clusterOf (field ask4 0 8))).find (field ask4 0 8) = none ∧ ((work id).dev.port 0).requestOf 6 = none ∧
    (match (regionOf (addrLocal (field ask4 0 8))).1 with | .hbm _ => true | _ => false) = true ∧
    (match (regionOf 0xF001000000).1 with | .hbm _ => true | _ => false) = false ∧ (regionOf 0xF001000000).1 ≠ .regs ∧
    ((work id).dev.port 0).requestOf 7 = none ∧
    (∀ k ∈ [13, 14], let s := received k 0xFFFF (toLe 8 5) fun d => { d with
          remoteResults := [([5], ⟨3, 0, 0, .task 0, 0, 0, 0, 0, []⟩)], pendings := [⟨5, 1, 0, 9, 0x1000, 4, 0⟩], jobs := [{ job0 (desc 0x60 []) .done with wait := [5] }], nextJob := 1 }
      ∃ u, (s.dev.port 0).rxOf k = some u ∧ ∃ q, (s.dev.takeUnit 0 u).pendingOf u.src (field u.body 0 4) = some q ∧ q.kind ≠ 9 ∧
        ∃ j, s.dev.job q.job = some j ∧ j.desc.code ≠ 0x34 ∧ (s.dev.remoteResults.map fun r => r.1) = [[q.tag]] ∧ s.dev.plot 3 = none) ∧
    (∀ x ∈ [0xFFFF, 8], let s := received 12 0 (toLe 8 0) fun d => d.setPlot 0 { lay := { recOf 0 0 with prevDevice := x } }
      ∃ u y, (s.dev.port 0).rxOf 12 = some u ∧ s.dev.plot u.plot = some y ∧ y.startsHere = decide (x = 0xFFFF)) := by
  refine ⟨?_, by decide, by decide, by decide, by decide, by decide, by decide, by decide, by decide, ?_, ?_⟩ <;> intro k h <;> simp only [List.mem_cons, List.not_mem_nil, or_false] at h <;>
    rcases h with rfl | rfl
  · exact ⟨_, rfl, by decide⟩
  · exact ⟨_, rfl, by decide⟩
  · exact ⟨_, rfl, _, rfl, by decide, _, rfl, by decide⟩
  · exact ⟨_, rfl, _, rfl, by decide, _, rfl, by decide⟩
  · exact ⟨_, _, rfl, rfl, by decide⟩
  · exact ⟨_, _, rfl, rfl, by decide⟩

/-- A record port that is up. -/
def rp : Port := { mode := 2, state := .up }

/-- An IPv4 UDP frame to port 7 with an empty datagram of records. -/
def udp7 : Bytes := List.replicate 12 0 ++ [8, 0, 0x45, 0, 0, 36, 0, 0, 0, 0, 64, 17, 0, 0] ++ List.replicate 8 0 ++
  [0, 9, 0, 7, 0, 16, 0, 0, 0x4C, 0x44] ++ List.replicate 6 0

/-- A result that waits at a port. -/
def waits8 : TxResult := ⟨0, 0, 0, .task 0, 0, 0, 0, 0, List.replicate 8 1⟩

/-- A datagram that waits to leave. -/
def dgram0 : Dgram := ⟨0, 0, false, 0, 0, 0, 0, [1]⟩

set_option maxRecDepth 100000 in
theorem test_record_ports :
    (let s := ported 0 rp
     s.live = true ∧ (s.dev.port 0).state = .up ∧ (s.dev.port 0).mode = 2 ∧ (s.dev.port 0).pfc = false ∧
       beField udp7 0 6 = (s.dev.port 0).srcMac.toNat ∧ beField (List.replicate 6 1) 0 6 ≠ (s.dev.port 0).srcMac.toNat ∧
       udp7.length + 4 ≤ (s.dev.port 0).mtu.toNat ∧ recordDatagram udp7 = some (7, []) ∧ recordDatagram [] = none ∧
       s.dev.taskBound 0 7 = false ∧ (s.dev.port 0).xoff = false) ∧
    (let s := ported 0 rp fun d => { d with feeds := [feed0 0] }
     s.dev.taskBound 0 7 = true ∧ (s.dev.port 0).rxUsed + ([] : Bytes).length ≤ s.dev.rxBytes 0) ∧
    (∀ b ∈ [false, true], let s := ported 0 { rp with xoff := true, paused := b }
     (s.dev.port 0).xoff = true ∧ (s.dev.port 0).paused = b ∧ 2 * (s.dev.port 0).rxUsed < s.dev.rxBytes 0) ∧
    ((ported 0 { rp with paused := true }).dev.port 0).xoff = false ∧
    (let s := ported 0 { rp with txResults := [waits8, waits8] }
     (s.dev.port 0).paused = false ∧ (s.dev.port 0).txResults ≠ [] ∧ (s.dev.port 0).txDgrams = [] ∧
       ((s.dev.port 0).txResults.map fun r => r.bytes.length).sum + 8 ≤ s.dev.txBytes 0) ∧
    ((ported 0 { rp with txDgrams := [(1, dgram0)] }).dev.port 0).txDgrams = (1, dgram0) :: [] := by decide

/-! ### Records -/

/-- A 64-byte-wide sieve table with no feature and no entity (R83). -/
def plainSieve : Bytes := [1, 0]

/-- The same with one entity look-up: table at 0x10000, one slot, `probes` probes, rows of 8 bytes, the key at payload offset 0. -/
def entitySieve (probes : Byte) : Bytes :=
  [1, 0, 0, 0, 0, 0, 0, 0, 1] ++ List.replicate 247 0 ++ toLe 8 0x10000 ++ toLe 8 0x20000 ++ toLe 4 0 ++ [0, probes] ++ toLe 2 8

/-- A record of stream 0 of task 0, with the ECV of its payload. -/
def rec0 : Rec := ⟨.task 0, 0, 0, 9, crc32c (List.replicate 8 0), 0, List.replicate 8 0, 0⟩

/-- A head's work on that record. -/
def work0 : HeadWork := ⟨rec0, 0, [], 0, 0, 0⟩

/-- A running state with a core. -/
def cored (n : Nat) (c : Core) (f : Dev → Dev := id) : State := work fun d => (f d).setCore n c

/-- A grove with FX48 sums of one output, a tree of one node, no pruning. -/
def info0 : GroveInfo := {
  groveId := 1, version := 2, treeCount := 1, firstSlice := 0, sliceCount := 1, plotSlices := 1, fold := 0, outputs := 1, valueFmt := 1
  fxScale := 0, prune := false, leafToId := false, signed := false, threshold := 0, sense := 0, base := none, sieve := plainSieve
  finish := [] }

/-- A node on feature 0: terminal, threshold 5, leaves from 0; its CRC byte may be left out. -/
def node0 (crc : Bool) : Nat := let e := 5 * 2 ^ 36 + 2 ^ 8; if crc then e + nodeCrc e else e

/-- A slice of one tree slot whose leaf records carry the signatures of their place in the tree. -/
def slice0 : Slice := ⟨1, [[node0 true]], [0, 0], [], []⟩

/-- A grove pair. -/
def pair0 : Pair := ⟨info0, slice0, none, false⟩

/-- Plot 0 on core 0 as its head and its tail, its grove active and a task's stream 0 at its entry. -/
def grown (f : Plot → Plot := id) (d : Dev) : Dev :=
  { d with feeds := [{ feed0 16 with queue := [(toLe 2 1 ++ toLe 2 8 ++ toLe 4 9 ++ toLe 8 0 ++ List.replicate 8 0, 0)], entrySlice := 1 }] }.setPlot 0
    (f { lay := recOf 0 0, state := .active, activeGrove := some ⟨info0, [slice0], 0⟩, streams := [(0, { src := some (.task 0) })] })

set_option maxRecDepth 100000 in
theorem test_frame : ∃ p, (work (grown)).dev.plot 0 = some p ∧ p.open' = true ∧
    headRoom (work grown).dev p = true ∧
    ∃ f, arbitrate (refillPlot (work grown).dev 0) 0 p = some (f, 1) ∧ f.stream = some 0 ∧
    ∃ h, frameHeader (refillPlot (work grown).dev 0) {} f = .ok (h, 24) ∧ frameInvalid h 24 = false ∧
    replayUsed (refillPlot (work grown).dev 0) ((p.first.getD 0) / 64) + frameBytes (field h 2 2) ≤ replaySize ∧
    framePayload (refillPlot (work grown).dev 0) {} f (field h 2 2) = .ok (List.replicate 8 0) ∧
    replayBufferBad {} ((p.first.getD 0) / 64) = false := by
  exact ⟨_, rfl, by decide, by decide, _, rfl, by decide, _, rfl, by decide, by decide, by rfl, by decide⟩

/-- A core with one record in front of its head. -/
def fed : State := cored 0 { sieveActive := some (0, plainSieve), headQueue := [.record rec0] }

/-- A core whose head works on a record with a sieve table. -/
def binning (t : Bytes) (w : HeadWork) (f : Dev → Dev := id) : State := cored 0 { sieveActive := some (0, t), headWork := [w] } f

set_option maxRecDepth 100000 in
theorem test_heads : coreGoes fed 0 ∧ (fed.dev.core 0).headQueue = .record rec0 :: [] ∧ (fed.dev.core 0).freeRow = some 0 ∧
    (∃ e, work0.needs (parseSieve (entitySieve 1)) = some (e, 0) ∧ ∃ b, (lookUp (binning (entitySieve 1) work0).dev {} e 0).2 = .hit b) ∧
    (∃ e, work0.needs (parseSieve (entitySieve 0)) = some (e, 0) ∧ (lookUp (binning (entitySieve 0) work0).dev {} e 0).2 = .miss true ∧
      ∃ b, (binning (entitySieve 0) work0).dev.readG {} e.defaultRow e.rowBytes = .ok b) ∧
    (coreGoes (binning plainSieve work0) 0 ∧ work0.ready (parseSieve plainSieve) = true ∧
      laneFree ((binning plainSieve work0).dev.core 0).headOut.length = true ∧ crc32c work0.record.payload = work0.record.ecv ∧
      crc32c [(1 : Byte)] ≠ rec0.ecv) ∧ illegalCode 3 = true ∧
    (lookPending (binning (entitySieve 1) work0).dev 0 = true ∧ codeMet { codes := [5] } = some 5 ∧
      (let s := cored 0 { keyBlocks := [⟨.task 0, 0, []⟩] } grown
       s.live = true ∧ requestAt s.dev 0 0 = true ∧ (s.dev.plotOf 0).isSome = true) ∧ onCluster (work id).dev 0 (job0 (desc 0x40 []) .active) = true) ∧ (cored 0 { fenced := true }).dev.stopped 0 = true := by
  refine ⟨by decide, by decide, by decide, ⟨_, rfl, _, rfl⟩, ⟨_, rfl, by decide, _, rfl⟩, by decide, by decide, by decide, by decide⟩

/-- A bin-vector packet of one bin. -/
def packet0 : BinPacket := ⟨0, rec0.ecv, 0, 0, 0, [3], []⟩

/-- Plot 0 and its core 0. -/
def planted (c : Core) (f : Plot → Plot := id) : State := cored 0 { c with pair0 := some pair0 } (grown f)

/-- A plot of cores 0 and 1. -/
def two (p : Plot) : Plot := { p with lay := { p.lay with entries := [⟨0, true, false, 0, 0, 0, 0⟩, ⟨1, false, true, 0, 0, 0, 0⟩] } }

/-- Core `n` of the plot of cores 0 and 1. -/
def second (n : Nat) (c : Core) (f : Plot → Plot := id) : State := cored n { c with pair0 := some pair0 } (grown (f ∘ two))

set_option maxRecDepth 100000 in
theorem test_packets :
    (let s := planted { headOut := [.bins packet0 (.task 0) 0 0 0] }
     ∃ p, plotGoes s 0 0 p ∧ p.isFirst 0 = true ∧ p.heads[p.rotAccept]? = some 0 ∧ s.dev.stopped 0 = false ∧
       (s.dev.core 0).headOut = .bins packet0 (.task 0) 0 0 0 :: [] ∧ (s.dev.core 0).binLane.any BinMsg.isMarker = false ∧
       s.dev.laneRoom 0 0 true (BinMsg.bins packet0 (.task 0) 0 0 0).size = true) ∧
    (let s := second 1 { binLane := [.bins packet0 (.task 0) 0 0 0] }
     ∃ p, plotGoes s 1 0 p ∧ (s.dev.core 1).binLane = .bins packet0 (.task 0) 0 0 0 :: [] ∧ (s.dev.core 1).activePair = some pair0 ∧
       s.dev.nextRoom p 1 true (BinMsg.bins packet0 (.task 0) 0 0 1).size = true ∧ chainBad {} 0 = false ∧
       (s.dev.core 1).ctxRow packet0.recordId (.task 0) 0 = some 0 ∧ p.isFirst 1 = false ∧ p.after 1 ≠ some 1) ∧
    (let s := second 1 { binLane := [.bins packet0 (.task 0) 0 0 0], tiles := [⟨4096 * 2 ^ 20, 0, none, 16, none⟩] }
     ∃ p, plotGoes s 1 0 p ∧ (s.dev.core 1).binLane = .bins packet0 (.task 0) 0 0 0 :: [] ∧
       (s.dev.core 1).ctxRow packet0.recordId (.task 0) 0 = none) := by
  exact ⟨⟨_, ⟨by decide, rfl, rfl⟩, by decide⟩, ⟨_, ⟨by decide, rfl, rfl⟩, by decide⟩, ⟨_, ⟨by decide, rfl, rfl⟩, by decide⟩⟩

/-- The context of a record whose bins have come. -/
def ctx0 : Ctx := { Ctx.fresh 0 (.task 0) 0 0 rec0.ecv 0 with hasBins := true, bins := [3] }

/-- The record's sum packet as core 0 sends it on. -/
def sum0 : SumPacket := (finalPacket pair0 true { ctx0 with admitted := true, issued := 1 } {}).2

/-- A lane that ended at a leaf of slot 0. -/
def lane0 (leaf : Nat) : Lane := ⟨0, 1, 0, leaf, 0⟩

set_option maxRecDepth 100000 in
theorem test_records :
    (let s := cored 0 { pair0 := some pair0, ctxs := [{ ctx0 with acked := true, keysSent := true, admitted := true, issued := 1 }] }
     coreGoes s 0 ∧ ((s.dev.core 0).ctxs.find? (s.dev.core 0).done).isSome = true) ∧
    (let s := second 1 { ctxs := [{ ctx0 with inSum := some sum0 }] }
     ∃ p, plotGoes s 1 0 p ∧ ∃ x, (s.dev.core 1).ctxs.find? (fun y => y.hasBins && !y.admitted) = some x ∧
       (s.dev.core 1).pairOf x = some pair0 ∧ p.isFirst 1 = false ∧ x.inSum.isSome = true ∧ (s.dev.core 1).halvesUsed < 2) ∧
    (let s := planted { ctxs := [{ ctx0 with admitted := true }] }
     coreGoes s 0 ∧ ∃ x, (s.dev.core 0).ctxs.find? (fun y => y.admitted && !y.skips &&
         ((s.dev.core 0).pairOf y).any fun pr => y.issued < pr.rounds) = some x ∧ (s.dev.core 0).pairOf x = some pair0 ∧
       ∃ ls, descendAll 0 (strideOf 1 1) slice0 x.bins .clean (roundSlots 0 slice0.slots x.issued) 0 = .ok ls) ∧
    (∀ q ∈ [true, false], let s := planted { ctxs := [{ ctx0 with admitted := true, issued := 1, rounds := [⟨[], q⟩] }] }
     ∃ p x, plotGoes s 0 0 p ∧ (s.dev.core 0).ctxs.find? (fun y => !y.rounds.isEmpty) = some x ∧ (s.dev.core 0).pairOf x = some pair0 ∧
       x.rounds = ⟨[], q⟩ :: [] ∧ leafChecks (strideOf 1 1) slice0 .clean [] 0 = none) ∧
    (∀ q ∈ [true, false], let s := planted { ctxs := [{ ctx0 with admitted := true, issued := 1, rounds := [⟨[lane0 0], q⟩] }] }
     ∃ p x, plotGoes s 0 0 p ∧ (s.dev.core 0).ctxs.find? (fun y => !y.rounds.isEmpty) = some x ∧ (s.dev.core 0).pairOf x = some pair0 ∧
       x.rounds = ⟨[lane0 0], q⟩ :: [] ∧ (leafChecks (strideOf 1 1) slice0 .clean [lane0 0] 0).isSome = true) ∧
    (let s := planted { ctxs := [{ ctx0 with admitted := true, issued := 1 }] }
     ∃ p x, plotGoes s 0 0 p ∧ (s.dev.core 0).ctxs.find? (fun y => y.hasBins && !y.keysSent) = some x ∧
       (s.dev.core 0).pairOf x = some pair0 ∧ x.over pair0.rounds = true ∧ p.isFirst 0 = true) := by
  refine ⟨by decide, ⟨_, ⟨by decide, rfl, rfl⟩, _, rfl, by decide⟩, ⟨by decide, _, rfl, by decide, _, rfl⟩, ?_, ?_,
    ⟨_, _, ⟨by decide, rfl, rfl⟩, rfl, by decide⟩⟩ <;> intro q h <;> simp only [List.mem_cons, List.not_mem_nil, or_false] at h <;>
    rcases h with rfl | rfl <;> exact ⟨_, _, ⟨by decide, rfl, rfl⟩, rfl, by decide⟩

set_option maxRecDepth 100000 in
theorem test_descent : (nodeCrc (node0 true) = (Node.ofWord (node0 true)).crc ∧ (Node.ofWord (node0 true)).pad = false ∧
      inFeatureMap 0 slice0 0 (Node.ofWord (node0 true)).feature = true) ∧
    nodeCrc (node0 false) ≠ (Node.ofWord (node0 false)).crc ∧
    (Node.ofWord (2 ^ 10 + nodeCrc (2 ^ 10))).pad = true ∧ nodeCrc (2 ^ 10 + nodeCrc (2 ^ 10)) = (Node.ofWord (2 ^ 10 + nodeCrc (2 ^ 10))).crc := by
  decide

set_option maxRecDepth 100000 in
/-- A grove that prunes, at a point whose interval lies above the threshold, below it, and about it. -/
theorem test_pruning :
    (∀ sense ∈ [0, 1], let g := { info0 with sense := sense, threshold := 5 }
      decisive g 0 6 7 (0, 0) = some true ∧ decisive g 0 1 2 (0, 0) = some false ∧ decisive g 0 1 9 (0, 0) = none ∧
      decisive g 0 6 7 (1, 0) = none ∧ decisive { g with valueFmt := 0 } 0x7FC00000 6 7 (0, 0) = none) ∧
    (let pr : Pair := { pair0 with info := { info0 with prune := true, threshold := 5 }, slice := { slice0 with bounds := [(6, 7), (0, 0)] } }
     (testPoint pr true true 0 {} { ctx0 with rounds := [⟨[], false⟩] }).2.pruned ≠ none ∧ ctx0.pruned = none) ∧
    pair0.info.prune = false := by decide

set_option maxRecDepth 100000 in
theorem test_sums :
    (let s := second 0 { ctxs := [{ ctx0 with admitted := true, issued := 1 }] }
     ∃ p x, plotGoes s 0 0 p ∧ (s.dev.core 0).ctxs.find? (fun y => y.hasBins && !y.sent) = some x ∧ (s.dev.core 0).pairOf x = some pair0 ∧
       p.isTail 0 = false ∧ x.over pair0.rounds = true ∧ p.isFirst 0 = true ∧ p.after 0 = some 1 ∧
       s.dev.laneRoom 1 0 false (sumSize pair0.info) = true) ∧
    (∀ b ∈ [sum0.bytes, [0]], let s := second 1 { ctxs := [ctx0], sumLane := [⟨false, b, false, 0, false⟩] }
     ∃ p x, plotGoes s 1 0 p ∧ (s.dev.core 1).sumLane = ⟨false, b, false, 0, false⟩ :: [] ∧ (s.dev.core 1).awaiting = some x ∧
       (s.dev.core 1).pairOf x = some pair0 ∧ sumChecks pair0.info x b = decide (b ≠ [0])) ∧
    (let s := second 1 { sumLane := [⟨false, [0], false, 0, true⟩] }
     ∃ p, plotGoes s 1 0 p ∧ (s.dev.core 1).sumLane = ⟨false, [0], false, 0, true⟩ :: []) := by
  refine ⟨⟨_, _, ⟨by decide, rfl, rfl⟩, rfl, by decide⟩, ?_, ⟨_, ⟨by decide, rfl, rfl⟩, by decide⟩⟩
  intro b h; simp only [List.mem_cons, List.not_mem_nil, or_false] at h
  rcases h with rfl | rfl <;> exact ⟨_, _, ⟨by decide, rfl, rfl⟩, rfl, rfl, by decide⟩

/-- A finisher block of the sum as it is. -/
def fin0 : FinBlock := ⟨0, 0, 0, 0, 0, 0, 0, false, 0, 0, 0, [], []⟩

/-- The result of the record, and its bytes with another check. -/
def res0 (check : Nat) : ResultRec := ⟨0, rec0.ecv, 2, 0, 0, 0, 0, 0, check, toLe 8 0⟩

set_option maxRecDepth 100000 in
theorem test_finish :
    (let s := cored 0 { keyBlocks := [⟨.task 0, 0, List.replicate 16 0⟩] } grown
     s.live = true ∧ (s.dev.core 0).keyBlocks = ⟨.task 0, 0, List.replicate 16 0⟩ :: [] ∧
       (∀ f, s.dev.feed (.task 0) = some f → f.keyGather = none)) ∧
    (let kg : KeyGather := ⟨0, false, 0, 0, 0, 0, ⟨0, 0, 0, 0, 0, 0, 0, 0, []⟩⟩
     let s := cored 0 { keyBlocks := [⟨.task 0, 0, []⟩] } fun d => { grown id d with feeds := [{ feed0 16 with keyGather := some kg }] }
     ∃ p f, s.dev.plotOf 0 = some (0, p) ∧ s.dev.feed (.task 0) = some f ∧ f.keyGather = some kg) ∧
    (addrDevice 0x1000 = (work id).dev.deviceId ∧ 0x1000 % 2 ^ 40 + 16 + ([] : Bytes).length < 2 ^ 40) ∧
    (let s := cored 0 { pair0 := some { pair0 with fin := some fin0 }, ctxs := [{ ctx0 with admitted := true, issued := 1 }] } grown
     ∃ p x, plotGoes s 0 0 p ∧ (s.dev.core 0).ctxs.find? (fun y => y.hasBins && y.result.isNone) = some x ∧
       (s.dev.core 0).pairOf x = some { pair0 with fin := some fin0 } ∧ p.isTail 0 = true ∧ x.over pair0.rounds = true ∧ p.isFirst 0 = true) ∧
    (∀ e ∈ [rec0.ecv, 0],
      let s := cored 0 { ctxs := [{ ctx0 with admitted := true, issued := 1, sent := true, result := some { res0 0 with ecv := e } }] }
        (grown fun p => { p with replay := [rec0] })
      ∃ p x r, plotGoes s 0 0 p ∧ p.isTail 0 = true ∧ pickResult (resultRoom s.dev) [] (s.dev.core 0).ctxs = some x ∧ x.result = some r ∧
        resultOk p x r.bytes = decide (e = rec0.ecv)) := by
  refine ⟨⟨by decide, by decide, ?_⟩, ⟨_, _, rfl, rfl, rfl⟩, by decide, ⟨_, _, ⟨by decide, rfl, rfl⟩, rfl, by decide⟩, ?_⟩
  · intro f h; cases h; rfl
  · intro e h; simp only [List.mem_cons, List.not_mem_nil, or_false] at h
    rcases h with rfl | rfl <;> exact ⟨_, _, _, ⟨by decide, rfl, rfl⟩, by decide, rfl, rfl, by decide⟩

/-! ### Grafts, fences, restarts, the mirror -/

/-- A graft of version 3 for 2. -/
def graft0 : GraftState := ⟨0, false, false, 3, 2, false, false, [], false⟩

/-- Its marker, one of a drain-and-swap and one that fails its check. -/
def marker0 (kind : Nat) : Marker := ⟨0, kind, 2, 3, 1, [(0, 0)]⟩
def badMarker : Bytes := 1 :: (marker0 0).bytes.drop 1

/-- The core of a plot with a graft, a marker in its lane. -/
def marked (g : Option GraftState) (b : Bytes) (held : Option Nat := none) (st : GState := .grafting) : State :=
  cored 0 { pair0 := some pair0, pair1 := some { pair0 with info := { info0 with version := 3 } }, binLane := [.marker b false 0] }
    (grown fun p => { p with graft := g, heldCore := held, state := st })

set_option maxRecDepth 100000 in
theorem test_markers :
    (∀ b ∈ [true, false], let s := work (grown fun p => { p with graft := some { graft0 with drain := b } })
      s.live = true ∧ ∃ p g, s.dev.plot 0 = some p ∧ p.graft = some g ∧ g.placed = false ∧ p.startsHere = true ∧ p.restart = .none ∧
        p.held = false ∧ g.drain = b ∧ p.heads.Nodup) ∧
    (∀ k ∈ [0, 1], let s := cored 0 { headQueue := [.marker (marker0 k)] }
      coreGoes s 0 ∧ (s.dev.core 0).headQueue = .marker (marker0 k) :: [] ∧ (s.dev.core 0).headWork = []) ∧
    (let s := cored 0 { headOut := [.marker (marker0 0).bytes false 0] } grown
     ∃ p, plotGoes s 0 0 p ∧ p.isFirst 0 = true ∧ p.heads.Nodup ∧ (∀ h ∈ p.heads, s.dev.stopped h = false ∧ (s.dev.core h).markerOut.isSome = true) ∧
       (p.heads.head?.bind fun h => (s.dev.core h).markerOut) = some (marker0 0).bytes) ∧
    (∀ g ∈ [some graft0, none], let s := marked g (marker0 0).bytes
      ∃ p, plotGoes s 0 0 p ∧ (s.dev.core 0).binLane = .marker (marker0 0).bytes false 0 :: [] ∧ p.heldCore ≠ some 0 ∧
        (s.dev.core 0).atMarker = true ∧ markerOk (marker0 0).bytes = true ∧
        canPass s.dev p 0 (parseMarker (marker0 0).bytes) = g.isSome ∧ p.after 0 ≠ some 0 ∧
        s.dev.nextRoom p 0 true (marker0 0).bytes.length = true ∧
        graftDiffers p 0 (parseMarker (marker0 0).bytes) = none) ∧
    (∀ g ∈ [some graft0, none], let s := marked g (marker0 0).bytes (some 0) .held
      ∃ p, plotGoes s 0 0 p ∧ p.heldCore = some 0 ∧ canPass s.dev p 0 (parseMarker (marker0 0).bytes) = g.isSome ∧
        s.dev.nextRoom p 0 true (marker0 0).bytes.length = true) ∧
    (∃ p, plotGoes (marked none badMarker) 0 0 p ∧ p.heldCore ≠ some 0 ∧ ((marked none badMarker).dev.core 0).atMarker = true ∧
      markerOk badMarker = false) := by
  refine ⟨?_, by decide, ⟨_, ⟨by decide, rfl, rfl⟩, by decide⟩, ?_, ?_, ⟨_, ⟨by decide, rfl, rfl⟩, by decide⟩⟩ <;> intro g h <;>
    simp only [List.mem_cons, List.not_mem_nil, or_false] at h <;> rcases h with rfl | rfl
  · exact ⟨by decide, _, _, rfl, rfl, by decide⟩
  · exact ⟨by decide, _, _, rfl, rfl, by decide⟩
  all_goals exact ⟨_, ⟨by decide, rfl, rfl⟩, by decide⟩

set_option maxRecDepth 100000 in
theorem test_graft_ends :
    (∀ b ∈ [true, false], let s := work (grown fun p => { p with graft := some { graft0 with drain := b, switched := [0] } })
      ∃ p g, s.dev.plot 0 = some p ∧ p.graft = some g ∧ p.markerThrough g = true ∧ g.drain = b ∧
        ∀ n ∈ p.cores, (s.dev.core n).oldContexts = 0) ∧
    (let s := work (grown fun p => { p with graft := some graft0 })
     ∃ p g, s.dev.plot 0 = some p ∧ p.graft = some g ∧ p.markerThrough g = false) ∧
    (∀ q ∈ [[], [HeadIn.record rec0]],
      let s := cored 0 { headQueue := q } (grown fun p => { p with graft := some { graft0 with drain := true, placed := true }, entryMarker := some (marker0 1) })
      ∃ p g m, s.dev.plot 0 = some p ∧ p.graft = some g ∧ p.entryMarker = some m ∧ g.drain = true ∧ p.restart = .none ∧
        p.empty' s.dev = q.isEmpty) := by
  refine ⟨?_, ⟨_, _, rfl, rfl, by decide⟩, ?_⟩ <;> intro g h <;> simp only [List.mem_cons, List.not_mem_nil, or_false] at h <;>
    rcases h with rfl | rfl
  · exact ⟨_, _, rfl, rfl, by decide⟩
  · exact ⟨_, _, rfl, rfl, by decide⟩
  · exact ⟨_, _, _, rfl, rfl, rfl, by decide⟩
  · exact ⟨_, _, _, rfl, rfl, rfl, by decide⟩

set_option maxRecDepth 100000 in
theorem test_fences :
    (∀ b ∈ [false, true], let s := cored 1 { fenced := b } fun d => { grown two d with detected := [⟨1, stCodeViolation, 1, [], none, 0⟩] }
      s.live = true ∧ (s.dev.core 1).fenced = b ∧ ∃ f, faultOf s.dev 1 .clean = some f ∧ f.core = 1 ∧ ∃ p, s.dev.plotOf 1 = some (0, p) ∧
        s.dev.plot 0 = some p) ∧
    faultOf (work id).dev 1 .clean = none ∧ faultOf (work id).dev 1 (.ecc 0) ≠ none ∧
    (let s := cored 1 { fenced := true } (grown two)
     ∃ p g, s.dev.plot 0 = some p ∧ fencedIn s.dev p ≠ [] ∧ p.restart ≠ .failed ∧ p.activeGrove = some g ∧
       ((patchAll s.dev 0 (fencedIn s.dev p)).1.plot 0).isSome = true) ∧
    (∃ p, (work grown).dev.plot 0 = some p ∧ fencedIn (work grown).dev p = []) := by
  refine ⟨?_, by decide, by decide, ⟨_, _, rfl, by decide, by decide, rfl, by decide⟩, ⟨_, rfl, by decide⟩⟩
  intro g h; simp only [List.mem_cons, List.not_mem_nil, or_false] at h
  rcases h with rfl | rfl <;> exact ⟨by decide, by decide, _, rfl, by decide, _, rfl, rfl⟩

/-- A plot whose chain begins or ends on other devices. -/
def away (x y : Nat) (p : Plot) : Plot := { p with lay := { p.lay with prevDevice := x, nextDevice := y } }

set_option maxRecDepth 100000 in
theorem test_restarts :
    (let s := work fun d => { grown id d with restartWait := [0] }
     s.live = true ∧ s.dev.restartWait.contains 0 = true ∧ ∃ p, s.dev.plot 0 = some p ∧ p.startsHere = true ∧ p.endsHere = true ∧
       p.restart = .none ∧ p.graft = none) ∧
    (work id).dev.restartWait.contains 0 = false ∧
    (let s := work (grown fun p => { p with restart := .stopped false false, replay := [rec0] })
     ∃ p, s.dev.plot 0 = some p ∧ p.restart = .stopped false false ∧ p.startsHere = true ∧ p.reachable s.dev = true) ∧
    (∀ x ∈ [0xFFFF, 9], let s := received 11 0 [] (grown (away x 0xFFFF))
      ∃ i u p, s.dev.findUnit 11 0 = some (i, u) ∧ s.dev.plot 0 = some p ∧ p.startsHere = decide (x = 0xFFFF)) ∧
    (work id).dev.findUnit 11 0 = none ∧
    (let s := received 3 0 [] (grown (away 9 0xFFFF))
     ∃ u p, (s.dev.port 0).rxOf 3 = some u ∧ s.dev.plot u.plot = some p ∧ p.restart ≠ .stopped true false ∧ p.graft = none ∧ p.endsHere = true) ∧
    (∀ x ∈ [0xFFFF, 9], let s := received 15 0 [] (grown fun p => away x 8 { p with restart := .stopped true true })
      ∃ u p, (s.dev.port 0).rxOf 15 = some u ∧ s.dev.plot u.plot = some p ∧ p.startsHere = decide (x = 0xFFFF) ∧
        p.restart = .stopped true true) := by
  refine ⟨⟨by decide, by decide, _, rfl, by decide⟩, by decide, ⟨_, rfl, by decide⟩, ?_, by decide, ⟨_, _, rfl, rfl, by decide⟩, ?_⟩ <;>
    intro x h <;> simp only [List.mem_cons, List.not_mem_nil, or_false] at h <;> rcases h with rfl | rfl
  · exact ⟨_, _, _, rfl, rfl, by decide⟩
  · exact ⟨_, _, _, rfl, rfl, by decide⟩
  · exact ⟨_, _, rfl, rfl, by decide⟩
  · exact ⟨_, _, rfl, rfl, by decide⟩

/-- A device that holds the mirror of device 9: a table of 4 KiB and two logs of 4 KiB behind the header. -/
def partner (d : Dev) : Dev := { d with
  surv := { d.surv with inStart := 1, inPages := 16 }, mem := [(0x1004, 1), (0x1006, 9), (0x1011, 0x10), (0x1019, 0x10)] }

set_option maxRecDepth 100000 in
theorem test_mirror :
    ((({} : Dev).surv.log 0).overflow = false ∧ mirField {} 0x18 8 < (({} : Dev).surv.log 0).used + 1) ∧
    (((work partner).dev.surv.log 0).overflow = false ∧ ((work partner).dev.surv.log 0).used + 1 ≤ mirField (work partner).dev 0x18 8) ∧
    (let s := received 9 0 (toLe 8 0 ++ toLe 4 1 ++ toLe 2 8 ++ toLe 2 0) partner
     ∃ u, (s.dev.port 0).rx = [u] ∧ u.kind = 9 ∧ field u.body 8 4 = 1 ∧ foreign (s.dev.takeUnit 0 u) u.src = false ∧
       mirField (s.dev.takeUnit 0 u) 4 1 = 1 ∧ inMirrorRegion (s.dev.takeUnit 0 u).surv 0x2000 8 = true ∧
       inMirrorRegion (s.dev.takeUnit 0 u).surv (logStart (s.dev.takeUnit 0 u) 1) (mirField (s.dev.takeUnit 0 u) 0x18 8) = true) ∧
    (∀ b ∈ [0, 1], let s := received 10 0 (toLe 4 1 ++ [b] ++ toLe 11 0) partner
     ∃ u, (s.dev.port 0).rx = [u] ∧ u.kind = 10 ∧ field u.body 0 4 = 1 ∧ foreign s.dev u.src = false ∧ mirField s.dev 4 1 = 1 ∧
       s.dev.surv.drain = none ∧ 1 ≤ mirField s.dev 0x28 4 + 1 ∧ (field u.body 4 1 = 1 ↔ b = 1)) ∧
    ((partner {}).surv.log 0).overflow = false ∧ mirField (partner {}) 0x28 4 = 0 ∧
    (work fun d => { d with surv := { d.surv with drain := some (9, 1, 0) } }).dev.surv.drain = some (9, 1, 0) := by
  refine ⟨by decide, by decide, ⟨_, rfl, by decide⟩, ?_, by decide⟩
  intro b h; simp only [List.mem_cons, List.not_mem_nil, or_false] at h
  rcases h with rfl | rfl <;> exact ⟨_, rfl, by decide⟩

/-! ### Numbers -/

set_option maxRecDepth 100000 in
theorem test_cross_hash : ∃ (f : Feature) (st : Binned), f.kind = 3 ∧ st.status = 0 ∧ at' 0 st.bins f.opA = (0xFFFF#32).toNat ∧
    at' 0 st.bins f.opB = (2#32).toNat ∧ f.seed = (7#32).toNat ∧ (0xFFFF#32).toNat < 2 ^ 16 ∧ f.count + 1 < 2 ^ 32 :=
  ⟨⟨3, 0, false, false, 0, 0, 0, 9, 0, 2 ^ 16 + 7 * 2 ^ 32, 0, 0⟩, ⟨[0xFFFF, 2], [], 0, 0, 0⟩, by decide⟩

theorem test_fixed : (([2 ^ 64 - 1, 2 ^ 62] : List Nat).map fun x => (sext 64 x).natAbs).sum < 2 ^ 63 := by decide

/-- A record port's buffer holds the bytes of its datagrams; with 3 MiB in it none is left. -/
theorem test_full_buffer : (∀ b : Bytes, ({ rp with dgrams := [(7, b)] } : Port).rxUsed = b.length) ∧
    (List.replicate (3 * 2 ^ 20) (0 : Byte)).length = 3 * 2 ^ 20 ∧ (work id).dev.rxBytes 0 < 3 * 2 ^ 20 + 8 :=
  ⟨fun b => by simp [Port.rxUsed], List.length_replicate, by decide⟩
end Sys2Proof.Tests
end

section
/-! SUPPORT. What a descriptor command does: its entry taken, the verdict answered, and a rejection. -/
namespace Sys2Proof.Machine
open Sys2Proof.Safety

/-! ### The entry taken -/

/-- A host read of the entry at HEAD changes the translation cache alone (R403). -/
theorem fetched_frame (c : Nat) (b : Option Bytes) (d : Dev) :
    ∃ a, fetched c b d = { d with host := { d.host with atc := a } } := by
  unfold fetched Dev.hostRead Dev.cachePages
  split <;> (try split) <;> exact ⟨_, rfl⟩

theorem chan_fetched (c k : Nat) (b : Option Bytes) (d : Dev) : (fetched c b d).chan k = d.chan k := by
  obtain ⟨a, ha⟩ := fetched_frame c b d
  rw [ha]; rfl

/-- A channel ready for the FEC is RUNNING, holds no entry, and launches no graph (R382). -/
theorem Chan.ready_iff (ch : Chan) :
    ch.ready = true ↔ ch.state = .running ∧ ch.held = none ∧ ch.launch = none ∧ ch.head ≠ ch.tail ∧ ch.cqRoom = true := by
  simp [Chan.ready, and_assoc]

/-- The FEC takes the entry at HEAD where the device works and no hold stops the fetch (R351, R409). -/
theorem takes_iff (s : State) (c : Nat) :
    takes s c = true ↔ s.live = true ∧ s.dev.running = true ∧ (s.dev.chan c).ready = true ∧ s.dev.host.held = false := by
  simp [takes, Dev.mayFetch, and_assoc]

@[simp] theorem chan_taken (s : State) (c : Nat) : (taken s c).chan c = (s.dev.chan c).pass := by
  simp [taken, chan_fetched]

theorem chan_taken_other {s : State} {c k : Nat} (h : k ≠ c) : (taken s c).chan k = s.dev.chan k := by
  rw [taken, Dev.chan_updChan_other _ h, chan_fetched]

/-- An entry taken changes the translation cache and the channels alone (R349, R403). -/
theorem taken_frame (s : State) (c : Nat) :
    ∃ a xs, taken s c = { s.dev with host := { s.dev.host with atc := a }, chans := xs } := by
  obtain ⟨a, ha⟩ := fetched_frame c (some []) s.dev
  exact ⟨a, _, by rw [taken, ha]; rfl⟩

/-- Each descriptor row submits its entry, where the entry has the form that the row describes. -/
theorem exec_of_entryOf {i : Instr} {e : Entry} (s : State) (h : entryOf i = some e) :
    exec i s = onDev (fun d => if e.form then submit e.desc.opcode e.chan e.desc e.env s.mc d else d) s := by
  cases i <;> cases h <;> rfl

/-- A descriptor command that is taken does what the verdict on its entry answers, which costs a credit where the verdict does
(R345, R352, R378). -/
theorem exec_of_takes {i : Instr} {e : Entry} {s : State} (h : entryOf i = some e) (hf : e.form = true)
    (ht : takes s e.chan = true) :
    exec i s = .next (withDev s (answer (verdictAt s e) s.mc e.chan (heldAt s e) e.env
      (if (verdictAt s e).costs then credited s e.chan else taken s e.chan)).1) := by
  obtain ⟨hlive, hrun, hready, hheld⟩ := (takes_iff s e.chan).mp ht
  obtain ⟨-, -, hlaunch, -, -⟩ := (Chan.ready_iff _).mp hready
  have hnone : ((taken s e.chan).chan e.chan).launch = none := by rw [chan_taken]; exact hlaunch
  have hv : verdictOf s.mc (taken s e.chan) e.chan (heldAt s e) e.env ((taken s e.chan).chan e.chan).launch = verdictAt s e := by
    rw [hnone]; rfl
  rw [exec_of_entryOf s h, onDev_live hlive, hf, if_pos rfl, submit,
    if_pos (by simp [hrun, Dev.mayFetch, hready, hheld]), takeEntry, chan_fetched]
  change Host.Outcome.next (withDev s (offer s.mc e.chan (heldAt s e) e.env (taken s e.chan)).1) = _
  rw [offer, hv]
  rfl

/-! ### Rejection -/

@[simp] theorem Chan.noteReject_seqNext (ch : Chan) : ch.noteReject.seqNext = ch.seqNext := by
  unfold Chan.noteReject Chan.event; dsimp only; split <;> rfl

@[simp] theorem Chan.noteReject_status (ch : Chan) : ch.noteReject.status = setBit ch.status 0 := by
  unfold Chan.noteReject Chan.event; dsimp only; split <;> rfl

theorem Chan.noteReject_state {ch : Chan} (h : ch.state = .running) :
    ch.noteReject.state = if ch.haltOnReject then .halted else .running := by
  unfold Chan.noteReject Chan.event
  cases ch.haltOnReject <;> simp [h]

/-- A launch constant block taken changes its channel's count of them alone (R370). -/
theorem takeConst_frame (d : Dev) (c : Nat) (x : Desc) : takeConst d c x = { d with chans := (takeConst d c x).chans } := by
  unfold takeConst; split <;> rfl

theorem chan_takeConst_self (d : Dev) (c : Nat) (x : Desc) :
    (takeConst d c x).chan c = { d.chan c with constTaken := ((takeConst d c x).chan c).constTaken } := by
  unfold takeConst; split
  · simp
  · rfl

theorem chan_takeConst_other {d : Dev} {c k : Nat} (x : Desc) (h : k ≠ c) : (takeConst d c x).chan k = d.chan k := by
  unfold takeConst; split
  · exact Dev.chan_updChan_other _ h _
  · rfl

/-- Two changes of one dispatched descriptor are one. -/
theorem Dev.updJob_updJob (d : Dev) (id : Nat) {f : Job → Job} (g : Job → Job) (hf : ∀ j, (f j).id = j.id) :
    (d.updJob id f).updJob id g = d.updJob id (g ∘ f) := by
  simp only [updJob, List.map_map]
  congr 2
  funext j
  by_cases hj : j.id = id <;> simp [hj, hf]

/-- The descriptor just entered is found as it is changed. -/
theorem Dev.mem_updJob_addJob (d : Dev) (c seq : Nat) (x : Desc) (env : Env) (launch : Option Nat) (node : Nat) (f : Job → Job) :
    f (d.addJob c seq x env launch node).2 ∈ ((d.addJob c seq x env launch node).1.updJob d.nextJob f).jobs :=
  List.mem_map.mpr ⟨_, List.mem_append_right _ (List.mem_singleton.mpr rfl), if_pos rfl⟩

/-- What a rejection makes of a descriptor just entered: complete, with the status, and without a chain (R353). -/
def rejectedJob (st : Status) (j : Job) : Job :=
  { j with phase := .done, status := st, nflags := j.nflags ||| 0, links := 0, chain := false
           chainStatus := if j.chainStatus = 0 then st else j.chainStatus, desc := { j.desc with next := 0 } }

/-- A ring entry rejected: its descriptor ended, its launch constant block taken, the rejection noted (R353, R370). -/
theorem rejectEntry_eq (d : Dev) (c seq : Nat) (x : Desc) (env : Env) (st : Status) (node : Nat) :
    rejectEntry d c seq x env st none node =
      (takeConst ((d.addJob c seq x env none node).1.updJob d.nextJob (rejectedJob st)) c x).updChan c Chan.noteReject := by
  simp only [rejectEntry, Dev.finishJob]
  rw [Dev.updJob_updJob]
  · rfl
  · exact fun _ => rfl

/-- A rejection changes the channels, the dispatched descriptors and their count alone. -/
theorem rejectEntry_frame (d : Dev) (c seq : Nat) (x : Desc) (env : Env) (st : Status) (node : Nat) :
    let r := rejectEntry d c seq x env st none node
    r = { d with chans := r.chans, jobs := r.jobs, nextJob := d.nextJob + 1 } := by
  dsimp only
  rw [rejectEntry_eq, takeConst_frame]
  rfl

theorem chan_rejectEntry_other {d : Dev} {c k : Nat} (seq : Nat) (x : Desc) (env : Env) (st : Status) (node : Nat) (h : k ≠ c) :
    (rejectEntry d c seq x env st none node).chan k = d.chan k := by
  rw [rejectEntry_eq, Dev.chan_updChan_other _ h, chan_takeConst_other _ h]
  rfl

/-- The channel of a rejected entry notes the rejection; a launch constant block may be taken beside it. -/
theorem chan_rejectEntry (d : Dev) (c seq : Nat) (x : Desc) (env : Env) (st : Status) (node : Nat) :
    ∃ n, (rejectEntry d c seq x env st none node).chan c = Chan.noteReject { d.chan c with constTaken := n } := by
  rw [rejectEntry_eq, Dev.chan_updChan, chan_takeConst_self]
  exact ⟨_, rfl⟩

/-- A rejected entry stands complete with its status, in its channel and under its number (R353). -/
theorem rejectEntry_completes (d : Dev) (c seq : Nat) (x : Desc) (env : Env) (st : Status) (node : Nat) :
    ∃ j ∈ (rejectEntry d c seq x env st none node).jobs,
      j.id = d.nextJob ∧ j.chan = c ∧ j.seq = seq ∧ j.status = st ∧ j.complete = true := by
  rw [rejectEntry_eq, takeConst_frame]
  exact ⟨_, d.mem_updJob_addJob c seq x env none node (rejectedJob st), rfl, rfl, rfl, rfl, rfl⟩

/-! ### The entry leaving the sequencer -/

/-- The credit charged and the step counted change the channels and FEC_PROGRESS alone (R378, R386). -/
theorem chargeLink_step_frame (d : Dev) (c : Nat) (f : Chan → Chan) :
    ∃ xs, (chargeLink d c).fecStep.updChan c f = { d with chans := xs, fecProgress := d.fecProgress + 1 } := ⟨_, rfl⟩

/-- The digital part with a taken entry dispatched or rejected, before its descriptor is entered: the credit charged, the sequencer one
step on, nothing held (R378, R386). -/
def leaving (s : State) (c : Nat) : Dev := (credited s c).fecStep.updChan c fun ch => { ch with held := none }

/-- An entry that leaves the sequencer has changed the translation cache, the channels and FEC_PROGRESS alone. -/
theorem leaving_frame (s : State) (c : Nat) :
    ∃ a xs, leaving s c = { s.dev with
      host := { s.dev.host with atc := a }, chans := xs, fecProgress := s.dev.fecProgress + 1 } := by
  obtain ⟨a, xs, ht⟩ := taken_frame s c
  obtain ⟨ys, hy⟩ := chargeLink_step_frame (taken s c) c fun ch => { ch with held := none }
  exact ⟨a, ys, by rw [leaving, credited, hy, ht]⟩

theorem chan_leaving_other {s : State} {c k : Nat} (h : k ≠ c) : (leaving s c).chan k = s.dev.chan k := by
  rw [leaving, Dev.chan_updChan_other _ h]
  change (chargeLink (taken s c) c).chan k = _
  rw [chargeLink, Dev.chan_updChan_other _ h, chan_taken_other h]

/-- The credit of an entry changes LEFT or DEBT alone (R378). -/
theorem chan_chargeLink (d : Dev) (c : Nat) :
    (chargeLink d c).chan c = { d.chan c with left := ((chargeLink d c).chan c).left, debt := ((chargeLink d c).chan c).debt } := by
  simp only [chargeLink, Dev.chan_updChan]
  split <;> rfl

/-- The channel of an entry that leaves, but for its credit: the entry is passed at HEAD. -/
theorem chan_leaving (s : State) (c : Nat) :
    ∃ l b, (leaving s c).chan c = { (s.dev.chan c).pass with left := l, debt := b, held := none } := by
  rw [leaving, Dev.chan_updChan]
  change ∃ l b, ({ (chargeLink (taken s c) c).chan c with held := none } : Chan) = _
  rw [chan_chargeLink, chan_taken]
  exact ⟨_, _, rfl⟩

/-- A descriptor command whose entry fails a check rejects it (R353). -/
theorem exec_of_rejected {i : Instr} {e : Entry} {s : State} {st : Status} (h : entryOf i = some e) (hf : e.form = true)
    (ht : takes s e.chan = true) (hv : verdictAt s e = .reject st) :
    exec i s = .next (withDev s (rejectEntry (leaving s e.chan) e.chan (s.dev.chan e.chan).seqNext.toNat e.desc e.env st none 0)) := by
  obtain ⟨-, -, hready, -⟩ := (takes_iff s e.chan).mp ht
  obtain ⟨-, -, hlaunch, -, -⟩ := (Chan.ready_iff _).mp hready
  have hnone : ((credited s e.chan).chan e.chan).launch = none := by
    rw [credited, chan_chargeLink, chan_taken]; exact hlaunch
  rw [exec_of_takes h hf ht, hv]
  simp only [answer, Verdict.costs, if_true, hnone]
  rfl

end Sys2Proof.Machine

namespace Sys2Proof.Proofs
open Sys2Proof.Machine Sys2Proof.Safety

/-- Settles O16: the command is the rejection of its entry (`exec_of_rejected`), whose frame, channel and completed descriptor the
laws of `rejectEntry` and `leaving` give. -/
theorem descriptorRejected : Obligations.DescriptorRejected := by
  unfold Obligations.DescriptorRejected
  intro i e s st hi hf ht hv
  obtain ⟨-, -, hready, -⟩ := (takes_iff s e.chan).mp ht
  obtain ⟨hstate, -, -, -, -⟩ := (Chan.ready_iff _).mp hready
  obtain ⟨a, xs, hr⟩ := leaving_frame s e.chan
  refine ⟨_, exec_of_rejected hi hf ht hv, ?_, fun c hc => ?_, ?_⟩
  · rw [rejectEntry_frame, hr]
  · rw [chan_rejectEntry_other _ _ _ _ _ hc, chan_leaving_other hc]
  · obtain ⟨n, hn⟩ := chan_rejectEntry (leaving s e.chan) e.chan (s.dev.chan e.chan).seqNext.toNat e.desc e.env st 0
    obtain ⟨l, b, hb⟩ := chan_leaving s e.chan
    have hid : (leaving s e.chan).nextJob = s.dev.nextJob := by rw [hr]
    dsimp only
    rw [hn, hb, ← hid]
    exact ⟨Chan.noteReject_seqNext _, Chan.noteReject_state hstate, Chan.noteReject_status _, rejectEntry_completes ..⟩

end Sys2Proof.Proofs
end

section
/-! SUPPORT. What REGISTER_WRITE does: which accesses reach a register, the pages of the channels, and the PWR block. -/
namespace Sys2Proof.Machine
open Sys2Proof.Safety

/-! ### Which writes reach a register -/

/-- The device works where no write is dropped because it is off, in test mode, or fatal (R441, R490, R528). -/
theorem State.live_eq (s : State) : s.live = (!(s.mc.pwr.state ≠ .on || s.mc.testMode) && !s.dev.fatal) := by
  rw [State.live, Bool.not_or, decide_not, Bool.not_not]
  rfl

/-- A write to BAR2 is work of the device (R370, R513). -/
theorem exec_registerWrite_bar2 (a : BitVec 24) (n : Nat) (v : BitVec 64) (s : State) :
    exec (.registerWrite true a n v) s = onDev (bar2Write a.toNat n v.toNat) s := by
  change Host.Outcome.next (registerWrite true a.toNat n v.toNat s) = _
  rw [onDev, State.live_eq, registerWrite]
  by_cases hoff : (s.mc.pwr.state ≠ .on || s.mc.testMode) = true
  · rw [if_pos hoff, hoff]; rfl
  · rw [if_neg hoff, eq_false_of_ne_true hoff]
    cases s.dev.fatal <;> rfl

/-- A write to BAR0 that is not one of ERR_FATAL has its effect where the device works, and none elsewhere (R441, R511). -/
theorem exec_registerWrite_bar0 {a : BitVec 24} {n : Nat} (v : BitVec 64) (s : State)
    (ha : RegW.of a.toNat n v.toNat = none ∨ a.toNat / 8 * 8 ≠ 0xE00040) :
    exec (.registerWrite false a n v) s = .next (if s.live then bar0Write a.toNat n v.toNat s else s) := by
  change Host.Outcome.next (registerWrite false a.toNat n v.toNat s) = _
  rw [State.live_eq]
  by_cases hoff : (s.mc.pwr.state ≠ .on || s.mc.testMode) = true
  · rw [registerWrite, if_pos hoff, hoff]; rfl
  · have hlive : registerWrite false a.toNat n v.toNat s = if s.dev.fatal then s else bar0Write a.toNat n v.toNat s := by
      rw [registerWrite, if_neg hoff, if_neg Bool.false_ne_true]
      split
      next w hw => rw [if_neg (ha.resolve_left (by simp [hw]))]
      · rfl
    rw [hlive, eq_false_of_ne_true hoff]
    cases s.dev.fatal <;> rfl

/-! ### Access sizes -/

/-- An access that is neither 8 bytes nor 4 bytes on their boundary is none that a register takes (R511). -/
theorem RegW.of_eq_none {a n : Nat} (v : Nat) (h8 : ¬(n = 8 ∧ a % 8 = 0)) (h4 : ¬(n = 4 ∧ a % 4 = 0)) : RegW.of a n v = none := by
  have h4' : ¬(n = 4 ∧ a % 8 = 0) := by omega
  simp [RegW.of, h8, h4, h4']

/-- An aligned 8-byte access writes both halves. -/
theorem RegW.of_qword {a : Nat} (v : BitVec 64) (ha : a % 8 = 0) : RegW.of a 8 v.toNat = some ⟨v.toNat, true, true⟩ := by
  simp [RegW.of, ha, Nat.mod_eq_of_lt v.isLt]

/-- A write of both halves replaces the register's value. -/
theorem RegW.over_qword (v : BitVec 64) (old : Nat) : RegW.over ⟨v.toNat, true, true⟩ old = v.toNat := by
  simp only [RegW.over, if_true]; omega

/-- An access to BAR0 that no register takes is counted, and does nothing else (R511). -/
theorem bar0Write_bad {a n v : Nat} {s : State} (h : RegW.of a n v = none ∨ regRead s.mc s.dev (a / 8 * 8) = none) :
    bar0Write a n v s = withDev s (badBar0 s.dev) := by
  unfold bar0Write
  split
  · rfl
  next w hw =>
    have hread := h.resolve_left (by rw [hw]; exact Option.some_ne_none w)
    dsimp only
    rw [hread]
    rfl

/-- A write to BAR0 that reaches no register, while the device works (R511). -/
theorem exec_write_bad {a : BitVec 24} {n : Nat} (v : BitVec 64) {s : State} (hl : s.live = true)
    (h : RegW.of a.toNat n v.toNat = none ∨ regRead s.mc s.dev (a.toNat / 8 * 8) = none ∧ a.toNat / 8 * 8 ≠ 0xE00040) :
    exec (.registerWrite false a n v) s = .next (withDev s (badBar0 s.dev)) := by
  rw [exec_registerWrite_bar0 v s (h.imp_right And.right), if_pos hl, bar0Write_bad (h.imp_right And.left)]

/-! ### The pages of the channels in BAR0 -/

/-- An offset of the page of a channel reads the channel's register (R512). -/
theorem regRead_chanPage (mc : Mc) (d : Dev) {c o : Nat} (hc : c < 64) (ho : o < 0x1000) (h8 : o % 8 = 0) :
    regRead mc d (0x100000 + 0x1000 * c + o) = chanReg d c o := by
  have hpage : (0x100000 + 0x1000 * c + o - 0x100000) / 0x1000 = c := by omega
  have hoff : (0x100000 + 0x1000 * c + o) % 0x1000 = o := by omega
  unfold regRead
  rw [if_neg (by omega), if_neg (by omega), if_neg (by omega), if_pos (by simp; omega), hpage, hoff]

/-- An offset of the page of a channel writes the channel's register (R385). -/
theorem devWrite_chanPage (mc : Mc) (w : RegW) (d : Dev) {c o : Nat} (hc : c < 64) (ho : o < 0x1000) :
    devWrite mc (0x100000 + 0x1000 * c + o) w d = chanWrite c o w d := by
  have hpage : (0x100000 + 0x1000 * c + o - 0x100000) / 0x1000 = c := by omega
  have hoff : (0x100000 + 0x1000 * c + o) % 0x1000 = o := by omega
  unfold devWrite
  rw [if_neg (by omega), if_neg (by simp; omega), if_pos (by simp; omega), hpage, hoff]

/-- An 8-byte write to a register of a channel's page (R385). -/
theorem exec_write_chanPage (c : Fin 64) {o : Nat} (v : BitVec 64) (s : State) (ho : o < 0x1000) (h8 : o % 8 = 0)
    (hr : (chanReg s.dev c.val o).isSome = true) :
    exec (.registerWrite false (BitVec.ofNat 24 (0x100000 + o + 0x1000 * c.val)) 8 v) s =
      onDev (chanWrite c.val o ⟨v.toNat, true, true⟩) s := by
  have hc := c.isLt
  have ha : (BitVec.ofNat 24 (0x100000 + o + 0x1000 * c.val)).toNat = 0x100000 + 0x1000 * c.val + o := by
    rw [BitVec.toNat_ofNat]; omega
  have hround : (0x100000 + 0x1000 * c.val + o) / 8 * 8 = 0x100000 + 0x1000 * c.val + o := by omega
  have hread : (regRead s.mc s.dev (0x100000 + 0x1000 * c.val + o)).isNone = false := by
    rw [regRead_chanPage _ _ hc ho h8]
    simpa using hr
  have hwrite : bar0Write (0x100000 + 0x1000 * c.val + o) 8 v.toNat s =
      withDev s (chanWrite c.val o ⟨v.toNat, true, true⟩ s.dev) := by
    unfold bar0Write
    rw [RegW.of_qword v (by omega)]
    dsimp only
    rw [hround, hread, if_neg Bool.false_ne_true, if_neg (by omega), if_neg (by simp; omega), if_neg (by simp; omega),
      devWrite_chanPage _ _ _ hc ho]
  rw [exec_registerWrite_bar0 v s (.inr (by omega)), ha, hwrite, onDev]
  cases s.live <;> rfl

/-- CHN_CONTROL (R382, R385). -/
theorem exec_write_chnControl (c : Fin 64) (v : BitVec 64) (s : State) :
    exec (.registerWrite false (BitVec.ofNat 24 (0x100010 + 0x1000 * c.val)) 8 v) s = onDev (chanControl c.val v.toNat) s :=
  exec_write_chanPage c (o := 0x010) v s (by omega) (by omega) rfl

/-- CHN_STATUS: a 1 written clears its bit (R6, R385). -/
theorem exec_write_chnStatus (c : Fin 64) (v : BitVec 64) (s : State) :
    exec (.registerWrite false (BitVec.ofNat 24 (0x100038 + 0x1000 * c.val)) 8 v) s =
      onDev (fun d => d.updChan c.val fun ch => { ch with status := ch.status &&& ~~~(BitVec.ofNat 64 (v.toNat % 16)) }) s :=
  exec_write_chanPage c (o := 0x038) v s (by omega) (by omega) rfl

/-- Two changes that agree on the channel as it stands are one. -/
theorem Dev.updChan_congr {d : Dev} {c : Nat} {f g : Chan → Chan} (h : f (d.chan c) = g (d.chan c)) :
    d.updChan c f = d.updChan c g := by
  rw [updChan, h]; rfl

/-- CHN_SQ_BASE takes a write in DISABLED and DETACHED alone (R385, R410). -/
theorem chanWrite_sqBase (c : Nat) (v : BitVec 64) (d : Dev) :
    chanWrite c 0x008 ⟨v.toNat, true, true⟩ d = d.updChan c fun ch =>
      if ch.state = .disabled ∨ ch.state = .detached then { ch with sqBase := BitVec.ofNat 64 (v.toNat / 4096 * 4096) }
      else ch.refuse := by
  change d.updChan c (fun ch => ch.gate _ fun ch => { ch with sqBase := addrField (RegW.over _ _) 12 }) = _
  refine Dev.updChan_congr ?_
  simp [RegW.over_qword, Chan.gate, addrField]

/-- CHN_SQ_BASE (R385). -/
theorem exec_write_chnSqBase (c : Fin 64) (v : BitVec 64) (s : State) :
    exec (.registerWrite false (BitVec.ofNat 24 (0x100008 + 0x1000 * c.val)) 8 v) s =
      onDev (chanWrite c.val 0x008 ⟨v.toNat, true, true⟩) s :=
  exec_write_chanPage c (o := 0x008) v s (by omega) (by omega) rfl

/-! ### The pages of the channels in BAR2 -/

/-- A write that reaches a doorbell register rings it with 4 bytes, and is bad with any other number of them (R350, R513). -/
theorem bar2Write_doorbell {a n c o v : Nat} {d : Dev} (hc : c < 64) (ha : a = 0x1000 * c + o) (ho : o < 0x20) (h8 : o % 8 = 0) :
    bar2Write a n v d = if n = 4 then doorbell c o (BitVec.ofNat 32 v) d else d.updChan c fun ch => ch.event 2 := by
  have hpage : a / 0x1000 = c := by omega
  have hoff : a % 0x1000 = o := by omega
  unfold bar2Write
  dsimp only
  rw [hpage, hoff, if_neg (by omega), if_pos (by simp only [Bool.and_eq_true, decide_eq_true_eq]; omega)]
  simp only [h8, decide_true, Bool.and_true, decide_eq_true_eq]

/-- A doorbell written with 4 bytes is rung while the device works. -/
theorem exec_write_doorbell (c : Fin 64) {o : Nat} (v : BitVec 64) (s : State) (ho : o < 0x20) (h8 : o % 8 = 0) :
    exec (.registerWrite true (BitVec.ofNat 24 (0x1000 * c.val + o)) 4 v) s = onDev (doorbell c.val o (v.setWidth 32)) s := by
  have hc := c.isLt
  rw [exec_registerWrite_bar2, BitVec.toNat_ofNat]
  exact congrArg (onDev · s) (funext fun d => bar2Write_doorbell hc (by omega) ho h8)

/-- A doorbell written with any other number of bytes is counted as bad, and does nothing else. -/
theorem exec_write_doorbell_bad (c : Fin 64) {o n : Nat} (v : BitVec 64) (s : State) (ho : o < 0x20) (h8 : o % 8 = 0) (hn : n ≠ 4) :
    exec (.registerWrite true (BitVec.ofNat 24 (0x1000 * c.val + o)) n v) s =
      onDev (fun d => d.updChan c.val fun ch => ch.event 2) s := by
  have hc := c.isLt
  rw [exec_registerWrite_bar2, BitVec.toNat_ofNat]
  exact congrArg (onDev · s) (funext fun d => (bar2Write_doorbell hc (by omega) ho h8).trans (if_neg hn))

/-! ### The launch constant blocks -/

/-- A write to the launch constant blocks of a privileged channel (R370, R513). -/
theorem bar2Write_const {a n c k v : Nat} {d : Dev} (hc : c < 4) (ha : a = 0x1000 * c + 0x800 + k) (hk : k < 0x800) :
    bar2Write a n v d = constWrite c (0x800 + k) (toLe n v) d := by
  have hpage : a / 0x1000 = c := by omega
  have hoff : a % 0x1000 = 0x800 + k := by omega
  unfold bar2Write
  dsimp only
  rw [hpage, hoff, if_neg (by omega), if_neg (by simp; omega), if_pos (by simp; omega)]

/-- Bytes that fall inside the launch constant blocks are stored there. -/
theorem constWrite_inside {c k : Nat} {b : Bytes} (d : Dev) (h : k + b.length ≤ 0x800) :
    constWrite c (0x800 + k) b d = d.updChan c fun ch => { ch with consts := Tbl.setRange 0 k b ch.consts } := by
  rw [constWrite, Nat.add_sub_cancel_left, List.take_of_length_le (by omega)]

theorem length_toLe (n v : Nat) : (toLe n v).length = n := by
  induction n generalizing v with
  | zero => rfl
  | succ n ih => simp [toLe, ih]

/-- Byte `i` of a number, lowest first (R5). -/
theorem getD_toLe {n i : Nat} (v : Nat) (h : i < n) (x : Byte) : (toLe n v).getD i x = BitVec.ofNat 8 (v / 256 ^ i) := by
  induction n generalizing v i with
  | zero => omega
  | succ n ih =>
    cases i with
    | zero => simp [toLe]
    | succ i =>
      rw [toLe, List.getD_cons_succ, ih _ (by omega), Nat.div_div_eq_div_mul, Nat.pow_succ']

/-- What a key reads after a range is written. -/
theorem Tbl.get_setRange {α : Type} [DecidableEq α] (d : α) (j k : Nat) (vs : List α) (t : Tbl α) :
    Tbl.get d j (Tbl.setRange d k vs t) = if k ≤ j ∧ j < k + vs.length then vs.getD (j - k) d else Tbl.get d j t := by
  induction vs generalizing k t with
  | nil => rw [if_neg (by simp)]; rfl
  | cons v vs ih =>
    rw [Tbl.setRange, ih (k + 1), List.length_cons]
    rcases Nat.lt_trichotomy j k with h | rfl | h
    · rw [if_neg (by omega), if_neg (by omega), Tbl.get_set_other d (by omega)]
    · rw [if_neg (by omega), if_pos (by omega), Tbl.get_set_self, Nat.sub_self]; rfl
    · have hs : j - k = j - (k + 1) + 1 := by omega
      rw [Tbl.get_set_other d (by omega), hs, List.getD_cons_succ]
      congr 1
      simp; omega

/-- What a byte reads as after the bytes of a number are stored: the number's own byte in their range, the old one outside. -/
theorem get_setRange_toLe (j k n v : Nat) (t : Tbl Byte) :
    Tbl.get 0 j (Tbl.setRange 0 k (toLe n v) t) =
      if k ≤ j ∧ j < k + n then BitVec.ofNat 8 (v / 256 ^ (j - k)) else Tbl.get 0 j t := by
  rw [Tbl.get_setRange, length_toLe]
  split
  · exact getD_toLe v (by omega) 0
  · rfl

/-- An aligned or unaligned write into the launch constant blocks stores its bytes. -/
theorem exec_write_const (c : Fin 4) {k n : Nat} (v : BitVec 64) (s : State) (hkn : k + n ≤ 0x800) (hk : k < 0x800) :
    exec (.registerWrite true (BitVec.ofNat 24 (0x1000 * c.val + 0x800 + k)) n v) s =
      onDev (fun d => d.updChan c.val fun ch => { ch with consts := Tbl.setRange 0 k (toLe n v.toNat) ch.consts }) s := by
  have hc := c.isLt
  rw [exec_registerWrite_bar2, BitVec.toNat_ofNat]
  exact congrArg (onDev · s) (funext fun d =>
    (bar2Write_const hc (by omega) hk).trans (constWrite_inside d (by rw [length_toLe]; exact hkn)))

/-! ### The PWR block -/

/-- An 8-byte write to a register of the PWR block is the host's write to the management controller (R508). -/
theorem exec_write_pwr {a : BitVec 24} {o : Nat} (v : BitVec 64) (s : State) (ha : a.toNat = 0x400000 + o) (ho : o < 0x1000)
    (h8 : o % 8 = 0) (hr : (pwrReg s.mc o).isSome = true) :
    exec (.registerWrite false a 8 v) s = hostToMc (pwrWrite o ⟨v.toNat, true, true⟩) s := by
  have hround : a.toNat / 8 * 8 = 0x400000 + o := by omega
  have hread : (regRead s.mc s.dev (0x400000 + o)).isNone = false := by
    unfold regRead
    rw [if_neg (by omega), if_neg (by omega), if_neg (by omega), if_neg (by simp; omega), if_neg (by omega),
      if_neg (by simp; omega), if_neg (by simp; omega), if_pos (by simp; omega), Nat.add_sub_cancel_left]
    simpa using hr
  have hwrite : bar0Write a.toNat 8 v.toNat s = withMc s (pwrWrite o ⟨v.toNat, true, true⟩ s.mc) := by
    unfold bar0Write
    rw [RegW.of_qword v (by omega)]
    dsimp only
    rw [hround, hread, if_neg Bool.false_ne_true, if_neg (by omega), if_pos (by simp; omega), Nat.add_sub_cancel_left]
  rw [exec_registerWrite_bar0 v s (.inr (by omega)), hwrite, hostToMc]
  cases s.live <;> rfl

end Sys2Proof.Machine

namespace Sys2Proof.Proofs
open Sys2Proof.Machine Sys2Proof.Safety

/-- Settles O37, clause by clause from what a write to each kind of register does. -/
theorem registerWrites : Obligations.RegisterWrites := by
  unfold Obligations.RegisterWrites
  refine ⟨fun a n v s hl h => ?_, fun c v s hl => ?_, fun c v s hl => ?_, fun c v s => ?_, fun c r n v s hl hn => ?_,
    fun c k n v s hl hkn _ hk => ?_, fun v s => ⟨?_, ?_⟩, fun c s => ?_⟩
  · exact exec_write_bad v hl (h.imp_left fun ⟨h8, h4⟩ => RegW.of_eq_none _ h8 h4)
  · rw [exec_write_chnStatus, onDev_live hl]
  · rw [exec_write_chnSqBase, onDev_live hl, chanWrite_sqBase]
    rfl
  · exact exec_write_doorbell c (o := 0) v s (by omega) (by omega)
  · have hr := r.isLt
    rw [exec_write_doorbell_bad c v s (by omega) (by omega) hn, onDev_live hl]
    rfl
  · rw [exec_write_const c v s hkn hk, onDev_live hl]
    refine ⟨_, rfl, rfl, fun j hj => Dev.chan_updChan_other _ hj _, ?_, fun i => ?_⟩
    · dsimp only; rw [Dev.chan_updChan]
    · dsimp only; rw [Dev.chan_updChan, get_setRange_toLe]
  · exact exec_write_pwr (o := 0x08) v s rfl (by omega) (by omega) rfl
  · exact exec_write_pwr (o := 0x10) v s rfl (by omega) (by omega) rfl
  · exact ⟨exec_write_chnControl c 1 s, exec_write_chnControl c 2 s, exec_write_chnControl c 4 s, exec_write_chnControl c 8 s,
      exec_write_chnControl c 16 s⟩

end Sys2Proof.Proofs
end

section
/-! SUPPORT. What the steps of a core on a record of its own do: freeing, admission, rounds, drains and leaf-key blocks. -/
namespace Sys2Proof.Machine
open Sys2Proof.Safety

/-! ### A core's step -/

theorem Dev.updCore_congr {d : Dev} {n : Nat} {f g : Core → Core} (h : f (d.core n) = g (d.core n)) : d.updCore n f = d.updCore n g := by
  rw [updCore, updCore, h]

/-- A step that meets no physical fault has its effect (R35, R416). -/
theorem guarded_clean (d : Dev) (n : Nat) (rid : Option Nat) (f : Dev → Dev) : guarded d n .clean rid f = f d := rfl

/-- Work that, on the core at hand, is a change of that core alone is its step. -/
theorem onDev_coreStep {f : Dev → Dev} {g : Core → Core} {n : Nat} {s : State} (hl : s.live = true)
    (h : f s.dev = s.dev.updCore n g) : onDev f s = coreStep s n g := by
  rw [onDev_live hl, h]; rfl

/-! ### A context freed, a record admitted, a round issued -/

/-- The row of the oldest finished context is freed (R22). -/
theorem contextFree_of_done {n : Nat} {d : Dev} {x : Ctx} (hs : d.stopped n = false)
    (hx : (d.core n).ctxs.find? (d.core n).done = some x) :
    contextFree n d = d.updCore n fun c => { c with ctxs := c.ctxs.filter fun y => y.row ≠ x.row } := by
  rw [contextFree, hs, if_neg Bool.false_ne_true]
  exact Dev.updCore_congr (by rw [hx])

/-- A core that is not the chain's first admits its next record, and tests no point (R149, R254). -/
theorem admitRecord_of_later {n pid : Nat} {p : Plot} {d : Dev} {x : Ctx} {pr : Pair} (hs : d.stopped n = false)
    (hp : d.plotOf n = some (pid, p)) (hx : (d.core n).ctxs.find? (fun y => y.hasBins && !y.admitted) = some x)
    (hpr : (d.core n).pairOf x = some pr) (hf : p.isFirst n = false) (hm : p.lay.chainMode ≠ 0 ∨ x.inSum.isSome = true)
    (hh : (d.core n).halvesUsed < 2) :
    admitRecord n d = d.updCore n fun c => c.putCtx x { x with admitted := true } pr.rounds := by
  have hsum : (!p.isFirst n && p.lay.chainMode == 0 && x.inSum.isNone) = false := by
    rcases hm with hm | hm <;> simp [hm]
  simp only [admitRecord, hp, hs, if_neg Bool.false_ne_true]
  refine Dev.updCore_congr ?_
  simp only [hx, hpr]
  rw [hsum, if_neg Bool.false_ne_true, if_neg (by simp [hh]), hf]
  rfl

/-- The next round of the oldest record that has one descends, where its nodes pass their checks (R147 to R155). -/
theorem roundIssue_of_descends {n : Nat} {d : Dev} {x : Ctx} {pr : Pair} {ls : List Lane} (hs : d.stopped n = false)
    (hx : (d.core n).ctxs.find? (fun y => y.admitted && !y.skips && ((d.core n).pairOf y).any fun pr => y.issued < pr.rounds) = some x)
    (hpr : (d.core n).pairOf x = some pr)
    (hls : descendAll pr.info.fold (strideOf pr.info.valueFmt pr.info.outputs) pr.slice x.bins .clean
      (roundSlots pr.info.fold pr.slice.slots x.issued) 0 = .ok ls) :
    roundIssue n .clean d = d.updCore n fun c => c.countTransfer.updCtx x.row fun y =>
      { y with issued := y.issued + 1, rounds := y.rounds ++ [⟨ls, false⟩] } := by
  simp only [roundIssue, hs, if_neg Bool.false_ne_true, hx, hpr, Upset.eccOnly, guarded_clean, hls]

/-! ### A round drained -/

/-- A leaf stage that meets no physical fault goes on where the leaf checks of its round pass (R156). -/
theorem leafStage_of_passes {pr : Pair} {r : Round} (n : Nat) (x : Ctx) (after : Dev → Dev) (d : Dev)
    (h : leafChecks (strideOf pr.info.valueFmt pr.info.outputs) pr.slice .clean r.lanes 0 = none) :
    leafStage pr n .clean r x after d = after d := by
  simp only [leafStage, Upset.eccOnly, guarded_clean, h]

/-- A leaf check that fails is a fault of descent, and nothing else (R157). -/
theorem leafStage_of_fails {pr : Pair} {r : Round} {f : DescFault} (n : Nat) (x : Ctx) (after : Dev → Dev) (d : Dev)
    (h : leafChecks (strideOf pr.info.valueFmt pr.info.outputs) pr.slice .clean r.lanes 0 = some f) :
    leafStage pr n .clean r x after d = descentFault d n x.pair f x.recordId := by
  simp only [leafStage, Upset.eccOnly, guarded_clean, h]

section
variable {n pid : Nat} {p : Plot} {d : Dev} {x : Ctx} {pr : Pair} {r : Round} {rest : List Round}
  (hs : d.stopped n = false) (hp : d.plotOf n = some (pid, p))
  (hx : (d.core n).ctxs.find? (fun y => !y.rounds.isEmpty) = some x) (hpr : (d.core n).pairOf x = some pr) (hr : x.rounds = r :: rest)
include hs hp hx hpr hr

/-- The oldest round in flight comes to its leaf stage and is added, when it was not squashed (R160, R165). -/
theorem roundDrain_of_kept (hk : r.squashed = false) :
    roundDrain n .clean d =
      leafStage pr n .clean r x (fun d => d.updCore n (drainRound pr (p.isFirst n) (p.isTail n) .clean r x)) d := by
  simp [roundDrain, hs, hp, hx, hpr, hr, hk]

/-- A squashed round leaves the pipeline, by its leaf stage where it stood at the gate (R251). -/
theorem roundDrain_of_squashed (hk : r.squashed = true) :
    roundDrain n .clean d =
      if Config.atGate d.free then
        leafStage pr n .clean r x (fun d => d.updCore n (drainSquashed pr x)) { d with free := d.free + 1 }
      else ({ d with free := d.free + 1 } : Dev).updCore n (drainSquashed pr x) := by
  simp [roundDrain, hs, hp, hx, hpr, hr, hk]

end

@[simp] theorem Core.work_acc (c : Core) (k : Nat) : (c.work k).acc = c.acc := by unfold work; split <;> rfl

@[simp] theorem Core.putCtx_acc (c : Core) (x y : Ctx) (k : Nat) : (c.putCtx x y k).acc = c.acc := by
  unfold putCtx noteOver; split <;> rfl

/-- A squashed round adds nothing to the accumulators (R250). -/
theorem drainSquashed_acc (pr : Pair) (x : Ctx) (c : Core) : (drainSquashed pr x c).acc = c.acc := by
  simp [drainSquashed, Core.countRound]

/-! ### Leaf keys -/

/-- The core after the table engines take the leaf-key block of a record (R163, R164, R169). -/
def Core.giveKeys (x : Ctx) (c : Core) : Core :=
  let r := { c.regs with descKeys := c.regs.descKeys + BitVec.ofNat 64 (field (keyBlockBytes x) 0xC 2) }
  { c.updCtx x.row fun x => { x with keysSent := true } with
    regs := r, keyBlocks := c.keyBlocks ++ [⟨x.src, x.q, keyBlockBytes x⟩] }

/-- The table engines take the block of the oldest record whose keys are not sent, once its rounds are over and its incoming sum
is known (R163, R164). -/
theorem leafKeyBlock_of_over {n pid : Nat} {p : Plot} {d : Dev} {x : Ctx} {pr : Pair} (hs : d.stopped n = false)
    (hp : d.plotOf n = some (pid, p)) (hx : (d.core n).ctxs.find? (fun y => y.hasBins && !y.keysSent) = some x)
    (hpr : (d.core n).pairOf x = some pr) (ho : x.over pr.rounds = true) (hf : p.isFirst n = true ∨ x.inSum.isSome = true) :
    leafKeyBlock n d = d.updCore n (Core.giveKeys x) := by
  have hready : (((d.core n).pairOf x).any (fun pr => x.over pr.rounds) && (p.isFirst n || x.inSum.isSome)) = true := by
    simp [hpr, ho, hf]
  simp only [leafKeyBlock, hp, hs, if_neg Bool.false_ne_true]
  refine Dev.updCore_congr ?_
  simp only [hx, if_pos hready]
  rfl

end Sys2Proof.Machine

namespace Sys2Proof.Proofs
open Sys2Proof.Machine Sys2Proof.Safety

/-- Settles O49, a command at a time from what its step does; a squashed round takes one of two ways, by the free value at its gate. -/
theorem recordsDescend : Obligations.RecordsDescend := by
  unfold Obligations.RecordsDescend
  refine ⟨fun n x s ⟨hl, hs⟩ hx => ?free, fun n pid p x pr s ⟨⟨hl, hs⟩, hp, _⟩ hx hpr hf hm hh => ?taken,
    fun n x pr ls s ⟨hl, hs⟩ hx hpr hls => ?issue,
    fun n pid p x pr r rest s ⟨⟨hl, hs⟩, hp, _⟩ hx hpr hr => ⟨fun hk hc => ?passed, fun f hk hc => ?failed, fun hk hc => ?added,
      fun f hk hc => ?fault, drainSquashed_acc pr x _⟩,
    fun n pid p x pr s ⟨⟨hl, hs⟩, hp, _⟩ hx hpr ho hf => ?keys⟩
  case free => exact onDev_coreStep hl (contextFree_of_done hs hx)
  case taken => exact onDev_coreStep hl (admitRecord_of_later hs hp hx hpr hf hm hh)
  case issue => exact onDev_coreStep hl (roundIssue_of_descends hs hx hpr hls)
  case passed =>
    refine (onDev_live hl).trans ?_
    rw [roundDrain_of_squashed hs hp hx hpr hr hk, leafStage_of_passes _ _ _ _ hc, ite_self]
  case failed =>
    refine (onDev_live hl).trans ?_
    rw [roundDrain_of_squashed hs hp hx hpr hr hk, leafStage_of_fails _ _ _ _ hc]
  case added =>
    refine onDev_coreStep hl ?_
    rw [roundDrain_of_kept hs hp hx hpr hr hk, leafStage_of_passes _ _ _ _ hc]
  case fault =>
    refine (onDev_live hl).trans ?_
    rw [roundDrain_of_kept hs hp hx hpr hr hk, leafStage_of_fails _ _ _ _ hc]
  case keys =>
    refine ⟨_, onDev_coreStep hl (leafKeyBlock_of_over hs hp hx hpr ho hf), rfl, fun m hm => Dev.core_updCore_other _ hm _, ?_, ?_⟩ <;>
      rw [Dev.core_updCore] <;> rfl

end Sys2Proof.Proofs
end

section
/-! SUPPORT. What row accesses and entity look-ups leave alone, and what a sieve head does: taking a record, looking its entities up,
binning it. -/
namespace Sys2Proof.Machine
open Sys2Proof.Safety

/-! ### Row accesses -/

/-- Only what row accesses touch differs: row caches, engine and error counters, free values, tags, links and output. -/
def RowOnly (d e : Dev) : Prop :=
  e = { d with caches := e.caches, tabs := e.tabs, err := e.err, free := e.free, nextTag := e.nextTag, ports := e.ports, out := e.out }

theorem RowOnly.refl (d : Dev) : RowOnly d d := rfl

theorem RowOnly.trans {d e f : Dev} (h : RowOnly d e) (k : RowOnly e f) : RowOnly d f := by
  unfold RowOnly at *; rw [k, h]

theorem LinkOnly.rowOnly {d e : Dev} (h : LinkOnly d e) : RowOnly d e := by
  unfold LinkOnly RowOnly at *; rw [h]

theorem RowOnly.foldl {α : Type} {f : Dev → α → Dev} (h : ∀ d x, RowOnly d (f d x)) (xs : List α) (d : Dev) :
    RowOnly d (xs.foldl f d) := by
  induction xs generalizing d with
  | nil => exact .refl d
  | cons x xs ih => exact (h d x).trans (ih _)

/-- What an engine reads at an address depends on nothing that a row access touches. -/
theorem RowOnly.readG_eq {d e : Dev} (h : RowOnly d e) (env : Env) (a n : Nat) : e.readG env a n = d.readG env a n := by
  rw [h]; rfl

/-- A row put into its cache changes the caches alone (R319). -/
theorem Dev.cacheRow_frame (d : Dev) (a : Nat) (b : Bytes) : d.cacheRow a b = { d with caches := (d.cacheRow a b).caches } := by
  unfold cacheRow; split <;> rfl

theorem cacheRow_rowOnly (d : Dev) (a : Nat) (b : Bytes) : RowOnly d (d.cacheRow a b) := by
  rw [d.cacheRow_frame a b]; rfl

/-- Reads asked of another device change its tags, the links and the output alone (R469). -/
theorem askRead_rowOnly (d : Dev) (a n : Nat) : RowOnly d (d.askRead a n) := by
  unfold Dev.askRead
  split
  · rfl
  · exact .foldl (fun d _ => .trans (e := { d with nextTag := (d.nextTag + 1) % 2 ^ 31 }) rfl (sendUnit_frame ..).rowOnly) _ d

theorem rowMiss_rowOnly (d : Dev) (env : Env) (a n : Nat) : RowOnly d (d.rowMiss env a n).1 := by
  unfold Dev.rowMiss; dsimp only; split <;> rfl

/-- A row access by its home engine, over a link, from the cache, or from HBM (R318, R319, R419). -/
theorem rowRead_rowOnly (d : Dev) (env : Env) (a n : Nat) : RowOnly d (d.rowRead env a n).1 := by
  unfold Dev.rowRead
  split
  case isTrue =>
    split
    · exact askRead_rowOnly d a n
    · exact (askRead_rowOnly d a n).trans rfl
  case isFalse =>
    split
    · exact rowMiss_rowOnly d env a n
    · dsimp only
      split
      · exact RowOnly.trans (e := { d with free := d.free + 1 }) rfl (rowMiss_rowOnly ..)
      · split
        · exact RowOnly.trans (e := ({ d with free := d.free + 1 } : Dev).dropLine a) rfl (rowMiss_rowOnly ..)
        · rfl

/-! ### Entity look-ups -/

theorem probeSlot_rowOnly (d : Dev) (env : Env) (e : Entity) (k a : Nat) : RowOnly d (probeSlot d env e k a).1 := by
  have hread := rowRead_rowOnly d env a (8 + e.rowBytes)
  unfold probeSlot
  split
  next hr => rwa [hr] at hread
  next hr =>
    rw [hr] at hread
    split
    · exact hread.trans (cacheRow_rowOnly ..)
    · split <;> exact hread

theorem probe_rowOnly (env : Env) (e : Entity) (k fuel i : Nat) (d : Dev) : RowOnly d (probe env e k fuel i d).1 := by
  induction fuel generalizing i d with
  | zero => rfl
  | succ fuel ih =>
    have hslot := probeSlot_rowOnly d env e k (e.slotAddr i)
    unfold probe
    split
    next hp => rwa [hp] at hslot
    next hp => rw [hp] at hslot; exact hslot.trans (ih _ _)

/-- A look-up is a run of row accesses, and nothing else (R92). -/
theorem lookUp_rowOnly (d : Dev) (env : Env) (e : Entity) (k : Nat) : RowOnly d (lookUp d env e k).1 := by
  unfold lookUp
  split
  · rfl
  · exact probe_rowOnly ..

/-- The key of all ones finds no row, and costs no access (R92). -/
theorem lookUp_allOnes (d : Dev) (env : Env) (e : Entity) : lookUp d env e (2 ^ 64 - 1) = (d, .miss false) := if_pos rfl

/-- A hit gives the head's work its row (R93). -/
theorem doLookUp_of_hit {d : Dev} {env : Env} {e : Entity} {k : Nat} {b : Bytes} (w : HeadWork) (h : (lookUp d env e k).2 = .hit b) :
    doLookUp d env e k w = ((lookUp d env e k).1, w.withRow b 0, none) := by
  have hpair : lookUp d env e k = ((lookUp d env e k).1, .hit b) := Prod.ext rfl h
  rw [doLookUp, hpair]

/-- A miss gives it the default row, with the miss flags, where that row can be read (R93). -/
theorem doLookUp_of_miss {d : Dev} {env : Env} {e : Entity} {k : Nat} {b : Bytes} {ex : Bool} (w : HeadWork)
    (h : (lookUp d env e k).2 = .miss ex) (hb : d.readG env e.defaultRow e.rowBytes = .ok b) :
    doLookUp d env e k w = ((lookUp d env e k).1.askRead e.defaultRow e.rowBytes,
      w.withRow b (if ex then sfMiss ||| sfProbe else sfMiss), none) := by
  have hpair : lookUp d env e k = ((lookUp d env e k).1, .miss ex) := Prod.ext rfl h
  rw [← (lookUp_rowOnly d env e k).readG_eq] at hb
  rw [doLookUp, hpair]
  simp only [hb]

/-- The look-up that the first of a head's works needs puts the work as the look-up leaves it in its place, and leaves every other
core, memory, plots and channels alone (R92, R93). -/
theorem exec_entityLookup_first {n : Fin 256} {env : Env} {base k : Nat} {tb : Bytes} {w w' : HeadWork} {rest : List HeadWork}
    {e : Entity} {s : State} {d' : Dev} (hg : coreGoes s n.val) (ht : (s.dev.core n.val).sieveActive = some (base, tb))
    (hw : (s.dev.core n.val).headWork = w :: rest) (hc : codeMet env = none) (hn : w.needs (parseSieve tb) = some (e, k))
    (hd : doLookUp s.dev env e k w = (d', w', none)) (hf : RowOnly s.dev d') :
    ∃ t, exec (.entityLookup n env) s = .next t ∧ (t.dev.core n.val).headWork = w' :: rest ∧
      (∀ m, m ≠ n.val → t.dev.core m = s.dev.core m) ∧ t.dev.mem = s.dev.mem ∧ t.dev.plots = s.dev.plots ∧
      t.dev.chans = s.dev.chans ∧ t.mc = s.mc ∧ t.pending = s.pending := by
  obtain ⟨hl, hs⟩ := hg
  have hpending : lookPending s.dev n.val = true := by simp [lookPending, hs, ht, hw, hn]
  have hcores : ∀ m, d'.core m = s.dev.core m := fun m => by rw [hf]; rfl
  have hstep : entityLookup n.val env s.dev =
      d'.updCore n.val fun c => { c with headWork := replaceFirst (fun x => (x.needs (parseSieve tb)).isSome) w' c.headWork } := by
    simp [entityLookup, hs, ht, hw, hn, hd]
  have hexec : exec (.entityLookup n env) s = .next (withDev s (entityLookup n.val env s.dev)) := by
    refine (onDev_live hl).trans ?_
    rw [hpending, if_pos rfl, tabServe_clean hc]
  rw [hstep] at hexec
  refine ⟨_, hexec, ?_, fun m hm => ?_, ?_, ?_, ?_, rfl, rfl⟩
  · simp [hcores, hw, replaceFirst, hn]
  · rw [Dev.core_updCore_other _ hm, hcores]
  all_goals rw [hf]; rfl

/-! ### A record taken -/

/-- A fold that at each element keeps what it has or takes the element ends with one of the elements, when it ends with any. -/
theorem mem_of_foldl_eq_some {α : Type} {f : Option α → α → Option α} (hf : ∀ m a, f m a = m ∨ f m a = some a)
    {l : List α} {b : α} (h : l.foldl f none = some b) : b ∈ l := by
  suffices ∀ m, l.foldl f m = some b → m = some b ∨ b ∈ l from (this none h).resolve_left nofun
  clear h
  induction l with
  | nil => exact fun m h => .inl h
  | cons a l ih =>
    intro m h
    rcases ih (f m a) h with hm | hb
    · rcases hf m a with hk | hk
      · exact .inl (hk.symm.trans hm)
      · exact .inr (List.mem_cons.mpr (.inl (Option.some.inj (hm.symm.trans hk))))
    · exact .inr (List.mem_cons_of_mem a hb)

/-- The row chosen for a context can take one (R182). -/
theorem Core.rowFree_of_freeRow {c : Core} {row : Nat} (h : c.freeRow = some row) : c.rowFree row = true := by
  refine (List.mem_filter.mp (mem_of_foldl_eq_some ?_ h)).2
  rintro (_ | b) a
  · exact .inr rfl
  · exact (Nat.le_total b a).imp (fun h => congrArg some (Nat.min_eq_left h)) (fun h => congrArg some (Nat.min_eq_right h))

/-- A row that can take a context is in the memory, outside every tile's rows, and held by no context (R181, R182). -/
theorem Core.rowFree_spec {c : Core} {row : Nat} (h : c.rowFree row = true) :
    row < 4096 ∧ (∀ x ∈ c.ctxs, x.row ≠ row) ∧
    ∀ t ∈ c.tiles, row < bits t.word 8 12 ∨ bits t.word 8 12 + bits t.word 20 13 ≤ row := by
  simp only [rowFree, Bool.and_eq_true, decide_eq_true_eq, Bool.not_eq_true', List.any_eq_false] at h
  obtain ⟨⟨hlt, hres⟩, hctx⟩ := h
  refine ⟨hlt, fun x hx => by simpa using hctx x hx, fun t ht => ?_⟩
  have hrange : ¬(bits t.word 8 12 ≤ row ∧ row < bits t.word 8 12 + bits t.word 20 13) := by
    intro hin
    have hword : (t.rowRanges.any fun p => p.1 ≤ row && row < p.1 + p.2) = true :=
      List.any_eq_true.mpr ⟨_, List.mem_cons_self, by simpa using hin⟩
    exact ne_true_of_eq_false hres (List.any_eq_true.mpr ⟨t, ht, hword⟩)
  omega

/-- A head takes the record at the front of its input into a free row (R20, R21, R90). -/
theorem headTake_of_record {n base row : Nat} {r : Rec} {rest : List HeadIn} {tb : Bytes} {d : Dev} (hs : d.stopped n = false)
    (hq : (d.core n).headQueue = .record r :: rest) (ht : (d.core n).sieveActive = some (base, tb))
    (hr : (d.core n).freeRow = some row) :
    headTake n .clean d = d.updCore n fun c => { c with
      headQueue := rest
      headWork := c.headWork ++ [{ record := r, row := row, rows := [], sflags := 0, nflags := 0, status := takeStatus (parseSieve tb) r }]
      ctxs := c.ctxs ++ [Ctx.fresh r.id r.src r.stream r.q r.ecv row] } := by
  simp only [headTake, hs, if_neg Bool.false_ne_true, hq, ht, hr, guarded_clean, Upset.flipBytes]

/-! ### A record binned -/

/-- The head's core after a work is binned and its packet put out (R73, R97, R105, R110). -/
def Core.putBins (n : Nat) (t : SieveTable) (w : HeadWork) (rest : List HeadWork) (c : Core) : Core :=
  let b := w.binned t
  let c := c.raise 0 b.nflags
  { c with regs := sieveCount c.regs b.sflags b.status, headWork := rest
           ctxs := c.ctxs.map fun x => x.sieved w.row b.nflags
           headOut := c.headOut ++ [.bins (packetOf t w.record b) w.record.src w.record.stream w.record.q n] }

section
variable {n base : Nat} {w : HeadWork} {rest : List HeadWork} {tb : Bytes} {d : Dev} (hs : d.stopped n = false)
  (hw : (d.core n).headWork = w :: rest) (ht : (d.core n).sieveActive = some (base, tb)) (hr : w.ready (parseSieve tb) = true)
  (ho : laneFree (d.core n).headOut.length = true)
include hs hw ht hr ho

/-- Where the head's output has room, a work that has all it needs is checked against its ECV, then binned (R21, R90, R417). -/
theorem sieveBin_of_ready :
    sieveBin n .clean d = if (w.status == 0#16) && crc32c w.record.payload != w.record.ecv then
        d.detect n stCheckValue 5 [] (some w.record.id)
      else d.updCore n (Core.putBins n (parseSieve tb) w rest) := by
  have hgo : (!w.ready (parseSieve tb) || !laneFree (d.core n).headOut.length) = false := by simp [hr, ho]
  simp only [sieveBin, hs, if_neg Bool.false_ne_true, hw, ht]
  exact if_neg (ne_true_of_eq_false hgo)

/-- A record not scored, or one whose payload keeps its ECV, is binned. -/
theorem sieveBin_of_kept (hk : w.status ≠ 0 ∨ crc32c w.record.payload = w.record.ecv) :
    sieveBin n .clean d = d.updCore n (Core.putBins n (parseSieve tb) w rest) := by
  rw [sieveBin_of_ready hs hw ht hr ho, if_neg (by rcases hk with hk | hk <;> simp_all)]

/-- A payload that does not keep its ECV is a check-value fault of the head (R417). -/
theorem sieveBin_of_spoilt (h0 : w.status = 0) (hk : crc32c w.record.payload ≠ w.record.ecv) :
    sieveBin n .clean d = d.detect n stCheckValue 5 [] (some w.record.id) := by
  rw [sieveBin_of_ready hs hw ht hr ho, if_pos (by simp [h0, hk])]

end

end Sys2Proof.Machine

namespace Sys2Proof.Proofs
open Sys2Proof.Machine Sys2Proof.Safety

/-- Settles O46: the head's three commands, from what taking a record, a look-up (a run of row accesses, `lookUp_rowOnly`) and binning
do; the row is free because the lowest free row is one of the rows that pass `Core.rowFree`. -/
theorem headBinsRecords : Obligations.HeadBinsRecords := by
  unfold Obligations.HeadBinsRecords
  refine ⟨⟨fun n r rest base row tb s ⟨hl, hs⟩ hq ht hr => onDev_coreStep hl (headTake_of_record hs hq ht hr),
      fun c row h => Core.rowFree_spec (Core.rowFree_of_freeRow h), fun t r => ⟨fun h => if_pos h, fun h => if_neg fun hn => hn h⟩⟩,
    ⟨fun n env base k tb w rest e b s hg ht hw hc hn hb => ?hit,
      fun n env base k tb w rest e b ex s hg ht hw hc hn hx hb => ?miss, lookUp_allOnes⟩,
    fun n w rest base tb s ⟨hl, hs⟩ hw ht hr ho => ⟨fun hk => ?binned, fun h0 hk => ?spoilt, fun h => if_pos h⟩⟩
  case hit =>
    obtain ⟨t, hexec, hwork, hframe⟩ :=
      exec_entityLookup_first hg ht hw hc hn (doLookUp_of_hit w hb) (lookUp_rowOnly s.dev env e k)
    exact ⟨t, hexec, by simpa [HeadWork.withRow] using hwork, hframe⟩
  case miss =>
    obtain ⟨t, hexec, hwork, hothers, hmem, hplots, hchans, -, -⟩ :=
      exec_entityLookup_first hg ht hw hc hn (doLookUp_of_miss w hx hb)
        ((lookUp_rowOnly s.dev env e k).trans (askRead_rowOnly ..))
    exact ⟨t, hexec, hwork, hothers, hmem, hplots, hchans⟩
  case binned =>
    refine ⟨_, onDev_coreStep hl (sieveBin_of_kept hs hw ht hr ho hk), rfl, fun m hm => Dev.core_updCore_other _ hm _, ?_⟩
    dsimp only
    rw [Dev.core_updCore]
    exact ⟨rfl, rfl, rfl, rfl⟩
  case spoilt =>
    refine (onDev_live hl).trans ?_
    rw [sieveBin_of_spoilt hs hw ht hr ho h0 hk]

end Sys2Proof.Proofs
end

section
/-! SUPPORT. What units of other devices do: Read and Write units served, answers sunk into their tags, Accept units. -/
namespace Sys2Proof.Machine
open Sys2Proof.Safety

/-- Work that leaves the digital part as it is leaves the state as it is. -/
theorem onDev_same {f : Dev → Dev} {s : State} (h : f s.dev = s.dev) : onDev f s = .next s := by
  rw [onDev, h, ite_self]

/-! ### Units taken from a port -/

/-- A report to the other side of a link changes the ports and the output alone (R470). -/
theorem sendReport_frame (d : Dev) (pn type : Nat) : LinkOnly d (sendReport d pn type) := by
  unfold sendReport; dsimp only; split <;> rfl

/-- A unit taken changes the ports and the output alone (R470). -/
theorem takeUnit_frame (d : Dev) (pn : Nat) (u : RxUnit) : LinkOnly d (d.takeUnit pn u) := by
  unfold Dev.takeUnit
  dsimp only
  split
  · rfl
  · exact LinkOnly.trans (e := d.updPort pn fun p => p.take u) rfl (sendReport_frame ..)

theorem takeUnit_free (d : Dev) (pn : Nat) (u : RxUnit) : (d.takeUnit pn u).free = d.free := by
  rw [takeUnit_frame]

theorem RowOnly.localBytes_eq {d e : Dev} (h : RowOnly d e) (o n : Nat) : e.localBytes o n = d.localBytes o n := by
  rw [h]; rfl

/-- A request that may be served waits at the port, is of its kind, and stands behind no request of its source (R469). -/
theorem Port.requestOf_spec {q : Port} {k : Nat} {u : RxUnit} (h : q.requestOf k = some u) :
    u ∈ q.rx ∧ u.kind = k ∧ ∀ v ∈ q.rx.takeWhile (· != u), v.src = u.src → v.kind ≠ 6 ∧ v.kind ≠ 7 ∧ v.kind ≠ 8 := by
  obtain ⟨w, hw, hif⟩ := Option.bind_eq_some_iff.mp h
  split at hif
  · exact nomatch hif
  next hany =>
    obtain rfl : w = u := Option.some.inj hif
    refine ⟨List.mem_of_find?_eq_some hw, by simpa using List.find?_some hw, fun v hv hsrc => ?_⟩
    have hnot := mt (fun hk => List.any_eq_true.mpr ⟨v, hv, hk⟩) hany
    simpa [hsrc, and_assoc] using hnot

/-! ### Read units -/

theorem readUnit_of_none {mc : Mc} {pn : Nat} {env : Env} {d : Dev} (h : (d.port pn).requestOf 6 = none) :
    readUnit mc pn env d = d := by
  rw [readUnit, h]

/-- The answer to a Read unit: its bytes, or the status of the error met (R469). -/
def answerRead (u : RxUnit) (r : Dev × Option Bytes) : Dev :=
  let st : Status := if r.2.isSome then 0 else stEcc
  sendUnit r.1 u.src 13 u.plot (toLe 4 (field u.body 12 4) ++ toLe 2 st.toNat ++ toLe 2 0 ++ r.2.getD [])

theorem readUnit_of_request {mc : Mc} {pn : Nat} {env : Env} {d : Dev} {u : RxUnit} (h : (d.port pn).requestOf 6 = some u) :
    readUnit mc pn env d = answerRead u (remoteRead mc env (field u.body 0 8) (field u.body 8 4) (d.takeUnit pn u)) := by
  rw [readUnit, h]; rfl

section
variable {mc : Mc} {env : Env} {a n : Nat} {d : Dev}

/-- Memory that no table engine serves is read at once (R24). -/
theorem remoteRead_of_memory (hr : (regionOf (addrLocal a)).1 ≠ .regs) (hh : ∀ c, (regionOf (addrLocal a)).1 ≠ .hbm c) :
    remoteRead mc env a n d = (d, remoteBytes env a n d) := by
  unfold remoteRead
  split
  next he => exact absurd (congrArg Prod.fst he) hr
  next c _ he => exact absurd (congrArg Prod.fst he) (hh c)
  next => rfl

variable {c : Nat} (hh : (regionOf (addrLocal a)).1 = .hbm c)
include hh

/-- HBM read for no table engine (R24). -/
theorem remoteRead_of_hbm (ht : Config.tableUnit d.free = false) :
    remoteRead mc env a n d = ({ d with free := d.free + 1 }, remoteBytes env a n d) := by
  have hreg : regionOf (addrLocal a) = (.hbm c, (regionOf (addrLocal a)).2) := Prod.ext hh rfl
  rw [remoteRead, hreg]
  simp [ht]

/-- A row that another device's table engine asks its home engine for (R318, R319). -/
theorem remoteRead_of_row {e : Dev} {b : Bytes} (ht : Config.tableUnit d.free = true)
    (hrow : ({ d with free := d.free + 1 } : Dev).rowRead env a n = (e, .ok b)) :
    remoteRead mc env a n d = (e.cacheRow a b, some b) := by
  have hreg : regionOf (addrLocal a) = (.hbm c, (regionOf (addrLocal a)).2) := Prod.ext hh rfl
  rw [remoteRead, hreg]
  simp [ht, hrow]

/-- Such a row that cannot be read (R342). -/
theorem remoteRead_of_unreadable {e : Dev} {f : ReadFail} (ht : Config.tableUnit d.free = true)
    (hrow : ({ d with free := d.free + 1 } : Dev).rowRead env a n = (e, .error f)) :
    remoteRead mc env a n d = (e, none) := by
  have hreg : regionOf (addrLocal a) = (.hbm c, (regionOf (addrLocal a)).2) := Prod.ext hh rfl
  rw [remoteRead, hreg]
  simp [ht, hrow]

end

/-- Memory is answered with its bytes, or with ECC_UNCORRECTABLE where the range holds such an error (R24, R469). -/
theorem answerRead_remoteBytes (u : RxUnit) (env : Env) (a n : Nat) (d e : Dev) :
    answerRead u (e, remoteBytes env a n d) =
      if env.ecc.any fun x => overlaps x.1 x.2 a n then
        sendUnit e u.src 13 u.plot (toLe 4 (field u.body 12 4) ++ toLe 2 stEcc.toNat ++ toLe 2 0 ++ [])
      else sendUnit e u.src 13 u.plot
        (toLe 4 (field u.body 12 4) ++ toLe 2 (0 : Status).toNat ++ toLe 2 0 ++ d.localBytes (addrLocal a) n) := by
  unfold remoteBytes
  split <;> rfl

/-! ### A row read from HBM -/

/-- Accesses counted change the row caches and the table engines alone (R51, R342). -/
theorem Dev.countAccess_frame (d : Dev) (a : Nat) (k : Word) (hit : Bool) :
    d.countAccess a k hit = { d with caches := (d.countAccess a k hit).caches, tabs := (d.countAccess a k hit).tabs } := rfl

theorem countAccess_rowOnly (d : Dev) (a : Nat) (k : Word) (hit : Bool) : RowOnly d (d.countAccess a k hit) := rfl

theorem Dev.countAccess_progress (d : Dev) (a : Nat) (k : Word) (hit : Bool) :
    ((d.countAccess a k hit).tabEng (homeOf a)).progress = (d.tabEng (homeOf a)).progress + k :=
  congrArg TabEngine.progress (Tbl.get_set_self ({} : TabEngine) ..)

/-- This device's memory is read where no uncorrectable error lies in the range (R24, R419). -/
theorem readG_of_local {d : Dev} {env : Env} {a n : Nat} (hd : addrDevice a = d.deviceId)
    (he : ∀ x ∈ env.ecc, overlaps x.1 x.2 a n = false) : d.readG env a n = .ok (d.localBytes (addrLocal a) n) := by
  have hnone : env.ecc.find? (fun p => overlaps p.1 p.2 a n) = none := List.find?_eq_none.mpr fun x hx => by simp [he x hx]
  rw [Dev.readG, if_pos hd, hnone]

/-- A row of this device that is not cached is read from HBM, its accesses counted by its home engine (R318, R319). -/
theorem rowRead_of_uncached {d : Dev} {env : Env} {a n : Nat} (hd : addrDevice a = d.deviceId)
    (hf : (d.cache (clusterOf a)).find a = none) (he : ∀ x ∈ env.ecc, overlaps x.1 x.2 a n = false) :
    d.rowRead env a n = (d.countAccess a (accesses n) false, .ok (d.localBytes (addrLocal a) n)) := by
  have hread : (d.countAccess a (accesses n) false).readG env a n = .ok (d.localBytes (addrLocal a) n) :=
    (RowOnly.readG_eq (countAccess_rowOnly ..) env a n).trans (readG_of_local hd he)
  simp only [Dev.rowRead, hd, ne_eq, not_true_eq_false, if_false, hf, Dev.rowMiss, hread]

/-- Such a row reads as the memory stands, and its home engine has made the accesses, whatever the links and the free values are. -/
theorem rowRead_counts_of_uncached {d e : Dev} {env : Env} {a n : Nat} (h : e = { d with free := e.free, ports := e.ports, out := e.out })
    (hd : addrDevice a = d.deviceId) (hf : (d.cache (clusterOf a)).find a = none)
    (he : ∀ x ∈ env.ecc, overlaps x.1 x.2 a n = false) :
    (e.rowRead env a n).2 = .ok (d.localBytes (addrLocal a) n) ∧
    ((e.rowRead env a n).1.tabEng (homeOf a)).progress = (d.tabEng (homeOf a)).progress + accesses n := by
  rw [rowRead_of_uncached (by rw [h]; exact hd) (by rw [h]; exact hf) he]
  exact ⟨by rw [h]; rfl, (Dev.countAccess_progress ..).trans (by rw [h]; rfl)⟩

/-! ### Write units -/

theorem writeUnit_of_none {pn : Nat} {d : Dev} (h : (d.port pn).requestOf 7 = none) : writeUnit pn d = d := by
  rw [writeUnit, h]

/-- A Write unit that is no mirror traffic is stored and acknowledged (R24, R469). -/
theorem writeUnit_of_request {pn : Nat} {d : Dev} {u : RxUnit} (h : (d.port pn).requestOf 7 = some u) (hp : u.plot = 0xFFFF) :
    writeUnit pn d = sendUnit (remoteWrite (field u.body 0 8) (slice u.body 16 (field u.body 8 4)) (d.takeUnit pn u)) u.src 14 u.plot
      (toLe 4 (field u.body 12 4) ++ toLe 2 (0 : Status).toNat ++ toLe 2 0) := by
  simp only [writeUnit, h, if_pos hp]

/-- What a write makes of the memory depends on the memory alone. -/
theorem Dev.setLocalBytes_mem_congr {d e : Dev} (h : e.mem = d.mem) (o : Nat) (b : Bytes) :
    (e.setLocalBytes o b).mem = (d.setLocalBytes o b).mem := by
  induction b generalizing d e o with
  | nil => exact h
  | cons x xs ih =>
    refine ih ?_ (o + 1)
    unfold setLocalByte
    split <;> (try split) <;> simp [h]

/-- Memory written for another device: the bytes stored, and with them at most the row caches, the table engines and a free value
(R24, R319). -/
theorem remoteWrite_frame (a : Nat) (b : Bytes) (d : Dev) :
    let r := remoteWrite a b d
    r = { d with mem := (d.setLocalBytes (addrLocal a) b).mem, free := r.free, caches := r.caches, tabs := r.tabs } := by
  have hstore : ({ d with free := d.free + 1 } : Dev).setLocalBytes (addrLocal a) b =
      { d with free := d.free + 1, mem := (d.setLocalBytes (addrLocal a) b).mem } := by
    rw [Dev.setLocalBytes_frame, Dev.setLocalBytes_mem_congr (e := { d with free := d.free + 1 }) (d := d) rfl]
  unfold remoteWrite
  split
  · dsimp only
    rw [hstore]
    split
    · rw [Dev.countAccess_frame, Dev.cacheRow_frame]
    · rfl
  · dsimp only
    rw [Dev.setLocalBytes_frame]

/-- A Write unit served: the bytes stored, and with them at most the links, the output, the row caches, the table engines and a free
value (R24, R319, R469). -/
theorem writeUnit_stores {pn : Nat} {d : Dev} {u : RxUnit} (h : (d.port pn).requestOf 7 = some u) (hp : u.plot = 0xFFFF) :
    let r := writeUnit pn d
    r = { d with mem := r.mem, ports := r.ports, out := r.out, free := r.free, caches := r.caches, tabs := r.tabs } ∧
    r.mem = (d.setLocalBytes (addrLocal (field u.body 0 8)) (slice u.body 16 (field u.body 8 4))).mem := by
  have hmem (o : Nat) (b : Bytes) : ((d.takeUnit pn u).setLocalBytes o b).mem = (d.setLocalBytes o b).mem :=
    Dev.setLocalBytes_mem_congr (by rw [takeUnit_frame]) o b
  rw [writeUnit_of_request h hp, sendUnit_frame, remoteWrite_frame, hmem, takeUnit_frame]
  exact ⟨rfl, rfl⟩

/-! ### Answers -/

/-- An answer to a request of this device's own ends that request, then the results that waited for nothing else (R232, R469). -/
theorem sinkAnswer_of_pending {kind pn : Nat} {d : Dev} {u : RxUnit} {q : Pending} (hu : (d.port pn).rxOf kind = some u)
    (hq : (d.takeUnit pn u).pendingOf u.src (field u.body 0 4) = some q) :
    sinkAnswer kind pn d = resultAnswered (answered (d.takeUnit pn u) q (BitVec.ofNat 16 (field u.body 4 2))) q.tag := by
  rw [sinkAnswer, hu]
  simp only [hq]

/-- A descriptor after the answer to one of its requests: it waits for the tag no longer, and a failure is its chain's (R469). -/
def Job.withAnswer (q : Pending) (st : Status) (j : Job) : Job :=
  let k := { j with wait := j.wait.filter (· ≠ q.tag) }
  if st = 0 then k.remoteMoved q.bytes
  else { k with chainStatus := if k.chainStatus = 0 then st else k.chainStatus
                desc := if st.cls = 4 then { k.desc with next := 0 } else k.desc }

/-- Bytes moved are counted in DETAIL0 alone (R391). -/
theorem Job.remoteMoved_frame (j : Job) (n : Nat) : j.remoteMoved n = { j with detail0 := (j.remoteMoved n).detail0 } := by
  unfold remoteMoved; split <;> rfl

theorem Dev.job_updJob {d : Dev} {id : Nat} {f : Job → Job} (hf : ∀ j, (f j).id = j.id) :
    (d.updJob id f).job id = (d.job id).map f := by
  have hid : ((fun j : Job => decide (j.id = id)) ∘ fun j => if j.id = id then f j else j) = fun j => decide (j.id = id) := by
    funext j
    by_cases h : j.id = id <;> simp [h, hf]
  rw [job, updJob, List.find?_map, hid]
  exact Option.map_congr fun j hj => if_pos (by simpa using List.find?_some hj)

/-- The answer changes what the descriptor waits for, its chain's status, its NEXT and DETAIL0. -/
theorem Job.withAnswer_eq (q : Pending) (st : Status) (j : Job) :
    j.withAnswer q st = { j with
      wait := j.wait.filter (· ≠ q.tag)
      chainStatus := if st = 0 then j.chainStatus else if j.chainStatus = 0 then st else j.chainStatus
      desc := if st.cls = 4 then { j.desc with next := 0 } else j.desc
      detail0 := (j.withAnswer q st).detail0 } := by
  by_cases h : st = 0
  · subst h
    rw [withAnswer, if_pos rfl, Job.remoteMoved_frame, if_pos rfl, if_neg (by decide)]
  · simp only [withAnswer, if_neg h]

/-- A request answered ends for its descriptor, unless that waits for mirror traffic or makes a snapshot (R457, R469). -/
theorem answered_of_job {d : Dev} {q : Pending} {j : Job} (st : Status) (hk : q.kind ≠ 9) (hj : d.job q.job = some j)
    (hm : j.desc.code ≠ 0x34) :
    answered d q st = ({ d with pendings := d.pendings.filter fun r => r.tag ≠ q.tag } : Dev).updJob q.job (Job.withAnswer q st) := by
  have hjob : (({ d with pendings := d.pendings.filter fun r => r.tag ≠ q.tag } : Dev).updJob q.job fun j =>
      { j with wait := j.wait.filter (· ≠ q.tag) }).job q.job = some { j with wait := j.wait.filter (· ≠ q.tag) } := by
    rw [Dev.job_updJob fun _ => by rfl]
    exact congrArg (Option.map _) hj
  simp only [answered, hjob]
  rw [if_neg (by simp [hm])]
  by_cases h : st = 0
  · rw [if_pos h, Dev.updJob_updJob _ _ _ fun _ => by rfl]
    congr 1
    funext k
    simp only [Function.comp_apply, Job.withAnswer, if_pos h]
  · rw [if_neg h, if_neg hk, Dev.updJob_updJob _ _ _ fun _ => by rfl]
    congr 1
    funext k
    simp only [Function.comp_apply, Job.withAnswer, if_neg h]

/-- An answer, before the results that waited for it: its tag leaves the pending list, and its descriptor takes the answer (R469). -/
theorem sinkAnswer_ends {kind pn : Nat} {d : Dev} {u : RxUnit} {q : Pending} {j : Job} (hu : (d.port pn).rxOf kind = some u)
    (hq : (d.takeUnit pn u).pendingOf u.src (field u.body 0 4) = some q) (hk : q.kind ≠ 9) (hj : d.job q.job = some j)
    (hm : j.desc.code ≠ 0x34) :
    ∃ e : Dev, sinkAnswer kind pn d = resultAnswered e q.tag ∧
      e = { d with ports := e.ports, out := e.out, pendings := e.pendings, jobs := e.jobs } ∧
      e.pendings = d.pendings.filter (fun r => r.tag ≠ q.tag) ∧
      e.job q.job = some (j.withAnswer q (BitVec.ofNat 16 (field u.body 4 2))) := by
  have hjob : (d.takeUnit pn u).job q.job = some j := by rw [takeUnit_frame]; exact hj
  refine ⟨_, (sinkAnswer_of_pending hu hq).trans (by rw [answered_of_job _ hk hjob hm]), ?_, ?_, ?_⟩
  · rw [takeUnit_frame]; rfl
  · rw [takeUnit_frame]; rfl
  · rw [Dev.job_updJob fun k => by rw [Job.withAnswer_eq]]
    exact congrArg (Option.map _) hjob

/-! ### Results that waited for an answer -/

theorem resultAnswered_of_none {d : Dev} (tag : Nat) (h : d.remoteResults = []) : resultAnswered d tag = d := by
  simp only [resultAnswered, h]
  exact congrArg (fun r => { d with remoteResults := r }) h.symm

theorem resultAnswered_of_last {d : Dev} {tag : Nat} {r : TxResult} (h : d.remoteResults = [([tag], r)]) :
    resultAnswered d tag = acceptPacked { d with remoteResults := [] } r := by
  simp [resultAnswered, h]

/-- A source's count of an accepted result changes the feeds and the descriptors alone (R374, R391). -/
theorem countAccepted_frame (d : Dev) (src : Src) (st : Status) (nf : NFlags) :
    countAccepted d src st nf = { d with feeds := (countAccepted d src st nf).feeds, jobs := (countAccepted d src st nf).jobs } := rfl

@[simp] theorem core_countAccepted (d : Dev) (src : Src) (st : Status) (nf : NFlags) (m : Nat) :
    (countAccepted d src st nf).core m = d.core m := rfl

@[simp] theorem Core.work_ctxs (c : Core) (k : Nat) : (c.work k).ctxs = c.ctxs := by unfold work; split <;> rfl

/-- A result accepted is acknowledged at its context (R22, R232). -/
theorem Core.accepted_acked (c : Core) {row : Nat} {x : Ctx} (hx : x ∈ (c.accepted row).ctxs) (hr : x.row = row) : x.acked = true := by
  rw [accepted, work_ctxs] at hx
  obtain ⟨y, -, rfl⟩ := List.mem_map.mp hx
  by_cases hy : y.row = row
  · rw [if_pos hy]
  · rw [if_neg hy] at hr
    exact absurd hr hy

/-- A result whose plot is gone is acknowledged at its context, and its source counts it (R232). -/
theorem acceptPacked_of_gone {d : Dev} {r : TxResult} (hp : d.plot r.plot = none) (hc : r.core < 256) :
    acceptPacked d r = countAccepted (d.updCore r.core fun c => c.accepted r.row) r.src r.status r.nflags := by
  have hplot : (d.updCore r.core fun c => c.accepted r.row).plot r.plot = none := hp
  simp only [acceptPacked, if_pos hc, hplot]

/-! ### Accept units -/

/-- The records that an Accept unit covers are counted in the feeds and the descriptors alone (R477). -/
theorem countAccepted_foldl_frame (rs : List Rec) (d : Dev) :
    let e := rs.foldl (fun d r => countAccepted d r.src 0 0) d
    e = { d with feeds := e.feeds, jobs := e.jobs } := by
  induction rs generalizing d with
  | nil => rfl
  | cons r rs ih =>
    dsimp only [List.foldl_cons]
    rw [ih, countAccepted_frame]

/-- A plot changed changes the plots alone. -/
theorem Dev.updPlot_frame (d : Dev) (pid : Nat) (f : Plot → Plot) : d.updPlot pid f = { d with plots := (d.updPlot pid f).plots } := by
  unfold updPlot; split <;> rfl

/-- The records covered leave the plot's replay buffer, and their sources count them (R477). -/
theorem acceptUpTo_of_plot {pid : Nat} (stream seq : Nat) {d : Dev} {x : Plot} (hx : d.plot pid = some x) :
    let r := acceptUpTo pid stream seq d
    r = { d with plots := r.plots, feeds := r.feeds, jobs := r.jobs } ∧
    r.plot pid = some { x with replay := x.replay.filter fun r => !(r.stream = stream && !precedes seq r.seq) } := by
  simp only [acceptUpTo, hx]
  refine ⟨?_, ?_⟩
  · rw [Dev.updPlot_frame, countAccepted_foldl_frame]
  · rw [Dev.plot_updPlot, countAccepted_foldl_frame]
    exact congrArg (Option.map _) hx

section
variable {pn : Nat} {d : Dev} {u : RxUnit} {x : Plot} (hu : (d.port pn).rxOf 12 = some u) (hx : d.plot u.plot = some x)
include hu hx

/-- The head device of a plot takes an Accept unit (R477). -/
theorem acceptUnit_of_head (hs : x.startsHere = true) :
    acceptUnit pn d = acceptUpTo u.plot (field u.body 0 1) (field u.body 4 4) (d.takeUnit pn u) := by
  have hplot : (d.takeUnit pn u).plot u.plot = some x := by rw [takeUnit_frame]; exact hx
  rw [acceptUnit, hu]
  simp only [hplot, if_pos hs]

/-- A device in between passes an Accept unit on (R477). -/
theorem acceptUnit_of_between (hs : x.startsHere = false) :
    acceptUnit pn d = sendAcceptUnit (d.takeUnit pn u) x.lay.prevDevice u.plot (field u.body 0 1) (field u.body 4 4) := by
  have hplot : (d.takeUnit pn u).plot u.plot = some x := by rw [takeUnit_frame]; exact hx
  rw [acceptUnit, hu]
  simp only [hplot, if_neg (ne_true_of_eq_false hs)]

end

end Sys2Proof.Machine

namespace Sys2Proof.Proofs
open Sys2Proof.Machine Sys2Proof.Safety

/-- Settles O43: requests by what Read and Write units do, answers by the request they end and the result they free, Accept units by
the replay buffer they release. -/
theorem chainUnitsServed : Obligations.ChainUnitsServed := by
  unfold Obligations.ChainUnitsServed
  refine ⟨⟨fun p env u s hl hu => ?read, fun p u s hl hu hp => ?write, fun p s => ⟨fun h env => ?noRead, fun h => ?noWrite⟩,
      fun q k u => Port.requestOf_spec⟩,
    fun i p kind u q j s hl hi hu hq hk hj hm => ?answer, fun p u x s hl hu hx => ⟨fun hs => ?head, fun hs => ?between⟩⟩
  case read =>
    have htake := takeUnit_frame s.dev p.val u
    extract_lets a n d answer hbm e plain r
    have hserve : exec (.readUnit p env) s = .next (withDev s (answerRead u (remoteRead s.mc env a n d))) :=
      (onDev_live hl).trans (by rw [readUnit_of_request hu])
    have hplain : answerRead u (e, remoteBytes env a n d) = plain := by
      rw [answerRead_remoteBytes, htake.rowOnly.localBytes_eq]
    have hregion : hbm = true → ∃ c, (regionOf (addrLocal a)).1 = .hbm c := by
      cases h : (regionOf (addrLocal a)).1 <;> simp [hbm, h]
    have hfree : d.free = s.dev.free := takeUnit_free ..
    refine ⟨fun hr hb => ?_, fun hb => ?_, fun hb hd hf he => ?_⟩
    · have hother : ∀ c, (regionOf (addrLocal a)).1 ≠ .hbm c := fun c hc => by simp [hbm, hc] at hb
      have hed : e = d := if_neg (ne_true_of_eq_false hb)
      rw [hserve, remoteRead_of_memory hr hother, ← hplain, hed]
    · obtain ⟨c, hc⟩ := hregion hb
      have hed : e = { d with free := d.free + 1 } := if_pos hb
      rw [hserve]
      cases ht : Config.tableUnit s.dev.free with
      | false => rw [remoteRead_of_hbm hc (hfree ▸ ht), ← hed, hplain]; rfl
      | true =>
        have ht' : Config.tableUnit d.free = true := hfree ▸ ht
        obtain ⟨f, v, hrow⟩ : ∃ f v, r = (f, v) := ⟨_, _, rfl⟩
        have hread : ({ d with free := d.free + 1 } : Dev).rowRead env a n = (f, v) := hed ▸ hrow
        cases v with
        | ok b => rw [remoteRead_of_row hc ht' hread, hrow]; rfl
        | error err => rw [remoteRead_of_unreadable hc ht' hread, hrow]; rfl
    · have hfrom : e = { s.dev with free := s.dev.free + 1, ports := d.ports, out := d.out } :=
        (if_pos hb).trans (by rw [hfree, show d = _ from htake])
      exact rowRead_counts_of_uncached (e := e) (by rw [hfrom]) hd hf he
  case write =>
    intro o b
    have hexec : exec (.writeUnit p) s = .next (withDev s (writeUnit p.val s.dev)) := onDev_live hl
    obtain ⟨hframe, hmem⟩ := writeUnit_stores hu hp
    refine ⟨_, hexec, congrArg (withDev s) hframe, hmem, fun x _ hx => ?_⟩
    have hbyte := Dev.localByte_congr (d := s.dev) (Dev.get_setLocalBytes b hx)
    dsimp only [withDev]
    rw [hframe, hmem]
    exact hbyte
  case noRead => exact onDev_same (readUnit_of_none h)
  case noWrite => exact onDev_same (writeUnit_of_none h)
  case answer =>
    intro st
    have hexec : exec i s = .next (withDev s (sinkAnswer kind p.val s.dev)) := by
      rcases hi with ⟨rfl, rfl⟩ | ⟨rfl, rfl⟩ <;> exact onDev_live hl
    obtain ⟨d, hsink, hframe, hpend, hjob⟩ := sinkAnswer_ends hu hq hk hj hm
    rw [hsink] at hexec
    refine ⟨fun r hr hp hc => ?last, ⟨_, hexec, fun hr => ?none⟩⟩
    case last =>
      rw [resultAnswered_of_last (r := r) (by rw [hframe]; exact hr), acceptPacked_of_gone (by rw [hframe]; exact hp) hc] at hexec
      refine ⟨_, hexec, rfl, fun x hx hrow => ?_⟩
      rw [core_countAccepted, Dev.core_updCore] at hx
      exact Core.accepted_acked _ hx hrow
    case none =>
      rw [resultAnswered_of_none q.tag (by rw [hframe]; exact hr)]
      rw [Job.withAnswer_eq] at hjob
      exact ⟨congrArg (withDev s) hframe, hpend, _, hjob, rfl, rfl, rfl, rfl⟩
  case head =>
    have hexec : exec (.accept p) s = .next (withDev s (acceptUnit p.val s.dev)) := onDev_live hl
    rw [acceptUnit_of_head hu hx hs] at hexec
    have hplot : (s.dev.takeUnit p.val u).plot u.plot = some x := by rw [takeUnit_frame]; exact hx
    obtain ⟨hframe, hreplay⟩ := acceptUpTo_of_plot (field u.body 0 1) (field u.body 4 4) hplot
    refine ⟨_, hexec, ?_, hreplay⟩
    dsimp only
    rw [hframe, takeUnit_frame]
  case between => exact (onDev_live hl).trans (by rw [acceptUnit_of_between hu hx hs])

end Sys2Proof.Proofs
end

section
/-! SUPPORT. What a fault of a step does: a stopped core's steps, a code violation met before a step's effect, and the reset of a table
engine. -/
namespace Sys2Proof.Machine

/-! ### A code violation -/

/-- A step that meets an illegal code is reported, and has no effect (R34, R35, R416). -/
theorem guarded_code {w : BitVec 4} (hw : illegalCode w = true) (d : Dev) (n i : Nat) (rid : Option Nat) (f : Dev → Dev) :
    guarded d n (.code w i) rid f = d.detect n stCodeViolation 1 [] rid := by
  simp [guarded, Upset.stepFault, hw]

/-- A code is legal with no wire high, or one (R34). -/
theorem illegalCode_eq_false_iff : ∀ w : BitVec 4, illegalCode w = false ↔ w = 0 ∨ w = 1 ∨ w = 2 ∨ w = 4 ∨ w = 8 := by decide

/-- A head that meets an illegal code as it takes a record reports it and takes nothing (R34, R35). -/
theorem headTake_of_code {n base row : Nat} {r : Rec} {rest : List HeadIn} {tb : Bytes} {w : BitVec 4} {d : Dev}
    (hs : d.stopped n = false) (hq : (d.core n).headQueue = .record r :: rest) (ht : (d.core n).sieveActive = some (base, tb))
    (hr : (d.core n).freeRow = some row) (hw : illegalCode w = true) (i : Nat) :
    headTake n (.code w i) d = d.detect n stCodeViolation 1 [] (some r.id) := by
  simp only [headTake, hs, if_neg Bool.false_ne_true, hq, ht, hr, guarded_code hw]

/-! ### The steps of a stopped core -/

section
variable {n : Nat} {d : Dev} (hs : d.stopped n = true) (u : Upset) (env : Env)
include hs

/-! A step whose first question is whether the core is stopped. -/

theorem headTake_of_stopped : headTake n u d = d := if_pos hs
theorem sieveBin_of_stopped : sieveBin n u d = d := if_pos hs
theorem contextAllocate_of_stopped : contextAllocate n env d = d := if_pos hs
theorem sumPacketTake_of_stopped : sumPacketTake n u d = d := if_pos hs
theorem roundIssue_of_stopped : roundIssue n u d = d := if_pos hs
theorem roundDrain_of_stopped : roundDrain n u d = d := if_pos hs
theorem contextFree_of_stopped : contextFree n d = d := if_pos hs
theorem markerAtHead_of_stopped : markerAtHead n d = d := if_pos hs

theorem lookPending_of_stopped : lookPending d n = false := by simp [lookPending, hs]

/-! A step that asks it once it knows the core's plot, or the record at hand. -/

theorem acceptPacket_of_stopped : acceptPacket n d = d := by
  unfold acceptPacket
  split
  · rfl
  · exact if_pos (by simp [hs])

theorem admitRecord_of_stopped : admitRecord n d = d := by
  unfold admitRecord
  split
  · rfl
  · exact if_pos hs

theorem leafKeyBlock_of_stopped : leafKeyBlock n d = d := by
  unfold leafKeyBlock
  split
  · rfl
  · exact if_pos hs

theorem sumPacketSend_of_stopped : sumPacketSend n d = d := by
  unfold sumPacketSend
  dsimp only
  split
  · split
    · rfl
    · exact if_pos (by simp [hs])
  · rfl

theorem finisherPass_of_stopped : finisherPass n env d = d := by
  unfold finisherPass
  split
  · split
    · rfl
    · split
      · rfl
      · exact if_pos (by simp [hs])
  · rfl

theorem egressWrite_of_stopped : egressWrite n u env d = d := by
  unfold egressWrite
  split
  · rfl
  · exact if_pos (by simp [hs])

theorem markerAtFirst_of_stopped : markerAtFirst n d = d := by
  unfold markerAtFirst
  split
  · rfl
  · exact if_pos (by simp [hs])

theorem coreSwitch_of_stopped : coreSwitch n u d = d := by
  unfold coreSwitch
  split
  · exact if_pos (by simp [hs])
  · rfl

theorem releaseMarker_of_stopped : releaseMarker n d = d := by
  unfold releaseMarker
  split
  · exact if_pos (by simp [hs])
  · rfl

end

/-! ### Plots that wait for a restart -/

/-- The plot of a core waits for its restart, once (R424). -/
def Dev.awaitRestart (d : Dev) (n : Nat) : Dev :=
  match d.plotOf n with
  | some (pid, _) => if d.restartWait.contains pid then d else { d with restartWait := d.restartWait ++ [pid] }
  | none => d

theorem restartRequests_eq (d : Dev) (k : Nat) :
    restartRequests d k = ((List.range 256).filter (requestAt d k)).foldl Dev.awaitRestart d := rfl

/-- Only the list of plots that wait for a restart differs, and it only grows. -/
def WaitsMore (d e : Dev) : Prop := e = { d with restartWait := e.restartWait } ∧ d.restartWait ⊆ e.restartWait

theorem WaitsMore.trans {d e f : Dev} (h : WaitsMore d e) (k : WaitsMore e f) : WaitsMore d f := by
  obtain ⟨hframe, hsub⟩ := h
  obtain ⟨kframe, ksub⟩ := k
  exact ⟨by rw [kframe, hframe], List.Subset.trans hsub ksub⟩

theorem Dev.awaitRestart_waitsMore (d : Dev) (n : Nat) : WaitsMore d (d.awaitRestart n) := by
  unfold awaitRestart
  split
  · split
    · exact ⟨rfl, List.Subset.refl _⟩
    · exact ⟨rfl, List.subset_append_left _ _⟩
  · exact ⟨rfl, List.Subset.refl _⟩

theorem awaitRestart_foldl_waitsMore (ns : List Nat) (d : Dev) : WaitsMore d (ns.foldl Dev.awaitRestart d) := by
  induction ns generalizing d with
  | nil => exact ⟨rfl, List.Subset.refl _⟩
  | cons n ns ih => exact (d.awaitRestart_waitsMore n).trans (ih _)

theorem WaitsMore.plotOf_eq {d e : Dev} (h : WaitsMore d e) (n : Nat) : e.plotOf n = d.plotOf n := by rw [h.1]; rfl

theorem Dev.mem_restartWait_awaitRestart {d : Dev} {n pid : Nat} {p : Plot} (hp : d.plotOf n = some (pid, p)) :
    pid ∈ (d.awaitRestart n).restartWait := by
  simp only [awaitRestart, hp]
  split
  next hmem => simpa using hmem
  next => simp

/-- Every core's plot is among those that wait, whichever of the cores comes first. -/
theorem mem_restartWait_awaitRestart_foldl {n pid : Nat} {p : Plot} {ns : List Nat} {d : Dev} (hn : n ∈ ns)
    (hp : d.plotOf n = some (pid, p)) : pid ∈ (ns.foldl Dev.awaitRestart d).restartWait := by
  induction ns generalizing d with
  | nil => exact nomatch hn
  | cons m ns ih =>
    rcases List.mem_cons.mp hn with rfl | hn
    · exact (awaitRestart_foldl_waitsMore ns _).2 (Dev.mem_restartWait_awaitRestart hp)
    · exact ih hn (((d.awaitRestart_waitsMore m).plotOf_eq n).trans hp)

/-! ### Descriptors that end -/

/-- A descriptor aborted changes the dispatched descriptors alone. -/
theorem abortJob_foldl_frame (st : Status) (ids : List Nat) (d : Dev) :
    ids.foldl (fun d id => d.abortJob id st) d = { d with jobs := (ids.foldl (fun d id => d.abortJob id st) d).jobs } := by
  induction ids generalizing d with
  | nil => rfl
  | cons id ids ih => exact (ih (d.abortJob id st)).trans rfl

/-- Once numbers are aborted, a descriptor stands as it was and bears none of them, or it has ended. -/
theorem mem_jobs_abortJob_foldl {st : Status} {ids : List Nat} {d : Dev} {j : Job}
    (h : j ∈ (ids.foldl (fun d id => d.abortJob id st) d).jobs) : (j ∈ d.jobs ∧ j.id ∉ ids) ∨ j.ended = true := by
  induction ids generalizing d with
  | nil => exact .inl ⟨h, List.not_mem_nil⟩
  | cons id ids ih =>
    rcases ih h with ⟨hj, hids⟩ | hend
    · obtain ⟨y, hy, rfl⟩ := List.mem_map.mp hj
      by_cases hid : y.id = id
      · exact .inr (by rw [if_pos hid]; rfl)
      · rw [if_neg hid] at hids ⊢
        exact .inl ⟨hy, List.not_mem_cons_of_ne_of_not_mem hid hids⟩
    · exact .inr hend

/-- Every descriptor that an engine reset is to end has ended (R424). -/
theorem ended_of_abortStalled {d : Dev} {p : Job → Bool} {j : Job} (h : j ∈ (abortStalled d p).jobs) (hp : p j = true) :
    j.ended = true := by
  rcases mem_jobs_abortJob_foldl h with ⟨hj, hids⟩ | hend
  · cases hend : j.ended with
    | true => rfl
    | false => exact absurd (List.mem_map.mpr ⟨j, List.mem_filter.mpr ⟨hj, by rw [hp, hend]; rfl⟩, rfl⟩) hids
  · exact hend

/-! ### A table engine's reset -/

/-- An error record made takes the next sequence number, whether or not the queue has room for it (R438, R440). -/
theorem Dev.report_seqNext (d : Dev) (r : ErrRec) : (d.report r).err.seqNext = d.err.seqNext + 1 := by
  unfold report errVector
  dsimp only
  split
  · split
    · rw [msix_frame]
    · rfl
  · rfl

/-- The plots wait for a restart and the descriptors end, and nothing else changes (R424). -/
theorem tabReset_frame (t : Nat) (d : Dev) :
    tabReset t d = { d with jobs := (tabReset t d).jobs, restartWait := (restartRequests d (t / 4)).restartWait } := by
  have hwait : WaitsMore d (restartRequests d (t / 4)) := awaitRestart_foldl_waitsMore _ d
  have hjobs : tabReset t d = { restartRequests d (t / 4) with jobs := (tabReset t d).jobs } := abortJob_foldl_frame ..
  generalize restartRequests d (t / 4) = e at hwait hjobs ⊢
  generalize tabReset t d = f at hjobs ⊢
  rw [hjobs, hwait.1]

/-- An illegal code in a table engine changes the descriptors, the plots that wait for a restart and what an error record changes
(R416). -/
theorem tabCodeFault_frame (t : Nat) (d : Dev) :
    tabCodeFault t d = { d with
      jobs := (tabReset t d).jobs, restartWait := (restartRequests d (t / 4)).restartWait, err := (tabCodeFault t d).err
      host := (tabCodeFault t d).host, out := (tabCodeFault t d).out } := by
  have hreset := tabReset_frame t d
  have hreport : tabCodeFault t d = { tabReset t d with
      err := (tabCodeFault t d).err, host := (tabCodeFault t d).host, out := (tabCodeFault t d).out } := Dev.report_frame ..
  generalize tabReset t d = e at hreset hreport ⊢
  generalize tabCodeFault t d = f at hreport ⊢
  rw [hreport, hreset]

end Sys2Proof.Machine

namespace Sys2Proof.Proofs
open Sys2Proof.Machine Sys2Proof.Safety

/-- Settles O47: a guarded step that meets an illegal code only reports it; each step of a stopped core answers the state it was given;
and the reset of a table engine is a run over the cores that wait on it, then one over its descriptors. -/
theorem faultsStopCores : Obligations.FaultsStopCores := by
  unfold Obligations.FaultsStopCores
  refine ⟨fun n r rest base row tb w i s ⟨hl, hs⟩ hq ht hr hw => ?code, fun n u s hs => ?stopped, illegalCode_eq_false_iff,
    fun n env k s hl hk => ⟨fun hp => ?look, fun hb => ?keys⟩, fun k d => ⟨?cores, ?mem, fun j hj h0 h1 hc => ?ended,
      fun n pid p hn hr hp => ?waits, ?seq⟩⟩
  case code => exact (onDev_live hl).trans (by rw [headTake_of_code hs hq ht hr hw]; rfl)
  case stopped =>
    simp only [List.forall_mem_cons]
    exact ⟨onDev_same (headTake_of_stopped hs u), onDev_same (if_neg (ne_true_of_eq_false (lookPending_of_stopped hs))),
      onDev_same (sieveBin_of_stopped hs u), onDev_same (acceptPacket_of_stopped hs), onDev_same (contextAllocate_of_stopped hs {}),
      onDev_same (sumPacketTake_of_stopped hs u), onDev_same (admitRecord_of_stopped hs), onDev_same (roundIssue_of_stopped hs u),
      onDev_same (roundDrain_of_stopped hs u), onDev_same (sumPacketSend_of_stopped hs), onDev_same (contextFree_of_stopped hs),
      onDev_same (leafKeyBlock_of_stopped hs), onDev_same (finisherPass_of_stopped hs {}), onDev_same (egressWrite_of_stopped hs u {}),
      onDev_same (markerAtHead_of_stopped hs), onDev_same (markerAtFirst_of_stopped hs), onDev_same (coreSwitch_of_stopped hs u),
      onDev_same (releaseMarker_of_stopped hs), nofun⟩
  case look =>
    change execEntityLookup n env s = _
    rw [execEntityLookup, onDev_live hl, if_pos hp, tabServe_code hk]
  case keys =>
    change execKeyGatherBag n env s = _
    rw [execKeyGatherBag, onDev_live hl, if_neg (by simpa using hb), tabServe_code hk]
  case cores => rw [tabCodeFault_frame]
  case mem => rw [tabCodeFault_frame]
  case ended =>
    rw [tabCodeFault_frame] at hj
    exact ended_of_abortStalled hj (by simp [h0, h1, hc])
  case waits =>
    rw [tabCodeFault_frame]
    exact mem_restartWait_awaitRestart_foldl (List.mem_filter.mpr ⟨List.mem_range.mpr hn, hr⟩) hp
  case seq => exact ((tabReset k d).report_seqNext _).trans (by rw [tabReset_frame])

end Sys2Proof.Proofs
end

section
/-! SUPPORT. What the first core does as it accepts a packet, and what a core does as it allocates a record's context and hands the
packet on. -/
namespace Sys2Proof.Machine
open Sys2Proof.Safety

/-- Only what scoring records touches differs: the cores, the plots, the links and the output. -/
def ScoreOnly (d e : Dev) : Prop := e = { d with cores := e.cores, plots := e.plots, ports := e.ports, out := e.out }

theorem ScoreOnly.trans {d e f : Dev} (h : ScoreOnly d e) (k : ScoreOnly e f) : ScoreOnly d f := by
  unfold ScoreOnly at *; rw [k, h]

theorem LinkOnly.scoreOnly {d e : Dev} (h : LinkOnly d e) : ScoreOnly d e := by
  unfold LinkOnly ScoreOnly at *; rw [h]

theorem updCore_scoreOnly (d : Dev) (n : Nat) (f : Core → Core) : ScoreOnly d (d.updCore n f) := rfl

theorem setPlot_scoreOnly (d : Dev) (pid : Nat) (x : Plot) : ScoreOnly d (d.setPlot pid x) := rfl

theorem scoringOnly_of_scoreOnly {s : State} {e : Dev} (h : ScoreOnly s.dev e) : scoringOnly s (withDev s e) := congrArg (withDev s) h

theorem Dev.core_setPlot (d : Dev) (pid : Nat) (x : Plot) (m : Nat) : (d.setPlot pid x).core m = d.core m := rfl

theorem Dev.plot_updCore (d : Dev) (n : Nat) (f : Core → Core) (pid : Nat) : (d.updCore n f).plot pid = d.plot pid := rfl

/-! ### A packet accepted -/

/-- A head after the first core accepts the packet at the front of its output (R51, R110). -/
def Core.givePacket (rest : List BinMsg) (c : Core) : Core :=
  let r := { c.regs with sieveRecords := c.regs.sieveRecords + 1 }
  { c with headOut := rest, regs := r }.work 1

theorem Core.work_headOut (c : Core) (k : Nat) : (c.work k).headOut = c.headOut := by unfold work; split <;> rfl

theorem Core.work_binLane (c : Core) (k : Nat) : (c.work k).binLane = c.binLane := by unfold work; split <;> rfl

theorem Core.work_sieveRecords (c : Core) (k : Nat) : (c.work k).regs.sieveRecords = c.regs.sieveRecords := by
  unfold work; split <;> rfl

@[simp] theorem Core.givePacket_headOut (rest : List BinMsg) (c : Core) : (c.givePacket rest).headOut = rest := by
  rw [givePacket, work_headOut]

@[simp] theorem Core.givePacket_binLane (rest : List BinMsg) (c : Core) : (c.givePacket rest).binLane = c.binLane := by
  rw [givePacket, work_binLane]

@[simp] theorem Core.givePacket_sieveRecords (rest : List BinMsg) (c : Core) :
    (c.givePacket rest).regs.sieveRecords = c.regs.sieveRecords + 1 := by
  rw [givePacket, work_sieveRecords]

/-- A core after a message comes into its bin lane. -/
def Core.laneIn (m : BinMsg) (c : Core) : Core := { c with binLane := c.binLane ++ [m] }

/-- The digital part after core `n` accepts a message from head `h`, the plot becoming `x` (R81). -/
def Dev.passPacket (d : Dev) (n h pid : Nat) (m : BinMsg) (rest : List BinMsg) (x : Plot) : Dev :=
  ((d.updCore h (Core.givePacket rest)).updCore n (Core.laneIn m)).setPlot pid x

section
variable (d : Dev) (n h pid : Nat) (m : BinMsg) (rest : List BinMsg) (x : Plot)

theorem passPacket_scoreOnly : ScoreOnly d (d.passPacket n h pid m rest x) :=
  ((updCore_scoreOnly ..).trans (updCore_scoreOnly ..)).trans (setPlot_scoreOnly ..)

theorem plot_passPacket : (d.passPacket n h pid m rest x).plot pid = some x := Dev.plot_setPlot ..

/-- The head has given its packet, and counts it, even where it is the first core itself (R51, R110). -/
theorem core_passPacket_head : ((d.passPacket n h pid m rest x).core h).headOut = rest ∧
    ((d.passPacket n h pid m rest x).core h).regs.sieveRecords = (d.core h).regs.sieveRecords + 1 := by
  rw [Dev.passPacket, Dev.core_setPlot]
  by_cases hn : h = n
  · subst hn
    simp [Core.laneIn]
  · rw [Dev.core_updCore_other _ hn, Dev.core_updCore]
    exact ⟨Core.givePacket_headOut .., Core.givePacket_sieveRecords ..⟩

theorem binLane_passPacket : ((d.passPacket n h pid m rest x).core n).binLane = (d.core n).binLane ++ [m] := by
  have hlane : ((d.updCore h (Core.givePacket rest)).core n).binLane = (d.core n).binLane := by
    by_cases hn : n = h
    · rw [← hn, Dev.core_updCore, Core.givePacket_binLane]
    · rw [Dev.core_updCore_other _ hn]
  rw [Dev.passPacket, Dev.core_setPlot, Dev.core_updCore, Core.laneIn, hlane]

theorem core_passPacket_other {k : Nat} (hn : k ≠ n) (hh : k ≠ h) : (d.passPacket n h pid m rest x).core k = d.core k := by
  rw [Dev.passPacket, Dev.core_setPlot, Dev.core_updCore_other _ hn, Dev.core_updCore_other _ hh]

end

theorem Dev.updPlot_of_plot {d : Dev} {pid : Nat} {x : Plot} (h : d.plot pid = some x) (f : Plot → Plot) :
    d.updPlot pid f = d.setPlot pid (f x) := by
  rw [updPlot, h]

/-- The packet of the head whose turn it is goes into the first core's lane, and the turn goes on (R51, R81, R110, R271). -/
theorem acceptPacket_of_room {n pid h q st sender : Nat} {p : Plot} {b : BinPacket} {src : Src} {rest : List BinMsg} {d : Dev}
    (hn : d.stopped n = false) (hp : d.plotOf n = some (pid, p)) (hpid : d.plot pid = some p) (hf : p.isFirst n = true)
    (hh : p.heads[p.rotAccept]? = some h) (hs : d.stopped h = false) (ho : (d.core h).headOut = .bins b src st q sender :: rest)
    (hm : (d.core n).binLane.any BinMsg.isMarker = false) (hr : d.laneRoom n h true (BinMsg.bins b src st q h).size = true) :
    acceptPacket n d = d.passPacket n h pid (.bins b src st q h) rest { p with rotAccept := (p.rotAccept + 1) % max 1 p.heads.length } := by
  have hfirst : (!(p.startsHere && p.first == some n) || d.stopped n) = false := by
    rw [hn, Bool.or_false, Bool.not_eq_false']; exact hf
  simp only [acceptPacket, hp, hfirst, hh, ho, hs, hm, hr, Bool.not_true, Bool.or_self, if_neg Bool.false_ne_true]
  exact Dev.updPlot_of_plot (by rw [Dev.plot_updCore, Dev.plot_updCore, hpid]) _

/-! ### A packet handed on -/

/-- A packet handed on changes the next core, or the links (R198). -/
theorem forwardBins_scoreOnly (d : Dev) (pid : Nat) (p : Plot) (n : Nat) (m : BinMsg) (bytes : Bytes) (kind : Nat) :
    ScoreOnly d (forwardBins d pid p n m bytes kind) := by
  unfold forwardBins
  split
  · exact updCore_scoreOnly ..
  · split
    · rfl
    · exact (sendUnit_frame ..).scoreOnly

/-- The next core of the chain has it at the end of its lane. -/
theorem forwardBins_of_next {p : Plot} {n k : Nat} (h : p.after n = some k) (d : Dev) (pid : Nat) (m : BinMsg) (bytes : Bytes)
    (kind : Nat) : forwardBins d pid p n m bytes kind = d.updCore k (Core.laneIn m) := by
  rw [forwardBins, h]; rfl

theorem core_forwardBins_other {p : Plot} {n j : Nat} (h : p.after n ≠ some j) (d : Dev) (pid : Nat) (m : BinMsg) (bytes : Bytes)
    (kind : Nat) : (forwardBins d pid p n m bytes kind).core j = d.core j := by
  cases ha : p.after n with
  | some k =>
    rw [forwardBins_of_next ha]
    exact Dev.core_updCore_other _ (fun hj => h (by rw [ha, hj])) _
  | none =>
    rw [forwardBins, ha]
    dsimp only
    split
    · rfl
    · rw [sendUnit_frame]; rfl

/-- The core that hands it on keeps what it did, as the next core is another. -/
theorem core_forwardBins_updCore {p : Plot} {n : Nat} (h : p.after n ≠ some n) (d : Dev) (f : Core → Core) (pid : Nat) (m : BinMsg)
    (bytes : Bytes) (kind : Nat) : (forwardBins (d.updCore n f) pid p n m bytes kind).core n = f (d.core n) := by
  rw [core_forwardBins_other h, Dev.core_updCore]

/-! ### A context allocated -/

/-- The context that a record's bins arrive in: the one its head allocated, or a fresh one (R21, R82). -/
def Core.ctxFor (c : Core) (b : BinPacket) (src : Src) (stream q row : Nat) : Ctx :=
  (c.ctxs.find? fun x => !x.hasBins && x.isFor b.recordId src stream).getD (Ctx.fresh b.recordId src stream q b.ecv row)

/-- Either way the context has the row that the core gives the record. -/
theorem Core.ctxFor_row {c : Core} {b : BinPacket} {src : Src} {stream row : Nat} (h : c.ctxRow b.recordId src stream = some row)
    (q : Nat) : (c.ctxFor b src stream q row).row = row := by
  unfold ctxRow at h
  unfold ctxFor
  split at h
  next x hx => rw [hx]; exact Option.some.inj h
  next hx => rw [hx]; rfl

/-- A core after it allocates a context, whose row held `old` and now holds `x`, that no preload gives values or flags (R193). -/
def Core.takeBins (g : GroveInfo) (row : Nat) (old x : Ctx) (c : Core) : Core :=
  let c := (writePre g row (List.replicate g.outputs 0) c).raise old.nflags 0
  { c with binLane := c.binLane.drop 1, ctxs := (c.ctxs.filter fun y => y.row ≠ row) ++ [x] }

theorem Core.clearRow_binLane (c : Core) (row : Nat) : (c.clearRow row).binLane = c.binLane := by
  rw [clearRow, accWrite]

/-- A preload into a record's row leaves the lane of bins alone (R193). -/
theorem writePre_binLane (g : GroveInfo) (row : Nat) (vals : List Nat) (c : Core) : (writePre g row vals c).binLane = c.binLane := by
  have hfold (js : List Nat) (e : Core) : (js.foldl (fun c j => writeSum c g row j (at' 0 vals j)) e).binLane = e.binLane := by
    induction js generalizing e with
    | nil => rfl
    | cons j js ih => exact ih (writeSum e g row j (at' 0 vals j))
  exact (hfold _ (c.clearRow row)).trans (c.clearRow_binLane row)

@[simp] theorem Core.takeBins_binLane (g : GroveInfo) (row : Nat) (old x : Ctx) (c : Core) :
    (c.takeBins g row old x).binLane = c.binLane.drop 1 :=
  congrArg (List.drop 1) (writePre_binLane ..)

theorem Core.takeBins_ctxs (g : GroveInfo) (row : Nat) (old x : Ctx) (c : Core) :
    (c.takeBins g row old x).ctxs =
      ((writePre g row (List.replicate g.outputs 0) c).raise old.nflags 0).ctxs.filter (fun y => y.row ≠ row) ++ [x] := rfl

theorem Core.mem_takeBins_self (g : GroveInfo) (row : Nat) (old x : Ctx) (c : Core) : x ∈ (c.takeBins g row old x).ctxs := by
  rw [takeBins_ctxs]
  exact List.mem_append_right _ (List.mem_singleton.mpr rfl)

/-- The row's context is the new one, and no other. -/
theorem Core.mem_takeBins {g : GroveInfo} {row : Nat} {old x y : Ctx} {c : Core} (hy : y ∈ (c.takeBins g row old x).ctxs)
    (hr : y.row = row) : y = x := by
  rw [takeBins_ctxs] at hy
  rcases List.mem_append.mp hy with hkept | hnew
  · exact absurd hr (by simpa using (List.mem_filter.mp hkept).2)
  · exact List.mem_singleton.mp hnew

/-- A core that is not the chain's first preloads nothing, and hands the packet on as it came (R193, R198). -/
theorem allocate_of_later {p : Plot} {n : Nat} (hf : p.isFirst n = false) (d : Dev) (env : Env) (pid : Nat) (g : GroveInfo) (row : Nat)
    (b : BinPacket) (src : Src) (stream q : Nat) :
    ∃ x, allocate d env pid p n g row b src stream q =
        forwardBins (d.updCore n (Core.takeBins g row ((d.core n).ctxFor b src stream q row) x)) pid p n (.bins b src stream q n) b.bytes 1 ∧
      x.row = ((d.core n).ctxFor b src stream q row).row ∧ x.hasBins = true ∧ x.bins = b.bins ∧ x.pair = (d.core n).active ∧
      x.notScored = (b.status != 0) := by
  let x := ((d.core n).ctxFor b src stream q row).arrive b (d.core n).active g.leafToId
  refine ⟨{ x with nflags := x.nflags ||| 0 }, ?_, rfl, rfl, rfl, rfl, rfl⟩
  unfold allocate
  rw [hf]
  rfl

/-- Nothing restarts the plot: the message came from the core's own cluster, or the chain buffers hold no error (R419). -/
theorem restartsPlot_eq_false {sender n : Nat} {env : Env} (h : sender / 64 = n / 64 ∨ chainBad env (n / 64) = false) :
    (sender / 64 ≠ n / 64 && chainBad env (n / 64)) = false := by
  rcases h with h | h <;> simp [h]

section
variable {n pid q st sender : Nat} {env : Env} {p : Plot} {b : BinPacket} {src : Src} {rest : List BinMsg} {d : Dev}
  (hs : d.stopped n = false) (hp : d.plotOf n = some (pid, p)) (hb : (d.core n).binLane = .bins b src st q sender :: rest)
  (hc : sender / 64 = n / 64 ∨ chainBad env (n / 64) = false)
include hs hp hb hc

/-- A core that has a row for the bins at the front of its lane takes them, when the next lane has room (R15, R21). -/
theorem contextAllocate_of_row {pr : Pair} {row : Nat} (ha : (d.core n).activePair = some pr)
    (hrow : (d.core n).ctxRow b.recordId src st = some row) :
    contextAllocate n env d = if d.nextRoom p n true (BinMsg.bins b src st q n).size then
      (allocate d env pid p n pr.info row b src st q).refill sender else d := by
  simp only [contextAllocate, hs, hp, hb, ha, restartsPlot_eq_false hc, hrow, if_neg Bool.false_ne_true]

/-- With no row for the bins, with no room in the next lane, or with no active pair, nothing changes (R15, R21). -/
theorem contextAllocate_of_full
    (hr : (d.core n).ctxRow b.recordId src st = none ∨ d.nextRoom p n true (BinMsg.bins b src st q n).size = false) :
    contextAllocate n env d = d := by
  cases ha : (d.core n).activePair with
  | none => simp only [contextAllocate, hs, hp, hb, ha, if_neg Bool.false_ne_true]
  | some pr =>
    cases hrow : (d.core n).ctxRow b.recordId src st with
    | none => simp only [contextAllocate, hs, hp, hb, ha, restartsPlot_eq_false hc, hrow, if_neg Bool.false_ne_true]
    | some row =>
      rw [contextAllocate_of_row hs hp hb hc ha hrow]
      exact if_neg (by simpa [hrow] using hr)

end

/-- A message that this device's own core sent lets no unit of a port go on (R470). -/
theorem refill_of_local {sender : Nat} (h : sender < 256) (d : Dev) : d.refill sender = d := if_pos h

end Sys2Proof.Machine

namespace Sys2Proof.Proofs
open Sys2Proof.Machine Sys2Proof.Safety

/-- Settles O48: a packet accepted changes its head, the first core's lane and the plot's turn; a context allocated changes its core, and
the packet handed on changes the next core or the links. The head may be the first core itself, so its fields are read in both cases. -/
theorem packetsAndContexts : Obligations.PacketsAndContexts := by
  unfold Obligations.PacketsAndContexts
  refine ⟨fun n pid h q p b src st sender rest s ⟨⟨hl, hn⟩, hp, hpid⟩ hf hh hs ho hm hr => ?accept,
    fun n env pid row q st p b src sender rest pr s ⟨⟨hl, hs⟩, hp, _⟩ hb hlocal hc hroom ha hrow hf hnext => ?allocate,
    fun n env pid q st p b src sender rest s ⟨⟨hl, hs⟩, hp, _⟩ hb hc hr => onDev_same (contextAllocate_of_full hs hp hb hc hr)⟩
  case accept =>
    have hexec : exec (.binVectorPacket n) s = .next (withDev s (acceptPacket n.val s.dev)) := onDev_live hl
    rw [acceptPacket_of_room hn hp hpid hf hh hs ho hm hr] at hexec
    obtain ⟨hout, hcount⟩ := core_passPacket_head s.dev n.val h pid (.bins b src st q h) rest
      { p with rotAccept := (p.rotAccept + 1) % max 1 p.heads.length }
    refine ⟨_, hexec, scoringOnly_of_scoreOnly (passPacket_scoreOnly ..), ?_⟩
    dsimp only
    exact ⟨hout, hcount, binLane_passPacket .., plot_passPacket ..,
      fun m hn hh => core_passPacket_other _ _ _ _ _ _ _ hn hh⟩
  case allocate =>
    obtain ⟨x, halloc, hxrow, hxhas, hxbins, hxpair, hxscored⟩ := allocate_of_later hf s.dev env pid pr.info row b src st q
    have hexec : exec (.contextAllocate n env) s = .next (withDev s (contextAllocate n.val env s.dev)) := onDev_live hl
    rw [contextAllocate_of_row hs hp hb hc ha hrow, if_pos hroom, refill_of_local hlocal, halloc] at hexec
    refine ⟨_, x, hexec, scoringOnly_of_scoreOnly ((updCore_scoreOnly ..).trans (forwardBins_scoreOnly ..)), ?lane, ?mem,
      hxrow.trans (Core.ctxFor_row hrow q), hxhas, hxbins, hxpair, hxscored, ?only, fun k hk => ?next, fun m hm hk => ?others⟩
    all_goals dsimp only
    case lane => rw [core_forwardBins_updCore hnext, Core.takeBins_binLane, hb]; rfl
    case mem => rw [core_forwardBins_updCore hnext]; exact Core.mem_takeBins_self ..
    case only => rw [core_forwardBins_updCore hnext]; exact fun y => Core.mem_takeBins
    case next =>
      have hkn : k ≠ n.val := fun h => hnext (by rw [hk, h])
      rw [forwardBins_of_next hk, Dev.core_updCore, Dev.core_updCore_other _ hkn, Core.laneIn]
    case others => rw [core_forwardBins_other hk, Dev.core_updCore_other _ hm]

end Sys2Proof.Proofs
end

section
/-! SUPPORT. What a host access that fails does, and what a flush read, an unmasked vector and the translation commands do. -/
namespace Sys2Proof.Machine
open Sys2Proof.Safety

/-! ### A host access that fails -/

/-- A descriptor ended by a failed host access is counted in its channel, and ended (R406, R413). -/
theorem accessFault_eq (d : Dev) (j : Job) :
    accessFault d j = (d.updChan j.chan fun ch => { ch with hostCnt := laneBump ch.hostCnt 0 }).abortJob j.id stHostAccessFault := rfl

/-- A copy in progress that reads or writes the host, and has no flush to make, is ended by a host access that fails (R39, R406). -/
theorem hostAccessFault_of_copy {c id : Nat} {j : Job} {d : Dev} (hj : d.job id = some j) (hc : j.chan = c) (he : j.engine ≠ none)
    (hh : j.desc.srcHost = true ∨ j.desc.dstHost = true) (hcomp : d.jobComplete j = false) (hf : flushDue d j = false) :
    hostAccessFault c (some id) d =
      (d.updChan c fun ch => { ch with hostCnt := laneBump ch.hostCnt 0 }).abortJob id stHostAccessFault := by
  have hid : j.id = id := by simpa using List.find?_some hj
  have hcopy : (j.engine.isSome && (j.desc.srcHost || j.desc.dstHost) && !d.jobComplete j) = true := by
    simp [Option.isSome_iff_ne_none.mpr he, hh, hcomp]
  simp only [hostAccessFault, hj, hc, ne_eq, not_true_eq_false, if_false, hf, if_neg Bool.false_ne_true, if_pos hcopy]
  rw [accessFault_eq, hc, hid]

/-- A descriptor aborted is complete, with the status it was given: no further link of its chain starts. -/
theorem job_abortJob {d : Dev} {id : Nat} {j : Job} (hj : d.job id = some j) (st : Status) :
    ∃ k, (d.abortJob id st).job id = some k ∧ k.status = st ∧ k.complete = true := by
  rw [Dev.abortJob, Dev.job_updJob (by exact fun _ => rfl), hj]
  exact ⟨_, rfl, rfl, rfl⟩

/-! ### Pages, messages, reads of a flush -/

/-- The pages of a host access change the translation cache alone (R403). -/
theorem Dev.cachePages_frame (d : Dev) (l : List Nat) :
    d.cachePages l = { d with host := { d.host with atc := (d.cachePages l).host.atc } } := by
  unfold cachePages; split <;> rfl

theorem Dev.cachePages_nil (d : Dev) : d.cachePages [] = d := by
  have hall : d.host.atc.filter (fun p => !([] : List Nat).contains p) = d.host.atc := List.filter_eq_self.mpr fun _ _ => rfl
  unfold cachePages
  split
  · rw [hall, List.nil_append]
  · rfl

/-- Zero-length reads are put out in order, and use the translation cache (R400, R403). -/
theorem flushReads_frame (l : List (Nat × Nat)) (d : Dev) :
    flushReads d l = { d with
      host := { d.host with atc := (flushReads d l).host.atc }, out := d.out ++ l.map fun p => .zeroRead p.2 p.1 } := by
  induction l generalizing d with
  | nil => simp [flushReads]
  | cons p l ih =>
    have hread : flushReads d (p :: l) = flushReads ((d.hostRead p.2 1).emit (.zeroRead p.2 p.1)) l := rfl
    have hfirst := d.cachePages_frame (pagesOf p.2 1)
    rw [hread, ih, Dev.hostRead, hfirst]
    simp [Dev.emit]

/-- With no hold, a message goes out at once (R395, R409). -/
theorem toHost_msixMsg {d : Dev} (hf : d.fatal = false) (hh : d.host.held = false) (v : Nat) :
    d.toHost (d.msixMsg v) = { d with out := d.out ++ [.host (d.msixMsg v)] } := by
  rw [Dev.toHost, hf, hh, if_neg Bool.false_ne_true, if_neg Bool.false_ne_true]
  exact congrArg (Dev.emit · _) d.cachePages_nil

/-- The messages that a vector withheld go out one after another (R395). -/
theorem toHost_msixMsg_foldl {α : Type} (l : List α) {d : Dev} (hf : d.fatal = false) (hh : d.host.held = false) (v : Nat) :
    l.foldl (fun d _ => d.toHost (d.msixMsg v)) d =
      { d with out := d.out ++ List.replicate l.length (.host (d.msixMsg v)) } := by
  induction l generalizing d with
  | nil => simp
  | cons a l ih =>
    rw [List.foldl_cons, toHost_msixMsg hf hh, ih (by exact hf) (by exact hh)]
    simp [List.replicate_succ, Dev.msixMsg]

/-! ### CE_FLUSH -/

/-- A powered device's digital part changes by the command alone (R489, R490). -/
theorem onAny_on {f : Dev → Dev} {s : State} (h : s.mc.pwr.state = .on) : onAny f s = .next (withDev s (f s.dev)) := by
  rw [onAny, if_pos h]

/-- An engine's CE_FLUSH reads as the bytes that its writes to the host have taken (R402, R414). -/
theorem regRead_ceFlush (mc : Mc) (d : Dev) (e : Fin 20) :
    regRead mc d (0x200000 + 0x100 * e.val + 0x10) = some (d.engine e.val).flushBytes.toNat := by
  have he := e.isLt
  have hoff : 0x200000 + 0x100 * e.val + 0x10 - 0x200000 = 0x100 * e.val + 0x10 := by omega
  have hreg : (0x100 * e.val + 0x10) % 256 = 0x10 := by omega
  have hengine : (0x100 * e.val + 0x10) / 256 = e.val := by omega
  unfold regRead
  rw [if_neg (by omega), if_neg (by omega), if_neg (by omega), if_neg (by simp; omega), if_neg (by omega), if_pos (by simp; omega), hoff,
    ceReg, if_pos (by omega)]
  simp only [hreg, hengine]

theorem flushReg_ceFlush (e : Fin 20) : flushReg (0x200000 + 0x100 * e.val + 0x10) = some e.val := by
  have he := e.isLt
  rw [flushReg, if_pos (by simp; omega)]
  exact congrArg some (by omega)

/-- The register read makes the engine's zero-length reads, and answers its bytes (R402). -/
theorem regReadFx_ceFlush (mc : Mc) (d : Dev) (e : Fin 20) :
    regReadFx mc d (0x200000 + 0x100 * e.val + 0x10) = (ceFlush d e.val, (d.engine e.val).flushBytes.toNat) := by
  rw [regReadFx, regRead_ceFlush, flushReg_ceFlush]

/-- With no hold, the last host address of each traffic class that the engine used is read (R400, R402). -/
theorem exec_ceFlush_free {e : Fin 20} {s : State} (hp : s.mc.pwr.state = .on) (hh : s.dev.host.held = false) :
    exec (.ceFlush e) s = .next (withDev s ((flushReads s.dev (s.dev.engine e.val).flushAddrs).emit
      (.readValue (toLe 8 (s.dev.engine e.val).flushBytes.toNat)))) := by
  change execCeFlush e s = _
  rw [execCeFlush, onAny_on hp, hh, Bool.false_and, if_neg Bool.false_ne_true, regReadFx_ceFlush, ceFlush, hh, if_neg Bool.false_ne_true]

/-- A hold keeps the read waiting (R409). -/
theorem exec_ceFlush_held {e : Fin 20} {s : State} (hp : s.mc.pwr.state = .on) (hh : s.dev.host.held = true) (hf : s.dev.fatal = false) :
    exec (.ceFlush e) s = .next (withDev s { s.dev with
      host := { s.dev.host with heldWrites := s.dev.host.heldWrites ++ [.flush e.val] } }) := by
  change execCeFlush e s = _
  rw [execCeFlush, onAny_on hp, hh, hf, if_pos (by rfl), Dev.toHost, hf, if_neg Bool.false_ne_true, if_pos hh]

/-! ### A vector unmasked -/

/-- Clearing a vector's mask bit clears that one alone. -/
theorem getLsbD_clearBit (m : BitVec 128) (v : Fin 128) (k : Nat) :
    (m &&& ~~~(BitVec.ofNat 128 (2 ^ v.val))).getLsbD k = (m.getLsbD k && decide (k ≠ v.val)) := by
  rw [BitVec.getLsbD_and, BitVec.getLsbD_not, BitVec.getLsbD_ofNat, Nat.testBit_two_pow]
  by_cases hk : k < 128
  · simp [hk, eq_comm]
  · simp [BitVec.getLsbD_of_ge _ _ (Nat.le_of_not_lt hk)]

/-- With no hold, the messages that the vector withheld are sent, and its mask and its count of them are cleared (R395). -/
theorem unmask_eq {d : Dev} (hf : d.fatal = false) (hh : d.host.held = false) (v : Nat) :
    unmask v d = { d with
      host := { d.host with
        masked := d.host.masked &&& ~~~(BitVec.ofNat 128 (2 ^ v)), msixPending := Tbl.set 0 v 0 d.host.msixPending }
      out := d.out ++ List.replicate (Tbl.get 0 v d.host.msixPending) (.host (d.msixMsg v)) } := by
  let e : Dev := { d with host := { d.host with
    masked := d.host.masked &&& ~~~(BitVec.ofNat 128 (2 ^ v)), msixPending := Tbl.set 0 v 0 d.host.msixPending } }
  refine (toHost_msixMsg_foldl (List.range (Tbl.get 0 v d.host.msixPending)) (d := e) hf hh v).trans ?_
  rw [List.length_range]
  rfl

theorem State.fatal_of_live {s : State} (h : s.live = true) : s.dev.fatal = false := by
  simp only [live, Bool.and_eq_true, Bool.not_eq_true'] at h
  exact h.2

end Sys2Proof.Machine

namespace Sys2Proof.Proofs
open Sys2Proof.Machine Sys2Proof.Safety

/-- Settles O34: an access that fails aborts its copy; a flush is a run of zero-length reads, and unmasking a run of messages; the
translation commands change the cached pages. -/
theorem hostAccesses : Obligations.HostAccesses := by
  unfold Obligations.HostAccesses
  refine ⟨fun c id j s hl hj hc he hh hcomp hf i hi => ?fault, fun e s hp hh => ?flush, fun e s hp hh hf => exec_ceFlush_held hp hh hf,
    fun v s hl hh => ?unmask, fun a n s hp => ?invalidate, fun on s hp => ?enable⟩
  case fault =>
    have hexec : exec i s = .next (withDev s (hostAccessFault c.val (some id) s.dev)) := by
      simp only [List.mem_cons, List.not_mem_nil, or_false] at hi
      rcases hi with rfl | rfl <;> exact onDev_live hl
    rw [hostAccessFault_of_copy hj hc he hh hcomp hf] at hexec
    refine ⟨hexec, fun t ht => ?_⟩
    cases hexec.symm.trans ht
    exact job_abortJob (by exact hj) stHostAccessFault
  case flush =>
    refine ⟨_, exec_ceFlush_free hp hh, ?_, ?_⟩
    all_goals rw [flushReads_frame]; rfl
  case unmask =>
    have hexec : exec (.msixUnmask v) s = .next (withDev s (unmask v.val s.dev)) := onDev_live hl
    rw [unmask_eq (State.fatal_of_live hl) hh] at hexec
    refine ⟨_, hexec, rfl, rfl, ?_⟩
    dsimp only
    exact ⟨(getLsbD_clearBit ..).trans (by simp), Tbl.get_set_self .., fun k hk =>
      ⟨(getLsbD_clearBit ..).trans (by simp [hk]), Tbl.get_set_other _ hk ..⟩⟩
  case invalidate => exact ⟨_, onAny_on hp, rfl, fun p => by simp [atsInvalidate, Dev.emit, List.mem_filter]⟩
  case enable =>
    have hexec : exec (.atsEnable on) s = .next (withDev s { s.dev with
        host := { s.dev.host with ats := on, atc := if on then s.dev.host.atc else [] } }) := by
      change execAtsEnable on s = _
      rw [execAtsEnable, onAny_on hp]
    exact ⟨_, hexec, rfl, rfl, fun h => if_neg (ne_true_of_eq_false h), fun h => if_pos h⟩

end Sys2Proof.Proofs
end

section
/-! SUPPORT. The number formats: a two's complement reading as a balanced remainder, sums in FX48, and the E4M3 codes. -/
namespace Sys2Proof.Machine

/-! ### Two's complement readings -/

/-- A two's complement reading is the balanced remainder modulo `2^w`, whose library lemmas then apply to it. -/
theorem sext_eq_bmod {w : Nat} (hw : 0 < w) (v : Nat) : sext w v = (v : Int).bmod (2 ^ w) := by
  obtain ⟨n, rfl⟩ : ∃ n, w = n + 1 := ⟨w - 1, by omega⟩
  rw [sext, Int.bmod_def, Nat.add_sub_cancel, Nat.pow_succ]
  split <;> split <;> omega

/-- The reading takes its code modulo `2^w`. -/
theorem sext_mod (w v : Nat) : sext w (v % 2 ^ w) = sext w v := by
  rw [sext, sext, Nat.mod_mod]

/-- Readings add up to the reading of the sum, modulo `2^w`. -/
theorem sext_sum {w : Nat} (hw : 0 < w) (xs : List Nat) : sext w xs.sum = (xs.map (sext w)).sum.bmod (2 ^ w) := by
  rw [sext_eq_bmod hw]
  induction xs with
  | nil => rfl
  | cons x xs ih =>
    rw [List.map_cons, List.sum_cons, List.sum_cons, Int.natCast_add, sext_eq_bmod hw, Int.bmod_add_bmod, ← Int.add_bmod_bmod, ih,
      Int.add_bmod_bmod]

/-- The magnitude of a sum is at most the sum of the magnitudes. -/
theorem natAbs_sum_map_le {α : Type} (f : α → Int) (xs : List α) : (xs.map f).sum.natAbs ≤ (xs.map fun x => (f x).natAbs).sum := by
  induction xs with
  | nil => exact Nat.le_refl 0
  | cons x xs ih =>
    rw [List.map_cons, List.map_cons, List.sum_cons, List.sum_cons]
    exact Nat.le_trans (Int.natAbs_add_le ..) (Nat.add_le_add_left ih _)

/-- Below half the modulus the readings add up to the reading of the sum. -/
theorem sext_sum_of_small {w : Nat} (hw : 0 < w) {xs : List Nat} (h : (xs.map fun x => (sext w x).natAbs).sum < 2 ^ (w - 1)) :
    sext w xs.sum = (xs.map (sext w)).sum := by
  have hle := natAbs_sum_map_le (sext w) xs
  have hpow : (2 ^ w : Nat) = 2 ^ (w - 1) * 2 := by rw [← Nat.pow_succ, Nat.succ_eq_add_one, Nat.sub_add_cancel hw]
  rw [sext_sum hw]
  exact Int.bmod_eq_of_le (by omega) (by omega)

/-! ### FX48 addition (R63) -/

theorem fxAdd_lt (a b : Nat) : fxAdd a b < 2 ^ 64 := Nat.mod_lt _ (by decide)

theorem fxAdd_comm (a b : Nat) : fxAdd a b = fxAdd b a := by rw [fxAdd, fxAdd, Nat.add_comm]

@[simp] theorem mod_fxAdd (a b : Nat) : fxAdd (a % 2 ^ 64) b = fxAdd a b := Nat.mod_add_mod ..

@[simp] theorem fxAdd_mod (a b : Nat) : fxAdd a (b % 2 ^ 64) = fxAdd a b := Nat.add_mod_mod ..

theorem fxAdd_assoc (a b c : Nat) : fxAdd (fxAdd a b) c = fxAdd a (fxAdd b c) := by
  calc fxAdd (fxAdd a b) c = fxAdd (a + b) c := mod_fxAdd ..
    _ = fxAdd a (b + c) := by rw [fxAdd, fxAdd, Nat.add_assoc]
    _ = fxAdd a (fxAdd b c) := (fxAdd_mod ..).symm

theorem fxAdd_right_comm (a b c : Nat) : fxAdd (fxAdd a b) c = fxAdd (fxAdd a c) b := by
  rw [fxAdd_assoc, fxAdd_comm b c, ← fxAdd_assoc]

/-- A slot that has taken a list of addends holds their sum modulo 2^64. -/
theorem foldl_fxAdd (v : Nat) (xs : List Nat) : xs.foldl fxAdd (v % 2 ^ 64) = (v + xs.sum) % 2 ^ 64 := by
  induction xs generalizing v with
  | nil => rfl
  | cons x xs ih => rw [List.foldl_cons, mod_fxAdd, fxAdd, ih, List.sum_cons, Nat.add_assoc]

theorem foldl_fxAdd_zero (xs : List Nat) : xs.foldl fxAdd 0 = xs.sum % 2 ^ 64 := by
  simpa using foldl_fxAdd 0 xs

/-! ### The codes of E4M3 (R57) -/

theorem bit_eq_testBit (v i : Nat) : bit v i = v.testBit i := by
  rw [bit, Nat.testBit_eq_decide_div_mod_eq, Bool.beq_eq_decide_eq]

/-- What an E4M3 code stands for, by its sign and its seven bits of magnitude: NaN, a subnormal, or a normal number. -/
theorem floatVal_e4m3 (c : BitVec 8) : floatVal .e4m3 c.toNat =
    if c.toNat % 128 = 127 then .nan
    else if c.toNat % 128 < 8 then .fin (c.getLsbD 7) (c.toNat % 128) (-9) false
    else .fin (c.getLsbD 7) (8 + c.toNat % 8) ((c.toNat / 8 % 16 : Nat) - 10) false := by
  have hc : c.toNat % 256 = c.toNat := Nat.mod_eq_of_lt c.isLt
  have hsign : bit c.toNat 7 = c.getLsbD 7 := bit_eq_testBit ..
  have hfrac : c.toNat % 128 % 8 = c.toNat % 8 := by omega
  simp only [floatVal, Fmt.prec, Fmt.size, Nat.reduceMul, Nat.reduceSub, Nat.reducePow, if_true, hc, hsign, hfrac]
  split
  · rfl
  split
  · rfl
  · have hexp : -9 + ((c.toNat % 128 / 8 - 1 : Nat) : Int) = (c.toNat / 8 % 16 : Nat) - 10 := by omega
    rw [hexp]

theorem floatVal_e4m3_ne_inf (c : BitVec 8) (neg : Bool) : floatVal .e4m3 c.toNat ≠ .inf neg := by
  rw [floatVal_e4m3]
  split
  · exact Val.noConfusion
  split <;> exact Val.noConfusion

theorem floatVal_e4m3_eq_nan_iff (c : BitVec 8) : floatVal .e4m3 c.toNat = .nan ↔ c.toNat % 128 = 127 := by
  rw [floatVal_e4m3]
  split
  next h => exact iff_of_true rfl h
  next h => split <;> exact iff_of_false Val.noConfusion h

end Sys2Proof.Machine

namespace Sys2Proof.Proofs
open Sys2Proof.Machine Sys2Proof.Safety

/-- Settles O6: a slot holds its addends' sum modulo 2^64 (`foldl_fxAdd_zero`), whose two's complement reading is their true sum while
that is small (`sext_sum_of_small`). -/
theorem fixedSumsExact : Obligations.FixedSumsExact := by
  unfold Obligations.FixedSumsExact
  refine ⟨fun a b c => ⟨fxAdd_comm a b, fxAdd_assoc a b c, Nat.mod_mod .., fxAdd_lt a b⟩, fun v xs ys hperm => ?order,
    fun xs ys => ?grouping, fun xs hsmall => ?trueSum⟩
  case order => exact hperm.foldl_eq' (fun x _ y _ z => fxAdd_right_comm z x y) v
  case grouping => rw [foldl_fxAdd_zero, foldl_fxAdd_zero, foldl_fxAdd_zero, mod_fxAdd, fxAdd_mod, List.sum_append, fxAdd]
  case trueSum => rw [foldl_fxAdd_zero, sext_mod, sext_sum_of_small (by decide) hsmall]

/-- Settles O7, from what a code stands for by its magnitude (`floatVal_e4m3`). -/
theorem e4M3Codes : Obligations.E4M3Codes := by
  unfold Obligations.E4M3Codes
  refine ⟨fun c => ⟨floatVal_e4m3_ne_inf c, ?nan, fun hexp hfrac => ?top⟩, rfl, rfl, rfl, rfl, rfl⟩
  case nan =>
    rw [floatVal_e4m3_eq_nan_iff]
    bv_omega
  case top =>
    rw [floatVal_e4m3, if_neg (by omega), if_neg (by omega), hexp]
    rfl

end Sys2Proof.Proofs
end

section
/-! SUPPORT. The mixing function of the sieve's hashes as arithmetic on 32-bit words, and the bin of a crossed feature. -/
namespace Sys2Proof.Machine

/-! ### Words -/

/-- The upper half of a 64-bit product of two numbers below 2^32. -/
theorem toNat_mul_ushiftRight {a b : Nat} (ha : a < 2 ^ 32) (hb : b < 2 ^ 32) :
    ((BitVec.ofNat 64 a * BitVec.ofNat 64 b) >>> 32).toNat = a * b / 2 ^ 32 := by
  have hprod : a * b < 2 ^ 64 := Nat.lt_of_lt_of_eq (Nat.mul_lt_mul'' ha hb) rfl
  rw [← BitVec.ofNat_mul, BitVec.toNat_ushiftRight, BitVec.toNat_ofNat, Nat.mod_eq_of_lt hprod, Nat.shiftRight_eq_div_pow]

/-! ### The mixing function (R101) -/

/-- The mixing function on a 32-bit word. -/
def mixWord (x : BitVec 32) : BitVec 32 :=
  let x := x ^^^ (x >>> 16)
  let x := x * 0x6B2F4E35
  let x := x ^^^ (x >>> 15)
  let x := x * 0x9C3A71D3
  x ^^^ (x >>> 16)

/-- A word mixed with itself shifted to the right. -/
theorem toNat_xor_ushiftRight (x : BitVec 32) (n : Nat) : (x ^^^ (x >>> n)).toNat = x.toNat ^^^ (x.toNat / 2 ^ n) := by
  rw [BitVec.toNat_xor, BitVec.toNat_ushiftRight, Nat.shiftRight_eq_div_pow]

theorem mix32_toNat (x : BitVec 32) : mix32 x.toNat = (mixWord x).toNat := by
  have hx : x.toNat % 2 ^ 32 = x.toNat := Nat.mod_eq_of_lt x.isLt
  rw [mixWord, toNat_xor_ushiftRight, BitVec.toNat_mul, toNat_xor_ushiftRight, BitVec.toNat_mul, toNat_xor_ushiftRight, mix32, hx]
  rfl

/-- The hash of a cross, on words: the operands' bins side by side, mixed with the seed. -/
theorem crossHash_toNat {a b : BitVec 32} (seed : BitVec 32) :
    crossHash a.toNat b.toNat seed.toNat = (mixWord (((a <<< 16) + b) ^^^ seed)).toNat := by
  have hsum : (a.toNat * 65536 + b.toNat) % 2 ^ 32 = ((a <<< 16) + b).toNat := by
    rw [BitVec.toNat_add, BitVec.toNat_shiftLeft, Nat.shiftLeft_eq, Nat.mod_add_mod]
  rw [crossHash, hsum, ← BitVec.toNat_xor, mix32_toNat]

/-! ### A crossed feature -/

/-- A CROSS_HASH feature of a record still to be scored adds one bin (R90, R101). -/
theorem sieveStep_of_crossHash {f : Feature} {st : Binned} (hk : f.kind = 3) (hs : st.status = 0) (t : SieveTable) (nb : List Nat)
    (area : Nat → Bytes) : sieveStep t nb area st f = { st with bins := st.bins ++
      [crossHash (at' 0 st.bins f.opA) (at' 0 st.bins f.opB) f.seed * (f.count + 1) / 2 ^ 32] } := by
  rw [sieveStep, if_neg (by simp [hs]), hk]
  rfl

end Sys2Proof.Machine

namespace Sys2Proof.Proofs
open Sys2Proof.Machine Sys2Proof.Safety

/-- Settles O8: the mixing function is one on words (`mix32_toNat`), and its product with COUNT + 1 stays below 2^64. -/
theorem crossHashBins : Obligations.CrossHashBins := by
  unfold Obligations.CrossHashBins
  intro mix t nb area st f a b seed hkind hstatus ha hb hseed _ _ hcount
  rw [sieveStep_of_crossHash hkind hstatus, ha, hb, hseed, crossHash_toNat,
    ← toNat_mul_ushiftRight (BitVec.isLt _) hcount, BitVec.ofNat_toNat]
  rfl

end Sys2Proof.Proofs
end

section
/-! SUPPORT. What a restart of a plot discards and keeps, what it makes of the plot, and what a replay passes to the heads. -/
namespace Sys2Proof.Machine
open Sys2Proof.Safety

/-! ### Runs over a list -/

/-- What the step of one element sets, and every step keeps, holds after the run. -/
theorem foldl_of_mem {α β : Type} {f : β → α → β} {P : β → Prop} {a : α} {l : List α} (ha : a ∈ l) (hset : ∀ b, P (f b a))
    (hkeep : ∀ b x, P b → P (f b x)) (b : β) : P (l.foldl f b) := by
  obtain ⟨xs, ys, rfl⟩ := List.append_of_mem ha
  rw [List.foldl_append, List.foldl_cons]
  exact List.foldlRecOn ys f (hset _) fun b hb x _ => hkeep b x hb

/-- The places of a list, each read back, are the list. -/
theorem filterMap_getElem?_range {α : Type} (l : List α) : ((List.range l.length).filterMap fun i => l[i]?) = l := by
  induction l with
  | nil => rfl
  | cons a l ih =>
    rw [List.length_cons, List.range_succ_eq_map, List.filterMap_cons, List.filterMap_map]
    exact congrArg (a :: ·) ih

/-! ### A core squashed -/

/-- A core that a restart squashes keeps its accumulator memory, and no record (R250, R426). -/
theorem Core.squashAll_spec (c : Core) (marks reds : Bool) :
    (c.squashAll marks reds).ctxs = [] ∧ (c.squashAll marks reds).headQueue = [] ∧ (c.squashAll marks reds).headWork = [] ∧
      (c.squashAll marks reds).acc = c.acc := by
  unfold squashAll work
  dsimp only
  split <;> exact ⟨rfl, rfl, rfl, rfl⟩

/-! ### A plot squashed -/

/-- The plot's cores squashed, but for the fenced ones (R426 step 2). -/
def squashCores (d : Dev) (p : Plot) (reds : Bool) : Dev :=
  (p.cores.filter fun n => !(d.core n).fenced).foldl (fun d n => d.updCore n fun c => c.squashAll (!p.startsHere) reds) d

/-- The results of a plot that wait at a record port dropped (R426 step 3). -/
def dropResults (pid : Nat) (d : Dev) : Dev :=
  (List.range 16).foldl (fun d i =>
    if (d.port i).txResults.any (fun t => t.plot = pid) then
      d.updPort i fun po => { po with txResults := po.txResults.filter fun t => t.plot ≠ pid } else d) d

/-- Its results that wait for another device's answer dropped (R426 step 3). -/
def forgetResults (pid : Nat) (d : Dev) : Dev := { d with remoteResults := d.remoteResults.filter fun r => r.2.plot ≠ pid }

/-- The plot itself: both rotations restart at head 0 (R81). -/
def Plot.squashed (p : Plot) : Plot :=
  { p with rotHead := 0, rotAccept := 0, heldCore := if p.startsHere then none else p.heldCore }

theorem squashPlot_eq (d : Dev) (pid : Nat) (p : Plot) (reds : Bool) :
    squashPlot d pid p reds = (forgetResults pid (dropResults pid (squashCores d p reds))).updPlot pid Plot.squashed := rfl

/-- Only the cores differ. -/
def CoresOnly (d e : Dev) : Prop := e = { d with cores := e.cores }

/-- Only the ports differ. -/
def PortsOnly (d e : Dev) : Prop := e = { d with ports := e.ports }

/-- Only what a restart touches differs: the cores, the plots, the ports, and the results that wait for another device. -/
def RestartOnly (d e : Dev) : Prop :=
  e = { d with cores := e.cores, plots := e.plots, ports := e.ports, remoteResults := e.remoteResults }

section
variable {d e f : Dev}

theorem CoresOnly.trans (h : CoresOnly d e) (k : CoresOnly e f) : CoresOnly d f := by
  unfold CoresOnly at *; rw [k, h]

theorem PortsOnly.trans (h : PortsOnly d e) (k : PortsOnly e f) : PortsOnly d f := by
  unfold PortsOnly at *; rw [k, h]

theorem RestartOnly.trans (h : RestartOnly d e) (k : RestartOnly e f) : RestartOnly d f := by
  unfold RestartOnly at *; rw [k, h]

theorem CoresOnly.restartOnly (h : CoresOnly d e) : RestartOnly d e := by
  unfold CoresOnly RestartOnly at *; rw [h]

theorem PortsOnly.restartOnly (h : PortsOnly d e) : RestartOnly d e := by
  unfold PortsOnly RestartOnly at *; rw [h]

theorem CoresOnly.plot_eq (h : CoresOnly d e) (pid : Nat) : e.plot pid = d.plot pid := by rw [h]; rfl

theorem PortsOnly.plot_eq (h : PortsOnly d e) (pid : Nat) : e.plot pid = d.plot pid := by rw [h]; rfl

theorem PortsOnly.core_eq (h : PortsOnly d e) (n : Nat) : e.core n = d.core n := by rw [h]; rfl

end

theorem squashCores_coresOnly (d : Dev) (p : Plot) (reds : Bool) : CoresOnly d (squashCores d p reds) :=
  List.foldlRecOn (motive := CoresOnly d) _ _ rfl fun _ he _ _ => he.trans rfl

theorem dropResults_portsOnly (pid : Nat) (d : Dev) : PortsOnly d (dropResults pid d) := by
  refine List.foldlRecOn (motive := PortsOnly d) _ _ rfl fun e he i _ => he.trans ?_
  split <;> rfl

theorem core_forgetResults (pid : Nat) (d : Dev) (n : Nat) : (forgetResults pid d).core n = d.core n := rfl

theorem plot_forgetResults (pid : Nat) (d : Dev) (k : Nat) : (forgetResults pid d).plot k = d.plot k := rfl

theorem forgetResults_restartOnly (pid : Nat) (d : Dev) : RestartOnly d (forgetResults pid d) := rfl

theorem updPlot_restartOnly (d : Dev) (pid : Nat) (f : Plot → Plot) : RestartOnly d (d.updPlot pid f) := by
  unfold Dev.updPlot; split <;> rfl

theorem squashPlot_restartOnly (d : Dev) (pid : Nat) (p : Plot) (reds : Bool) : RestartOnly d (squashPlot d pid p reds) := by
  rw [squashPlot_eq]
  exact (((squashCores_coresOnly d p reds).restartOnly.trans (dropResults_portsOnly ..).restartOnly).trans
    (forgetResults_restartOnly ..)).trans (updPlot_restartOnly ..)

theorem core_updPlot (d : Dev) (pid : Nat) (f : Plot → Plot) (n : Nat) : (d.updPlot pid f).core n = d.core n := by
  unfold Dev.updPlot; split <;> rfl

theorem core_squashPlot (d : Dev) (pid : Nat) (p : Plot) (reds : Bool) (n : Nat) :
    (squashPlot d pid p reds).core n = (squashCores d p reds).core n := by
  rw [squashPlot_eq, core_updPlot, core_forgetResults, (dropResults_portsOnly pid (squashCores d p reds)).core_eq]

theorem plot_squashPlot {d : Dev} {pid : Nat} {p : Plot} (hp : d.plot pid = some p) (reds : Bool) :
    (squashPlot d pid p reds).plot pid = some p.squashed := by
  rw [squashPlot_eq, Dev.plot_updPlot, plot_forgetResults, (dropResults_portsOnly pid (squashCores d p reds)).plot_eq,
    (squashCores_coresOnly d p reds).plot_eq, hp, Option.map_some]

section
variable {d : Dev} {p : Plot} {n : Nat}

/-- A core of the plot that is not fenced keeps nothing of its records, and keeps its accumulator memory. -/
theorem core_squashCores (hn : n ∈ p.cores) (hf : (d.core n).fenced = false) (reds : Bool) :
    ((squashCores d p reds).core n).ctxs = [] ∧ ((squashCores d p reds).core n).headQueue = [] ∧
      ((squashCores d p reds).core n).headWork = [] ∧ ((squashCores d p reds).core n).acc = (d.core n).acc := by
  have hlive : n ∈ p.cores.filter fun n => !(d.core n).fenced := List.mem_filter.mpr ⟨hn, by rw [hf]; rfl⟩
  have hempty : ((squashCores d p reds).core n).ctxs = [] ∧ ((squashCores d p reds).core n).headQueue = [] ∧
      ((squashCores d p reds).core n).headWork = [] := by
    refine foldl_of_mem (P := fun e : Dev => (e.core n).ctxs = [] ∧ (e.core n).headQueue = [] ∧ (e.core n).headWork = [])
      hlive (fun e => ?_) (fun e m he => ?_) d
    · obtain ⟨hctxs, hqueue, hwork, -⟩ := (e.core n).squashAll_spec (!p.startsHere) reds
      rw [Dev.core_updCore]
      exact ⟨hctxs, hqueue, hwork⟩
    · by_cases hm : n = m
      · obtain ⟨hctxs, hqueue, hwork, -⟩ := (e.core n).squashAll_spec (!p.startsHere) reds
        rw [← hm, Dev.core_updCore]
        exact ⟨hctxs, hqueue, hwork⟩
      · rwa [Dev.core_updCore_other _ hm]
  obtain ⟨hctxs, hqueue, hwork⟩ := hempty
  refine ⟨hctxs, hqueue, hwork, ?_⟩
  refine List.foldlRecOn (motive := fun e : Dev => (e.core n).acc = (d.core n).acc) _ _ rfl fun e he m _ => ?_
  by_cases hm : n = m
  · obtain ⟨-, -, -, hacc⟩ := (e.core n).squashAll_spec (!p.startsHere) reds
    rw [← hm, Dev.core_updCore, hacc, he]
  · rwa [Dev.core_updCore_other _ hm]

theorem core_squashCores_other (hn : n ∉ p.cores) (reds : Bool) : (squashCores d p reds).core n = d.core n := by
  refine List.foldlRecOn (motive := fun e : Dev => e.core n = d.core n) _ _ rfl fun e he m hm => ?_
  have hnm : n ≠ m := ne_of_mem_of_not_mem (List.mem_filter.mp hm).1 hn |>.symm
  rwa [Dev.core_updCore_other _ hnm]

end

/-! ### The plot of a restart -/

/-- Stopped until a replay; where the chain goes on to another device, until its Restart done too (R426, R477). -/
def Plot.stop (p : Plot) : Plot := { p with restart := .stopped false !p.endsHere }

theorem Plot.moveLast_lay (p : Plot) : p.moveLast.lay = p.lay := by
  unfold moveLast; split <;> rfl

/-- The switch points that a restart moves back do not depend on what it squashes. -/
theorem Plot.moveLast_squashed (p : Plot) : p.squashed.moveLast = p.moveLast.squashed := by
  by_cases h : (p.markActive && p.moveMarks.markSeq != p.markSeq) = true
  · have hsquashed : p.squashed.moveLast = { p.squashed.moveMarks with switchMoved := true } := if_pos h
    rw [hsquashed, moveLast, if_pos h]
    rfl
  · have hsquashed : p.squashed.moveLast = p.squashed := if_neg h
    rw [hsquashed, moveLast, if_neg h]

/-- The plot after a restart of a chain that this device holds whole (R426). -/
theorem Plot.stop_squashed {p : Plot} (hs : p.startsHere = true) (he : p.endsHere = true) : p.squashed.moveLast.stop =
    { p.moveLast with rotHead := 0, rotAccept := 0, heldCore := none, restart := .stopped false false } := by
  have hstarts : p.moveLast.startsHere = true := by rw [startsHere, moveLast_lay]; exact hs
  have hends : p.moveLast.squashed.endsHere = true := by
    change (p.moveLast.lay.nextDevice == 0xFFFF) = true
    rw [moveLast_lay]
    exact he
  rw [moveLast_squashed, stop, hends, squashed, hstarts]
  rfl

/-- The digital part after a restart of a plot with no graft in progress (R426). -/
def Dev.restarted (d : Dev) (pid : Nat) (p : Plot) : Dev :=
  ((squashPlot d pid p true).updPlot pid Plot.moveLast).updPlot pid Plot.stop

theorem restarted_restartOnly (d : Dev) (pid : Nat) (p : Plot) : RestartOnly d (d.restarted pid p) :=
  ((squashPlot_restartOnly d pid p true).trans (updPlot_restartOnly ..)).trans (updPlot_restartOnly ..)

theorem core_restarted (d : Dev) (pid : Nat) (p : Plot) (n : Nat) :
    (d.restarted pid p).core n = (squashCores d p true).core n := by
  rw [Dev.restarted, core_updPlot, core_updPlot, core_squashPlot]

/-- What a stopped plot sends to the next device of its chain (R281, R477). -/
def sendStopped (d : Dev) (pid : Nat) : Dev :=
  match d.plot pid with
  | some p => sendRestart d pid p
  | none => d

theorem startRestart_eq (d : Dev) (pid : Nat) (p : Plot) :
    startRestart d pid p = sendStopped ((restartGraft (squashPlot d pid p true) pid).updPlot pid Plot.stop) pid := by
  unfold startRestart Plot.stop
  dsimp only
  generalize (restartGraft (squashPlot d pid p true) pid).updPlot pid _ = e
  rfl

/-- A plot whose chain ends here waits for no other device (R474). -/
theorem waitUnreached_of_whole {p : Plot} (he : p.endsHere = true) (d : Dev) (pid : Nat) : waitUnreached d pid p = d := by
  rw [waitUnreached, Plot.reachable, he]
  rfl

section
variable {d : Dev} {pid : Nat} {p : Plot} (hp : d.plot pid = some p)
include hp

theorem sendStopped_of_whole (he : p.endsHere = true) : sendStopped d pid = d := by
  simp only [sendStopped, hp, sendRestart, he, if_true]

/-- With no graft in progress, a restart moves the switch points of the last one (R280, R281). -/
theorem restartGraft_of_none (hg : p.graft = none) : restartGraft d pid = d.updPlot pid Plot.moveLast := by
  simp only [restartGraft, hp, hg]

theorem restartGraft_squashPlot (hg : p.graft = none) (reds : Bool) :
    restartGraft (squashPlot d pid p reds) pid = (squashPlot d pid p reds).updPlot pid Plot.moveLast :=
  restartGraft_of_none (plot_squashPlot hp reds) hg

/-- The plot is squashed, its graft's switch points moved, and it stands stopped (R281, R426). -/
theorem plot_restarted : (d.restarted pid p).plot pid = some p.squashed.moveLast.stop := by
  rw [Dev.restarted, Dev.plot_updPlot, Dev.plot_updPlot, plot_squashPlot hp, Option.map_some, Option.map_some]

/-- A restart of a plot whose chain this device holds whole sends nothing on (R426, R477). -/
theorem headRestart_of_whole (hr : p.restart = .none) (hg : p.graft = none) (he : p.endsHere = true) :
    headRestart d pid p = d.restarted pid p := by
  have hends : p.squashed.moveLast.stop.endsHere = true := by
    change (p.squashed.moveLast.lay.nextDevice == 0xFFFF) = true
    rw [Plot.moveLast_lay]
    exact he
  rw [headRestart, if_pos hr, startRestart_eq, restartGraft_squashPlot hp hg, ← Dev.restarted,
    sendStopped_of_whole (plot_restarted hp) hends, waitUnreached_of_whole he]

end

/-! ### A replay -/

/-- A record of the replay buffer passed to its head again (R81, R427). -/
def passAgain (hs : List Nat) (rs : List Rec) (d : Dev) (i : Nat) : Dev :=
  match hs[i % max 1 hs.length]?, rs[i]? with
  | some h, some r => d.updCore h fun c => { c with headQueue := c.headQueue ++ [.record r] }
  | _, _ => d

/-- The plot after its records are passed to its heads again: the rotation stands behind the last of them (R81, R427). -/
def Plot.replayed (rs : List Rec) (p : Plot) : Plot :=
  { p with replay := rs, rotHead := rs.length % max 1 p.heads.length, restart := .none }

theorem replayAll_eq (d : Dev) (pid : Nat) (p : Plot) (rs : List Rec) :
    replayAll d pid p rs = (tab rs.length id).foldl (passAgain p.heads rs) (d.setPlot pid (p.replayed rs)) := rfl

theorem passAgain_coresOnly (hs : List Nat) (rs : List Rec) (d : Dev) (i : Nat) : CoresOnly d (passAgain hs rs d i) := by
  unfold passAgain; split <;> rfl

theorem replayAll_coresOnly (d : Dev) (pid : Nat) (p : Plot) (rs : List Rec) :
    CoresOnly (d.setPlot pid (p.replayed rs)) (replayAll d pid p rs) := by
  rw [replayAll_eq]
  exact List.foldlRecOn (motive := CoresOnly _) _ _ rfl fun _ he _ _ => he.trans (passAgain_coresOnly ..)

/-- Each record goes to the head that the rotation gives its place, and stays in that head's input (R81, R427). -/
theorem mem_headQueue_replayAll {p : Plot} {rs : List Rec} {i h : Nat} {r : Rec} (hr : rs[i]? = some r)
    (hh : p.heads[i % max 1 p.heads.length]? = some h) (d : Dev) (pid : Nat) :
    .record r ∈ ((replayAll d pid p rs).core h).headQueue := by
  have hi : i ∈ tab rs.length id := by
    obtain ⟨hlt, -⟩ := List.getElem?_eq_some_iff.mp hr
    exact List.mem_map.mpr ⟨i, List.mem_range.mpr hlt, rfl⟩
  rw [replayAll_eq]
  refine foldl_of_mem (P := fun e : Dev => .record r ∈ (e.core h).headQueue) hi (fun e => ?_) (fun e j he => ?_) _
  · simp [passAgain, hh, hr]
  · unfold passAgain
    split
    next k _ _ _ =>
      by_cases hk : h = k
      · subst hk
        rw [Dev.core_updCore]
        exact List.mem_append_left _ he
      · rwa [Dev.core_updCore_other _ hk]
    next => exact he

/-- A replay that finds every entry good passes the replay buffer on as it stands (R427). -/
theorem replayPlot_clean (d : Dev) (pid : Nat) (p : Plot) :
    replayPlot d pid p [] [] = replayAll (noteReplayed d p.replay) pid p p.replay := by
  have hrec (i : Nat) : replayRec [] [] i = id := rfl
  have hrs : ((tab p.replay.length id).filterMap fun i => (p.replay[i]?).map (replayRec [] [] i)) = p.replay := by
    simp only [tab, List.map_id, hrec, Option.map_id_fun, id]
    exact filterMap_getElem?_range p.replay
  have hbad : (p.replay.zipIdx.filter fun x => ([] : List Nat).contains x.2) = [] :=
    List.filter_eq_nil_iff.mpr fun _ _ => Bool.false_ne_true
  unfold replayPlot
  dsimp only
  rw [hrs, hbad, List.foldl_nil]

/-- Every batch one of whose records is replayed is marked (R436). -/
theorem fencedRec_noteReplayed {d : Dev} {rs : List Rec} {f : Feed} (hf : f ∈ (noteReplayed d rs).feeds)
    (hr : ∃ r ∈ rs, r.src = f.src) : f.fencedRec = true := by
  obtain ⟨r, hr, hsrc⟩ := hr
  obtain ⟨g, -, rfl⟩ := List.mem_map.mp hf
  by_cases hany : rs.any (fun r => r.src = g.src) = true
  · rw [if_pos hany]
  · rw [if_neg hany] at hsrc
    exact absurd (List.any_eq_true.mpr ⟨r, hr, by simpa using hsrc⟩) hany

/-- A replay changes the cores, the plot and the feeds alone (R427, R436). -/
theorem replayAll_noteReplayed (d : Dev) (pid : Nat) (p : Plot) (rs : List Rec) :
    let e := replayAll (noteReplayed d rs) pid p rs
    e = { d with cores := e.cores, plots := e.plots, feeds := e.feeds } ∧ e.plot pid = some (p.replayed rs) ∧
      e.feeds = (noteReplayed d rs).feeds := by
  have hcores := replayAll_coresOnly (noteReplayed d rs) pid p rs
  dsimp only
  generalize replayAll (noteReplayed d rs) pid p rs = e at hcores
  exact ⟨by rw [hcores]; rfl, (hcores.plot_eq pid).trans (Dev.plot_setPlot ..), by rw [hcores]; rfl⟩

/-- The record itself is replayed, with a status where its entry fails a check (R417, R419, R427). -/
theorem replayRec_spec (i : Nat) (bad ecc : List Nat) (r : Rec) :
    (replayRec bad ecc i r).payload = r.payload ∧ (replayRec bad ecc i r).seq = r.seq ∧
      (replayRec bad ecc i r).status = if i ∈ ecc then stEcc else if i ∈ bad then stCheckValue else r.status := by
  simp only [replayRec, List.contains_iff_mem]
  split
  · exact ⟨rfl, rfl, rfl⟩
  split <;> exact ⟨rfl, rfl, rfl⟩

/-! ### The commands -/

section
variable {d : Dev} {pid : Nat} {p : Plot}

/-- A restart that waits at the device that heads the plot (R426). -/
theorem plotRestart_of_head (hw : d.restartWait.contains pid = true) (hp : d.plot pid = some p) (hs : p.startsHere = true) :
    plotRestart pid d = headRestart { d with restartWait := d.restartWait.filter (· ≠ pid) } pid p := by
  rw [plotRestart, hw, if_neg (by decide)]
  simp only [hp, hs, if_true]

/-- A stopped plot with nothing left to wait for is replayed (R427, R428). -/
theorem plotReplay_of_stopped (hp : d.plot pid = some p) (hr : p.restart = .stopped false false) (hs : p.startsHere = true)
    (hreach : p.reachable d = true) (bad ecc : List Nat) : plotReplay pid bad ecc d = replayPlot d pid p bad ecc := by
  simp [plotReplay, hp, hr, hs, hreach]

theorem plotReplay_of_running (hp : d.plot pid = some p) (hr : p.restart = .none) (bad ecc : List Nat) :
    plotReplay pid bad ecc d = d := by
  simp [plotReplay, hp, hr]

end

section
variable {d : Dev} {pn : Nat} {u : RxUnit} {p : Plot}

/-- The tail of a chain answers a Restart unit with Restart done (R477). -/
theorem restartUnit_of_tail (hu : (d.port pn).rxOf 3 = some u) (hp : d.plot u.plot = some p)
    (hr : p.restart ≠ .stopped true false) (he : p.endsHere = true) :
    let e := restartGraft (squashPlot (d.takeUnit pn u) u.plot p true) u.plot
    restartUnit pn d = Dev.deliverPort
      (sendUnit { e with restartWait := e.restartWait.filter (· ≠ u.plot) } p.lay.prevDevice 15 u.plot []) pn := by
  have hgo : (p.restart == .stopped true false) = false := beq_eq_false_iff_ne.mpr hr
  simp only [restartUnit, hu, hp, hgo, he, if_neg Bool.false_ne_true, if_true]

/-- Restart done lets the head device of a stopped plot replay (R477). -/
theorem restartDone_of_head {f r : Bool} (hu : (d.port pn).rxOf 15 = some u) (hp : d.plot u.plot = some p)
    (hs : p.startsHere = true) (hr : p.restart = .stopped f r) :
    restartDone pn d = (d.takeUnit pn u).setPlot u.plot { p with restart := .stopped f false } := by
  have hplot : (d.takeUnit pn u).plot u.plot = some p := by rw [takeUnit_frame]; exact hp
  simp only [restartDone, hu, hplot, hs, Bool.not_true, if_neg Bool.false_ne_true, Dev.updPlot, hr]

/-- Another device passes it on (R477). -/
theorem restartDone_of_later (hu : (d.port pn).rxOf 15 = some u) (hp : d.plot u.plot = some p) (hs : p.startsHere = false) :
    restartDone pn d = sendUnit (d.takeUnit pn u) p.lay.prevDevice 15 u.plot [] := by
  have hplot : (d.takeUnit pn u).plot u.plot = some p := by rw [takeUnit_frame]; exact hp
  simp only [restartDone, hu, hplot, hs, Bool.not_false, if_true]

end

end Sys2Proof.Machine

namespace Sys2Proof.Proofs
open Sys2Proof.Machine Sys2Proof.Safety

/-- Settles O59: a restart is a run over the plot's cores, then its ports, then the plot itself; a replay is a run over the replay buffer,
whose every step keeps what the earlier ones put into a head's input (`foldl_of_mem`); the units act as their definitions say, once
the plot is known to be the head's, the tail's, or another device's. -/
theorem restarts : Obligations.Restarts := by
  unfold Obligations.Restarts
  refine ⟨⟨fun pid p s hl hw hp hs he hr hg => ?restart, fun pid s hw => onDev_same (if_pos (by rw [hw]; rfl)),
      fun pid p s hl hp hr hs hreach => ?replay, fun pid bad ecc p s hp hr => onDev_same (plotReplay_of_running hp hr bad ecc),
      replayRec_spec⟩,
    fun pid i u p s hl hu hp => ⟨fun hs => ?head, fun hs => ?between⟩, fun pid s hu => onDev_same (by rw [restartRequest, hu]),
    fun q u p s hl hu hp hr hg he => ⟨(onDev_live hl).trans (by rw [restartUnit_of_tail hu hp hr he]), fun n hn hf => ?squashed⟩,
    fun q u p f r s hl hu hp => ⟨fun hs hr => (onDev_live hl).trans (by rw [restartDone_of_head hu hp hs hr]),
      fun hs => (onDev_live hl).trans (by rw [restartDone_of_later hu hp hs])⟩⟩
  case restart =>
    let e : Dev := { s.dev with restartWait := s.dev.restartWait.filter (· ≠ pid.val) }
    have hplot : e.plot pid.val = some p := hp
    have hexec : exec (.plotRestart pid) s = .next (withDev s (e.restarted pid.val p)) :=
      (onDev_live hl).trans (by rw [plotRestart_of_head hw hp hs, headRestart_of_whole hplot hr hg he])
    have hframe : RestartOnly e (e.restarted pid.val p) := restarted_restartOnly ..
    have hstopped := plot_restarted hplot
    have hcore := core_restarted e pid.val p
    generalize e.restarted pid.val p = f at hexec hframe hstopped hcore
    refine ⟨_, _, hexec, congrArg (withDev s) hframe, hstopped, Plot.stop_squashed hs he, fun n hn hf => ?_,
      fun n hn => (hcore n).trans (core_squashCores_other (d := e) hn true)⟩
    dsimp only
    rw [hcore n]
    exact core_squashCores (d := e) hn hf true
  case replay =>
    have hexec : exec (.plotReplay pid [] []) s = .next (withDev s (replayAll (noteReplayed s.dev p.replay) pid.val p p.replay)) :=
      (onDev_live hl).trans (by rw [plotReplay_of_stopped hp hr hs hreach, replayPlot_clean])
    obtain ⟨hframe, hplot, hfeeds⟩ := replayAll_noteReplayed s.dev pid.val p p.replay
    refine ⟨_, _, hexec, congrArg (withDev s) hframe, hplot, rfl, fun i r h hi hh => mem_headQueue_replayAll hi hh _ _,
      fun f hf hsrc => fencedRec_noteReplayed (hfeeds ▸ hf) hsrc⟩
  case head => exact (onDev_live hl).trans (by simp only [restartRequest, hu, hp, hs, Bool.not_true, if_neg Bool.false_ne_true])
  case between => exact (onDev_live hl).trans (by simp only [restartRequest, hu, hp, hs, Bool.not_false, if_true])
  case squashed =>
    have hplot : (s.dev.takeUnit q.val u).plot u.plot = some p := by rw [takeUnit_frame]; exact hp
    have hfenced : ((s.dev.takeUnit q.val u).core n).fenced = false := by rw [takeUnit_frame]; exact hf
    obtain ⟨hctxs, hqueue, -, -⟩ := core_squashCores hn hfenced true
    rw [restartGraft_squashPlot hplot hg, core_updPlot, core_squashPlot]
    exact ⟨hctxs, hqueue⟩

end Sys2Proof.Proofs
end

section
/-! SUPPORT. How a frame enters its plot: what the refill of its tasks and the end of a turn leave alone, and what the record changes. -/
namespace Sys2Proof.Machine
open Sys2Proof.Safety

/-! ### Tasks refilled -/

/-- Only what a task takes from a record port touches differs: the ports, the feeds and the channels. -/
def RefillOnly (d e : Dev) : Prop := e = { d with ports := e.ports, feeds := e.feeds, chans := e.chans }

theorem RefillOnly.trans {d e f : Dev} (h : RefillOnly d e) (k : RefillOnly e f) : RefillOnly d f := by
  unfold RefillOnly at *; rw [k, h]

theorem refill_refillOnly (d : Dev) (f : Feed) : RefillOnly d (refill d f) := by
  unfold refill
  split
  · rfl
  split
  · rfl
  split
  · rfl
  dsimp only
  split <;> rfl

theorem refillPlot_refillOnly (d : Dev) (pid : Nat) : RefillOnly d (refillPlot d pid) :=
  List.foldlRecOn (motive := RefillOnly d) _ _ rfl fun _ he _ _ => he.trans (refill_refillOnly ..)

/-! ### A turn that ends -/

/-- Only the plots differ. -/
def PlotsOnly (d e : Dev) : Prop := e = { d with plots := e.plots }

section
variable {d e : Dev} (h : PlotsOnly d e)
include h

theorem PlotsOnly.frameHeader_eq (env : Env) (f : Feed) : frameHeader e env f = frameHeader d env f := by rw [h]; rfl

theorem PlotsOnly.framePayload_eq (env : Env) (f : Feed) (n : Nat) : framePayload e env f n = framePayload d env f n := by rw [h]; rfl

theorem PlotsOnly.arbitrate_eq (pid : Nat) (p : Plot) : arbitrate e pid p = arbitrate d pid p := by rw [h]; rfl

end

/-- A plot with `m` records left in the turn of its stream. -/
def Plot.withTurn (m : Nat) (p : Plot) : Plot := { p with arbLeft := m }

section
variable {d : Dev} {pid : Nat} {p : Plot} (hp : d.plot pid = some p)
include hp

/-- A turn ends where its stream has no header ready, and only then (R380). -/
theorem endTurn_cases :
    endTurn d pid = d ∨ (readyStream d pid p.arbStream = none ∧ endTurn d pid = d.setPlot pid (p.withTurn 0)) := by
  unfold endTurn
  rw [hp]
  dsimp only
  split
  next h =>
    rw [Bool.and_eq_true, Option.isNone_iff_eq_none] at h
    exact .inr ⟨h.2, rfl⟩
  next => exact .inl rfl

theorem endTurn_plotsOnly : PlotsOnly d (endTurn d pid) := by
  rcases endTurn_cases hp with h | ⟨-, h⟩ <;> rw [h] <;> rfl

/-- The plot as it stands once a turn that is due to end has ended: the same but for what is left of its turn, and the same
stream's turn comes (R380). -/
theorem plot_endTurn : ∃ m, (endTurn d pid).plot pid = some (p.withTurn m) ∧
    arbitrate (endTurn d pid) pid (p.withTurn m) = arbitrate d pid p := by
  simp only [(endTurn_plotsOnly hp).arbitrate_eq]
  rcases endTurn_cases hp with h | ⟨hnone, h⟩
  · exact ⟨p.arbLeft, by rw [h, hp]; rfl, rfl⟩
  · refine ⟨0, by rw [h, Dev.plot_setPlot], ?_⟩
    have hturn : (if 0 < p.arbLeft then readyStream d pid p.arbStream else none) = none := by rw [hnone, ite_self]
    unfold arbitrate
    rw [hturn]
    rfl

end

/-! ### A frame taken -/

/-- The stream that a plot at its entry gives a frame of, when its head has room (R21, R81, R380). -/
theorem ingressFrame_eq {d : Dev} {pid left : Nat} {p : Plot} {f : Feed} (hp : d.plot pid = some p) (ho : p.open' = true)
    (hr : headRoom d p = true) (ha : arbitrate (refillPlot d pid) pid p = some (f, left)) (env : Env) :
    ingressFrame pid env d = takeFrame (endTurn (refillPlot d pid) pid) env pid ((p.first.getD 0) / 64) f left true := by
  have hrefill := refillPlot_refillOnly d pid
  have hplot : (refillPlot d pid).plot pid = some p := by rw [hrefill]; exact hp
  obtain ⟨m, hturn, harb⟩ := plot_endTurn hplot
  have hroom : headRoom (endTurn (refillPlot d pid) pid) (p.withTurn m) = true := by
    rw [endTurn_plotsOnly hplot, hrefill]
    exact hr
  have hopen : (p.withTurn m).open' = true := ho
  have hany : (d.plot pid).any Plot.open' = true := by rw [hp]; exact ho
  unfold ingressFrame
  rw [if_pos hany]
  simp only [hturn, hopen, hroom, harb, ha, Bool.not_true, Bool.or_self, if_neg Bool.false_ne_true]
  rfl

/-- A frame that keeps R77 lies in its container. -/
theorem not_room_lt_of_valid {h : Bytes} {room : Nat} (hv : frameInvalid h room = false) : ¬room < frameBytes (field h 2 2) := by
  simp only [frameInvalid, Bool.or_eq_false_iff, decide_eq_false_iff_not] at hv
  exact hv.2

section
variable {d : Dev} {env : Env} {f : Feed} {h b : Bytes} {room k : Nat} (hh : frameHeader d env f = .ok (h, room))
  (hv : frameInvalid h room = false)
include hh hv

/-- A frame that the replay buffer has no room for waits (R29). -/
theorem takeFrame_of_full (hfull : replaySize < replayUsed d k + frameBytes (field h 2 2)) (pid left : Nat) :
    takeFrame d env pid k f left true = d := by
  simp only [takeFrame, hh, if_neg (not_room_lt_of_valid hv), decide_eq_true hfull, Bool.and_self, if_true]

/-- A frame that it has room for passes on, with its payload's ECV and the status of its check (R77 to R80). -/
theorem takeFrame_of_room (hroom : replayUsed d k + frameBytes (field h 2 2) ≤ replaySize)
    (hb : framePayload d env f (field h 2 2) = .ok b) (hgood : replayBufferBad env k = false) (pid left : Nat) :
    takeFrame d env pid k f left true = passFrame d pid f left h room (frameStatus h b room) b (crc32c b) := by
  simp only [takeFrame, hh, if_neg (not_room_lt_of_valid hv), decide_eq_false (Nat.not_lt.mpr hroom), Bool.and_false, hb, hgood,
    if_neg Bool.false_ne_true]

end

/-! ### The replay buffer -/

/-- The bytes that a plot keeps in the replay buffer of a cluster (R29, R30). -/
def Plot.replayBytes (k : Nat) (p : Plot) : Nat :=
  if (p.first.getD 0) / 64 = k then (p.replay.map Rec.bytes).sum else 0

/-- The bytes that the plots of a table keep. -/
def replayBytesIn (k : Nat) (t : Tbl (Option Plot)) : Nat :=
  ((t.filterMap fun x => x.2.map fun p => (x.1, p)).map fun x => x.2.replayBytes k).sum

theorem replayUsed_eq (d : Dev) (k : Nat) : replayUsed d k = replayBytesIn k d.plots := rfl

theorem replayBytesIn_none (k i : Nat) (t : Tbl (Option Plot)) : replayBytesIn k ((i, none) :: t) = replayBytesIn k t := rfl

theorem replayBytesIn_some (k i : Nat) (p : Plot) (t : Tbl (Option Plot)) :
    replayBytesIn k ((i, some p) :: t) = p.replayBytes k + replayBytesIn k t := rfl

/-- In a table in canonical form a plot has one entry, and a plot of the same bytes in its place changes no total. -/
theorem replayBytesIn_ins {k i m : Nat} {p q : Plot} {t : Tbl (Option Plot)} (hw : Tbl.wfFrom none m t = true)
    (hp : Tbl.get none i t = some p) (hq : q.replayBytes k = p.replayBytes k) :
    replayBytesIn k (Tbl.ins i (some q) t) = replayBytesIn k t := by
  induction t generalizing m with
  | nil => exact nomatch hp
  | cons x t ih =>
    obtain ⟨j, v⟩ := x
    simp only [Tbl.wfFrom, Bool.and_eq_true] at hw
    obtain ⟨-, hrest⟩ := hw
    simp only [Tbl.get] at hp
    unfold Tbl.ins
    split
    next hij =>
      rw [if_pos hij] at hp
      rw [hp, replayBytesIn_some, replayBytesIn_some, hq]
    next hij =>
      rw [if_neg hij] at hp
      split
      next hlt => exact nomatch (Tbl.get_below none hrest (Nat.lt_succ_of_lt hlt)).symm.trans hp
      next =>
        cases v with
        | none => rw [replayBytesIn_none, replayBytesIn_none, ih hrest hp]
        | some w => rw [replayBytesIn_some, replayBytesIn_some, ih hrest hp]

/-- Where the plots' table is in canonical form, the end of a turn leaves what the replay buffers hold (R29, R380). -/
theorem replayUsed_endTurn {d : Dev} {pid : Nat} {p : Plot} (hp : d.plot pid = some p) (hw : Tbl.wf none d.plots = true) (k : Nat) :
    replayUsed (endTurn d pid) k = replayUsed d k := by
  rcases endTurn_cases hp with h | ⟨-, h⟩
  · rw [h]
  · rw [h, replayUsed_eq, replayUsed_eq, Dev.setPlot_plots, Tbl.set, if_neg (Option.some_ne_none _)]
    exact replayBytesIn_ins (q := p.withTurn 0) hw hp rfl

/-! ### A record entered -/

/-- The record that a stream's next frame becomes (R77 to R80). -/
def Feed.record (f : Feed) (n next : Nat) (h : Bytes) (st : Status) (payload : Bytes) (ecv : Nat) : Rec :=
  { src := f.src, stream := n, seq := next, tag := field h 4 4, ecv := ecv, status := st, payload := payload
    q := (next + 2 ^ 32 - f.firstSeq) % 2 ^ 32 }

/-- A plot after a stream has numbered a record, with `left` records of its turn left before (R373, R380). -/
def Plot.numbered (p : Plot) (n left : Nat) : Plot :=
  let s := Tbl.get {} n p.streams
  { p with streams := Tbl.set {} n { s with next := (s.next + 1) % 2 ^ 32 } p.streams, arbStream := n, arbLeft := left - 1 }

/-- A plot after a record takes its place in the replay buffer and the rotation goes on (R81). -/
def Plot.entered (r : Rec) (p : Plot) : Plot :=
  { p with replay := p.replay ++ [r], rotHead := (p.rotHead + 1) % max 1 p.heads.length }

/-- A record put at the end of a head's input, where there is one whose turn it is (R81). -/
def Dev.queueRecord (d : Dev) (h : Option Nat) (r : Rec) : Dev :=
  match h with
  | none => d
  | some h => d.updCore h fun c => { c with headQueue := c.headQueue ++ [.record r] }

theorem Dev.queueRecord_coresOnly (d : Dev) (h : Option Nat) (r : Rec) : CoresOnly d (d.queueRecord h r) := by
  cases h <;> rfl

/-- One plot stands at its entry as another: the same records wait, the same head's turn comes, and each stream has the same next
number. -/
def Plot.EntryAs (p q : Plot) : Prop :=
  q.replay = p.replay ∧ q.rotHead = p.rotHead ∧
    ∀ n, (Tbl.get {} n q.streams : Stream).next = (Tbl.get {} n p.streams : Stream).next

/-- A stream number given back keeps its counter (R373). -/
theorem Plot.freeStream_entryAs (p : Plot) (n : Nat) : p.EntryAs (p.freeStream n) := by
  refine ⟨rfl, rfl, fun m => ?_⟩
  have hfreed : (p.freeStream n).streams = Tbl.upd {} n (fun s => { s with src := none, slice := 4096 }) p.streams := rfl
  rw [hfreed]
  by_cases hm : m = n
  · rw [hm, Tbl.get_upd_self]
  · rw [Tbl.get_upd_other _ hm]

/-- Where the intake of a feed ends, the plots stand at their entries as before, and memory and cores stand (R373, R374). -/
theorem endIntake_spec {d : Dev} {pid : Nat} {p : Plot} (hp : d.plot pid = some p) (g : Feed) :
    (∃ q, (endIntake d g).plot pid = some q ∧ p.EntryAs q) ∧ (endIntake d g).mem = d.mem ∧ (endIntake d g).cores = d.cores := by
  unfold endIntake
  split
  next n _ _ =>
    refine ⟨?_, by unfold Dev.updPlot; split <;> rfl, by unfold Dev.updPlot; split <;> rfl⟩
    by_cases hg : pid = g.plot
    · subst hg
      exact ⟨p.freeStream n, by change (d.updPlot _ _).plot _ = _; rw [Dev.plot_updPlot, hp]; rfl, p.freeStream_entryAs n⟩
    · refine ⟨p, ?_, rfl, rfl, fun _ => rfl⟩
      change (d.updPlot g.plot _).plot pid = some p
      unfold Dev.updPlot
      split
      · exact hp
      · rw [Dev.plot_setPlot_other _ hg]; exact hp
  next => exact ⟨⟨p, hp, rfl, rfl, fun _ => rfl⟩, rfl, rfl⟩

section
variable {d : Dev} {pid : Nat} {p : Plot} (hp : d.plot pid = some p)
include hp

theorem enterRecord_eq (r : Rec) :
    enterRecord d pid r = (d.setPlot pid (p.entered r)).queueRecord p.heads[p.rotHead]? r := by
  unfold enterRecord
  rw [hp]
  rfl

theorem plot_enterRecord (r : Rec) : (enterRecord d pid r).plot pid = some (p.entered r) := by
  rw [enterRecord_eq hp, (Dev.queueRecord_coresOnly ..).plot_eq, Dev.plot_setPlot]

theorem mem_enterRecord (r : Rec) : (enterRecord d pid r).mem = d.mem := by
  rw [enterRecord_eq hp, Dev.queueRecord_coresOnly]
  rfl

/-- The record stands last in the input of the head whose turn it is (R81). -/
theorem headQueue_enterRecord {c : Nat} (hc : p.heads[p.rotHead]? = some c) (r : Rec) :
    ((enterRecord d pid r).core c).headQueue = (d.core c).headQueue ++ [.record r] := by
  rw [enterRecord_eq hp, hc, Dev.queueRecord, Dev.core_updCore, Dev.core_setPlot]

/-- A frame passed on is a record entered, once its stream has numbered it and its feed and channel are past it; the intake of
the feed may end with it (R77 to R81). -/
theorem passFrame_cases {f : Feed} {n : Nat} (hf : f.stream = some n) (left : Nat) (h : Bytes) (room : Nat) (st : Status) (b : Bytes)
    (ecv : Nat) : ∃ fs cs,
      let e := enterRecord { d.setPlot pid (p.numbered n left) with feeds := fs, chans := cs } pid
        (f.record n (Tbl.get {} n p.streams : Stream).next h st b ecv)
      passFrame d pid f left h room st b ecv = e ∨ ∃ g, passFrame d pid f left h room st b ecv = endIntake e g := by
  unfold passFrame
  rw [hp, hf]
  dsimp only
  generalize he : ((d.setPlot pid _).updFeed f.src _).updChan f.chan _ = e
  have hnumbered : e = { d.setPlot pid (p.numbered n left) with feeds := e.feeds, chans := e.chans } := by rw [← he]; rfl
  refine ⟨e.feeds, e.chans, ?_⟩
  rw [← hnumbered]
  split
  · split
    · exact .inr ⟨_, rfl⟩
    · exact .inl rfl
  · exact .inl rfl

end

/-- What a frame that the ingress unit passes on makes of its plot and of the head whose turn it is (R77 to R81). -/
theorem passFrame_spec {d : Dev} {pid n : Nat} {p : Plot} {f : Feed} (hp : d.plot pid = some p) (hf : f.stream = some n)
    (left : Nat) (h : Bytes) (room : Nat) (st : Status) (b : Bytes) (ecv : Nat) :
    let e := passFrame d pid f left h room st b ecv
    let next := (Tbl.get {} n p.streams : Stream).next
    let r := f.record n next h st b ecv
    e.mem = d.mem ∧ (∃ q, e.plot pid = some q ∧ q.replay = p.replay ++ [r] ∧ q.rotHead = (p.rotHead + 1) % max 1 p.heads.length ∧
      (Tbl.get {} n q.streams : Stream).next = (next + 1) % 2 ^ 32) ∧
    ∀ c, p.heads[p.rotHead]? = some c → (e.core c).headQueue = (d.core c).headQueue ++ [.record r] := by
  obtain ⟨fs, cs, hcases⟩ := passFrame_cases hp hf left h room st b ecv
  let g : Dev := { d.setPlot pid (p.numbered n left) with feeds := fs, chans := cs }
  have hg : g.plot pid = some (p.numbered n left) := Dev.plot_setPlot ..
  have hnext : (Tbl.get {} n (p.numbered n left).streams : Stream).next = ((Tbl.get {} n p.streams : Stream).next + 1) % 2 ^ 32 := by
    rw [Plot.numbered, Tbl.get_set_self]
  let r := f.record n (Tbl.get {} n p.streams : Stream).next h st b ecv
  have hplot := plot_enterRecord hg r
  have hmem := mem_enterRecord hg r
  have hqueue {c : Nat} (hc : p.heads[p.rotHead]? = some c) := headQueue_enterRecord hg (c := c) hc r
  dsimp only at hcases ⊢
  rcases hcases with he | ⟨x, he⟩
  · rw [he]
    exact ⟨hmem, ⟨_, hplot, rfl, rfl, hnext⟩, fun c hc => hqueue hc⟩
  · obtain ⟨⟨q, hq, hreplay, hrot, hstreams⟩, hmem', hcores⟩ := endIntake_spec hplot x
    rw [he]
    refine ⟨hmem'.trans hmem, ⟨q, hq, hreplay, hrot, (hstreams n).trans hnext⟩, fun c hc => ?_⟩
    rw [Dev.core, hcores]
    exact hqueue hc

/-- What `Obligations.FrameEnters` says of one state. -/
def FrameEntersAt (s : State) : Prop :=
  ∀ (pid : Fin 256) (env : Env) (p : Plot) (f : Feed) (left n room : Nat) (h b : Bytes), s.live = true →
    s.dev.plot pid.val = some p → p.open' = true → arbitrate (refillPlot s.dev pid.val) pid.val p = some (f, left) →
    f.stream = some n → headRoom s.dev p = true →
    frameHeader (refillPlot s.dev pid.val) env f = .ok (h, room) → frameInvalid h room = false →
    replayUsed (refillPlot s.dev pid.val) ((p.first.getD 0) / 64) + frameBytes (field h 2 2) ≤ replaySize →
    framePayload (refillPlot s.dev pid.val) env f (field h 2 2) = .ok b → replayBufferBad env ((p.first.getD 0) / 64) = false →
    let seq := (Tbl.get {} n p.streams : Stream).next
    ∃ t q r, Machine.exec (.ingressFrame pid env) s = .next t ∧ t.mc = s.mc ∧ t.pending = s.pending ∧ t.dev.mem = s.dev.mem ∧
      t.dev.plot pid.val = some q ∧ q.replay = p.replay ++ [r] ∧ q.rotHead = (p.rotHead + 1) % max 1 p.heads.length ∧
      (Tbl.get {} n q.streams : Stream).next = (seq + 1) % 2 ^ 32 ∧
      r.src = f.src ∧ r.stream = n ∧ r.seq = seq ∧ r.tag = field h 4 4 ∧ r.payload = b ∧ r.ecv = crc32c b ∧
      r.status = (if bit (field h 12 2) 0 = true ∧ field h 8 4 ≠ crc32c b then stEntryCheck else 0) ∧
      (∀ c, p.heads[p.rotHead]? = some c → (t.dev.core c).headQueue = (s.dev.core c).headQueue ++ [.record r])

theorem frameEnters_iff : Obligations.FrameEnters ↔ ∀ s, FrameEntersAt s :=
  ⟨fun h s pid env p f left n room hd b => h pid env p f left n room hd b s,
    fun h pid env p f left n room hd b s => h s pid env p f left n room hd b⟩

/-- A valid frame's status is that of its check (R77, R80). -/
theorem frameStatus_of_valid {h : Bytes} {room : Nat} (hv : frameInvalid h room = false) (b : Bytes) : frameStatus h b room =
    if bit (field h 12 2) 0 = true ∧ field h 8 4 ≠ crc32c b then stEntryCheck else 0 := by
  simp only [frameStatus, hv, if_neg Bool.false_ne_true, Bool.and_eq_true, bne_iff_ne]

/-- Where the plots' table is in canonical form, a frame enters as the statement says (R77 to R81, R373, R427). -/
theorem frameEntersAt_of_wf {s : State} (hw : Tbl.wf none s.dev.plots = true) : FrameEntersAt s := by
  intro pid env p f left n room h b hl hp ho ha hn hr hh hv hroom hb hgood
  have hrefill := refillPlot_refillOnly s.dev pid.val
  have hplot : (refillPlot s.dev pid.val).plot pid.val = some p := by rw [hrefill]; exact hp
  have hplots : (refillPlot s.dev pid.val).plots = s.dev.plots := by rw [hrefill]
  have hturn := endTurn_plotsOnly hplot
  obtain ⟨m, hm, -⟩ := plot_endTurn hplot
  have hexec : exec (.ingressFrame pid env) s = .next (withDev s
      (passFrame (endTurn (refillPlot s.dev pid.val) pid.val) pid.val f left h room (frameStatus h b room) b (crc32c b))) := by
    refine (onDev_live hl).trans ?_
    rw [ingressFrame_eq hp ho hr ha, takeFrame_of_room ((hturn.frameHeader_eq env f).trans hh) hv
      (by rwa [replayUsed_endTurn hplot (hplots ▸ hw)]) ((hturn.framePayload_eq env f _).trans hb) hgood]
  obtain ⟨hmem, ⟨q, hq, hreplay, hrot, hnext⟩, hqueue⟩ :=
    passFrame_spec hm hn left h room (frameStatus h b room) b (crc32c b)
  refine ⟨_, q, _, hexec, rfl, rfl, hmem.trans (by rw [hturn, hrefill]), hq, hreplay, hrot, hnext, rfl, rfl, rfl, rfl, rfl, rfl,
    frameStatus_of_valid hv b, fun c hc => (hqueue c hc).trans ?_⟩
  rw [hturn, hrefill]
  rfl

/-! ### A table that is not in canonical form

The plots' table of a State may list its keys out of order. Such a table gives a plot's entry by its first match, and a write puts a second
entry in front of it: `replayUsed`, which adds up the entries, then counts the plot twice. So the turn that INGRESS_FRAME ends before it
looks for room can use up the room that the statement's hypothesis finds. -/

/-- A task's feed with an empty frame in front, on stream 0 of plot 0, fed by a record ring. -/
def emptyFrameFeed : Feed := {
  src := .task 0, chan := 0, plot := 0, stream := some 0, firstSeq := 0, taken := 0, accepted := 0, nonzero := 0, pos := 0, stop := 0
  queue := [(toLe 16 1, 0)], ended := false, eccHeader := false, linkLost := false, rowUnreadable := false, keyRange := false
  fencedRec := false, dst := 0, dstKind := 2, slotBytes := 0, entrySlice := 1, keyGather := none, residual := none, operand := none
  port := 16, udp := 0, holds := [], stopping := none, gated := false }

/-- A grove with nothing in it. -/
def emptyGrove : Grove := {
  info := {
    groveId := 0, version := 0, treeCount := 0, firstSlice := 0, sliceCount := 0, plotSlices := 0, fold := 0, outputs := 0, valueFmt := 0
    fxScale := 0, prune := false, leafToId := false, signed := false, threshold := 0, sense := 0, base := none, sieve := [], finish := [] }
  slices := [], imageBytes := 0 }

/-- An open plot whose turn is at stream 63, which has no feed; its replay buffer holds one record, with payload `b`. -/
def plotKeeping (b : Bytes) : Plot := {
  lay := { plotId := 0, coreCount := 0, firstEntry := 0, fold := 0, chainMode := 0, sumFmt := 0, partner := 0, prevDevice := 0xFFFF
           nextDevice := 0xFFFF, firstPosition := 0, plotCores := 0, entries := [] }
  activeGrove := some emptyGrove, arbStream := 63, arbLeft := 1
  replay := [{ src := .task 0, stream := 0, seq := 0, tag := 0, ecv := 0, status := 0, payload := b, q := 0 }] }

/-- A running device whose table of plots lists plot 1, which does not exist, in front of plot 0. -/
def unorderedPlots (b : Bytes) : State :=
  { mc := {}, pending := []
    dev := { err := { fatalState := 0 }, plots := [(1, none), (0, some (plotKeeping b))], feeds := [emptyFrameFeed] } }

theorem first_plotKeeping (b : Bytes) : (plotKeeping b).first = none := by
  simp [Plot.first, Plot.cores, plotKeeping]

theorem arbitrate_unorderedPlots (b : Bytes) :
    arbitrate (refillPlot (unorderedPlots b).dev 0) 0 (plotKeeping b) = some (emptyFrameFeed, 1) := by
  with_unfolding_all rfl

/-- The turn ends with a second entry of plot 0. -/
theorem endTurn_unorderedPlots (b : Bytes) : (endTurn (refillPlot (unorderedPlots b).dev 0) 0).plots =
    [(0, some ((plotKeeping b).withTurn 0)), (1, none), (0, some (plotKeeping b))] := rfl

section
variable {b : Bytes} (hb : b.length = 2 ^ 23)
include hb

/-- One record of 8 MiB fills more than half of the replay buffer. -/
theorem replayBytes_plotKeeping : (plotKeeping b).replayBytes 0 = 2 ^ 23 + 16 := by
  rw [Plot.replayBytes, first_plotKeeping]
  simp [plotKeeping, Rec.bytes, frameBytes, alignUp, hb]

theorem replayUsed_unorderedPlots : replayUsed (refillPlot (unorderedPlots b).dev 0) 0 = 2 ^ 23 + 16 :=
  replayBytes_plotKeeping hb

/-- After the turn's end the one record counts twice. -/
theorem replayUsed_endTurn_unorderedPlots :
    replayUsed (endTurn (refillPlot (unorderedPlots b).dev 0) 0) 0 = (2 ^ 23 + 16) + (2 ^ 23 + 16) := by
  have hkept : ((plotKeeping b).withTurn 0).replayBytes 0 = (plotKeeping b).replayBytes 0 := rfl
  have hnil : replayBytesIn 0 [] = 0 := rfl
  rw [replayUsed_eq, endTurn_unorderedPlots, replayBytesIn_some, replayBytesIn_none, replayBytesIn_some, hkept, hnil,
    replayBytes_plotKeeping hb]

/-- So the frame waits, and the turn's end is all that the command does. -/
theorem ingressFrame_unorderedPlots :
    ingressFrame 0 {} (unorderedPlots b).dev = endTurn (refillPlot (unorderedPlots b).dev 0) 0 := by
  have hplot : (unorderedPlots b).dev.plot 0 = some (plotKeeping b) := rfl
  have hheader : frameHeader (endTurn (refillPlot (unorderedPlots b).dev 0) 0) {} emptyFrameFeed = .ok (toLe 16 1, 16) := rfl
  rw [ingressFrame_eq hplot rfl rfl (arbitrate_unorderedPlots b), first_plotKeeping]
  exact takeFrame_of_full hheader (by decide) (by rw [Option.getD_none, Nat.zero_div, replayUsed_endTurn_unorderedPlots hb]; decide) 0 1

/-- The statement asks for the frame to enter, as there was room for it before the turn ended. -/
theorem not_frameEntersAt_unorderedPlots : ¬FrameEntersAt (unorderedPlots b) := by
  intro henters
  have hplot : (unorderedPlots b).dev.plot 0 = some (plotKeeping b) := rfl
  have hroom : replayUsed (refillPlot (unorderedPlots b).dev 0) (((plotKeeping b).first.getD 0) / 64) +
      frameBytes (field (toLe 16 1) 2 2) ≤ replaySize := by
    rw [first_plotKeeping, Option.getD_none, Nat.zero_div, replayUsed_unorderedPlots hb]
    decide
  obtain ⟨t, q, r, ht, -, -, -, hq, hreplay, -⟩ :=
    henters 0 {} (plotKeeping b) emptyFrameFeed 1 0 16 (toLe 16 1) [] rfl hplot rfl (arbitrate_unorderedPlots b) rfl rfl rfl
      (by decide) hroom rfl rfl
  have hexec : exec (.ingressFrame 0 {}) (unorderedPlots b) =
      .next (withDev (unorderedPlots b) (endTurn (refillPlot (unorderedPlots b).dev 0) 0)) :=
    (onDev_live rfl).trans (congrArg (fun d => Host.Outcome.next (withDev (unorderedPlots b) d)) (ingressFrame_unorderedPlots hb))
  obtain rfl := Host.Outcome.next.inj (hexec.symm.trans ht)
  obtain rfl : (plotKeeping b).withTurn 0 = q := Option.some.inj hq
  exact absurd hreplay (by simp [Plot.withTurn])

end

end Sys2Proof.Machine

namespace Sys2Proof.Proofs
open Sys2Proof.Machine Sys2Proof.Safety

/-- Refutes O45: in a state whose table of plots lists its keys out of order, ending a turn gives the plot a second entry, whose replay
bytes count again, so that a frame which has room before finds none (`not_frameEntersAt_unorderedPlots`). It holds of every state
whose table of plots is in canonical form (`frameEntersAt_of_wf`). -/
theorem not_frameEnters : ¬ Obligations.FrameEnters := by
  rw [frameEnters_iff]
  exact fun h => not_frameEntersAt_unorderedPlots (b := List.replicate (2 ^ 23) 0) List.length_replicate (h _)

end Sys2Proof.Proofs
end

section
/-! SUPPORT. One stage of a tree's descent (R152), by what the lane reads there. -/
namespace Sys2Proof.Machine

theorem flipWord_clean (rd w : Nat) : Upset.clean.flipWord rd w = w := rfl

theorem codeAt_clean (rd : Nat) : Upset.clean.codeAt rd = false := rfl

/-- The direction a node takes on a record's bins, INVERT applied: the path bit of its stage (R115, R152). -/
def Node.goesRight (n : Node) (bins : List Nat) : Bool := if at' 0 bins n.feature ≤ n.threshold then n.invert else !n.invert

/-- The model asks for the left child, and adds 0 or 1 to its index. -/
theorem childOffset_eq_goesRight (n : Node) (bins : List Nat) :
    (if (decide (at' 0 bins n.feature ≤ n.threshold) != n.invert) = true then 0 else 1) = b2n (n.goesRight bins) := by
  unfold Node.goesRight
  by_cases hle : at' 0 bins n.feature ≤ n.threshold
  · rw [decide_eq_true hle, if_pos hle]
    cases n.invert <;> rfl
  · rw [decide_eq_false hle, if_neg hle]
    cases n.invert <;> rfl

/-! A lane that reads the word `e` at its entry, and no illegal code. -/
section
variable {fold stride : Nat} {sl : Slice} {bins : List Nat} {u : Upset} {k i rd e : Nat}
  (hread : u.flipWord rd (at' 0 (at' [] sl.stages k) i) = e) (hcode : u.codeAt rd = false)
include hread hcode

/-- The CRC comes before any field of the entry (R154). -/
theorem descendGo_of_crc_ne (t fuel dp p : Nat) (hcrc : nodeCrc e ≠ (Node.ofWord e).crc) :
    descendGo fold stride sl bins u t (fuel + 1) k i dp p rd = (.error ⟨2, p, t, dp, k, 0, 0, i⟩, rd) := by
  rw [descendGo, hread, hcode, if_neg Bool.false_ne_true, if_pos hcrc]

/-- A PAD entry compares nothing and sends the tree to its one leaf (R153). -/
theorem descendGo_of_pad (t fuel dp p : Nat) (hcrc : nodeCrc e = (Node.ofWord e).crc) (hpad : (Node.ofWord e).pad = true) :
    descendGo fold stride sl bins u t (fuel + 1) k i dp p rd = (.ok ⟨t, dp, p, (Node.ofWord e).left, k⟩, rd + 1) := by
  rw [descendGo, hread, hcode, if_neg Bool.false_ne_true, if_neg (Decidable.not_not.mpr hcrc), if_pos hpad]

/-- A node that compares adds its direction to the path, and ends it or hands it to the next stage. -/
theorem descendGo_of_node (t fuel dp p : Nat) (hcrc : nodeCrc e = (Node.ofWord e).crc) (hpad : (Node.ofWord e).pad = false)
    (hmap : inFeatureMap fold sl k (Node.ofWord e).feature = true) :
    let b := b2n ((Node.ofWord e).goesRight bins)
    descendGo fold stride sl bins u t (fuel + 1) k i dp p rd =
      if (Node.ofWord e).terminal then (.ok ⟨t, dp + 1, p + b * 2 ^ dp, (Node.ofWord e).left + b * stride, k⟩, rd + 1)
      else descendGo fold stride sl bins u t fuel (k + 1) ((Node.ofWord e).left + b) (dp + 1) (p + b * 2 ^ dp) (rd + 1) := by
  rw [descendGo, hread, hcode, if_neg Bool.false_ne_true, if_neg (Decidable.not_not.mpr hcrc), hpad, if_neg Bool.false_ne_true, hmap,
    Bool.not_true, if_neg Bool.false_ne_true]
  dsimp only
  rw [childOffset_eq_goesRight]

end

end Sys2Proof.Machine

namespace Sys2Proof.Proofs
open Sys2Proof.Machine Sys2Proof.Safety

/-- Settles O50: each clause is what a stage does with the entry it reads, where no fault is met. -/
theorem descentFollowsNodes : Obligations.DescentFollowsNodes := by
  unfold Obligations.DescentFollowsNodes
  intro fold stride sl bins t fuel k i dp pa rd e nd right
  have hread : Upset.clean.flipWord rd (at' 0 (at' [] sl.stages k) i) = e := flipWord_clean rd e
  have hcode := codeAt_clean rd
  refine ⟨fun hcrc => ?check, fun hcrc hpad => ?pad, fun hcrc hpad hmap => ?node⟩
  case check => exact ⟨_, descendGo_of_crc_ne hread hcode t fuel dp pa hcrc, rfl, rfl, rfl, rfl⟩
  case pad => exact descendGo_of_pad hread hcode t fuel dp pa hcrc hpad
  case node => exact descendGo_of_node hread hcode t fuel dp pa hcrc hpad hmap

end Sys2Proof.Proofs
end

section
/-! SUPPORT. A descriptor command that is dispatched, operations on tiles in their place, and the write of a preloaded tile. -/
namespace Sys2Proof.Machine
open Sys2Proof.Safety

/-! ### A descriptor dispatched -/

theorem Verdict.andThen_eq_go_iff {a : Verdict} {b : Unit → Verdict} : a.andThen b = .go ↔ a = .go ∧ b () = .go := by
  cases a <;> simp [andThen]

/-- Only a LAUNCH_GRAPH takes a launch constant block (R370). -/
theorem takeConst_of_ne {x : Desc} (h : x.code ≠ 0x71) (d : Dev) (c : Nat) : takeConst d c x = d :=
  if_neg (by simp [h])

/-- A descriptor command whose entry passes every check enters it and hands it to its engine (R345). -/
theorem exec_of_dispatched {i : Instr} {e : Entry} {s : State} (h : dispatches i e s) :
    exec i s = .next (withDev s (takeConst (startNew s.mc (jobAt s e) (entered s e)) e.chan e.desc)) := by
  obtain ⟨hi, hf, ht, hv⟩ := h
  obtain ⟨-, -, hready, -⟩ := (takes_iff s e.chan).mp ht
  obtain ⟨-, -, hlaunch, -, -⟩ := (Chan.ready_iff _).mp hready
  have hnone : ((credited s e.chan).chan e.chan).launch = none := by
    rw [credited, chan_chargeLink, chan_taken]; exact hlaunch
  rw [exec_of_takes hi hf ht, hv]
  simp only [answer, Verdict.costs, if_true, hnone]
  rfl

/-- The opcode's own checks pass with the others (R352). -/
theorem opcodeCheck_of_go {s : State} {e : Entry} (h : verdictAt s e = .go) :
    opcodeCheck s.mc (taken s e.chan) e.chan e.desc e.env = .go := by
  have horphan : orphanBatch (taken s e.chan) (heldAt s e) = none := if_neg (by simp [heldAt])
  simp only [verdictAt, verdictOf, horphan] at h
  split at h
  · exact nomatch h
  · obtain ⟨hchecks, -⟩ := Verdict.andThen_eq_go_iff.mp h
    exact (Verdict.andThen_eq_go_iff.mp hchecks).2

/-- A descriptor entered has changed the translation cache, the channels, the dispatched descriptors with their count, and FEC_PROGRESS
(R345, R386, R403). -/
theorem entered_frame (s : State) (e : Entry) :
    ∃ a xs js, entered s e = { s.dev with
      host := { s.dev.host with atc := a }, chans := xs, jobs := js, nextJob := s.dev.nextJob + 1
      fecProgress := s.dev.fecProgress + 1 } := by
  obtain ⟨a, xs, hl⟩ := leaving_frame s e.chan
  have hentered : entered s e = ((leaving s e.chan).addJob e.chan (s.dev.chan e.chan).seqNext.toNat e.desc e.env none 0).1 := rfl
  exact ⟨a, xs, _, by rw [hentered, hl]; rfl⟩

theorem core_entered (s : State) (e : Entry) (n : Nat) : (entered s e).core n = s.dev.core n := by
  obtain ⟨a, xs, js, h⟩ := entered_frame s e
  rw [h]; rfl

theorem jobAt_id (s : State) (e : Entry) : (jobAt s e).id = s.dev.nextJob := by
  obtain ⟨a, xs, hl⟩ := leaving_frame s e.chan
  change (leaving s e.chan).nextJob = _
  rw [hl]

theorem jobAt_desc (s : State) (e : Entry) : (jobAt s e).desc = e.desc := rfl

/-- A change of the descriptor that an entry became stands among the dispatched ones. -/
theorem mem_updJob_entered (s : State) (e : Entry) (f : Job → Job) :
    f (jobAt s e) ∈ ((entered s e).updJob (jobAt s e).id f).jobs :=
  Dev.mem_updJob_addJob (leaving s e.chan) e.chan (s.dev.chan e.chan).seqNext.toNat e.desc e.env none 0 f

/-! ### What a dispatched descriptor reads -/

/-- A descriptor without a block is handed to its engine once its reads are asked for (R24). -/
theorem startNew_of_noBlocks {j : Job} {d : Dev} (h : blocksRead (askReads d j) j = []) (mc : Mc) :
    startNew mc j d = opcodeStart mc j (askReads d j) := by
  simp [startNew, h]

theorem askReads_of_none {j : Job} {d : Dev} (hb : blocksRead d j = []) (hd : dataRead d j = []) : askReads d j = d := by
  simp [askReads, hb, hd]

/-- Only tags, the links and the output differ. -/
def AskOnly (d e : Dev) : Prop := e = { d with nextTag := e.nextTag, ports := e.ports, out := e.out }

theorem AskOnly.trans {d e f : Dev} (h : AskOnly d e) (k : AskOnly e f) : AskOnly d f := by
  unfold AskOnly at *; rw [k, h]

theorem LinkOnly.askOnly {d e : Dev} (h : LinkOnly d e) : AskOnly d e := by
  unfold LinkOnly AskOnly at *; rw [h]

theorem AskOnly.core_eq {d e : Dev} (h : AskOnly d e) (n : Nat) : e.core n = d.core n := by rw [h]; rfl

/-- Reads asked of another device take tags and send units (R469). -/
theorem askRead_askOnly (d : Dev) (a n : Nat) : AskOnly d (d.askRead a n) := by
  unfold Dev.askRead
  split
  · rfl
  · exact List.foldlRecOn (motive := AskOnly d) _ _ rfl fun e he _ _ =>
      he.trans (.trans (e := { e with nextTag := (e.nextTag + 1) % 2 ^ 31 }) rfl (sendUnit_frame ..).askOnly)

theorem askReads_askOnly (d : Dev) (j : Job) : AskOnly d (askReads d j) :=
  List.foldlRecOn (motive := AskOnly d) _ _ rfl fun _ he _ _ => he.trans (askRead_askOnly ..)

/-- A dispatched descriptor of an opcode that reads nothing does what its engine does as it starts. -/
theorem engineDoes_of_readsNone {i : Instr} {e : Entry} {s : State} {k : Nat} {f : Job → Dev → Dev} (h : dispatches i e s)
    (hc : e.desc.code = k) (hk : k ≠ 0x71) (hb : blocksRead (entered s e) (jobAt s e) = [])
    (hd : dataRead (entered s e) (jobAt s e) = []) (hf : opcodeStart s.mc (jobAt s e) (entered s e) = f (jobAt s e) (entered s e)) :
    EngineDoes i e s f := by
  have hask := askReads_of_none hb hd
  rw [EngineDoes, exec_of_dispatched h, takeConst_of_ne (hc ▸ hk), startNew_of_noBlocks (by rw [hask, hb]), hask, hf]

section
variable {j : Job} (d : Dev)

theorem blocksRead_preload (h : j.desc.code = 0x50) : blocksRead d j = [] := by simp only [blocksRead, h]

theorem blocksRead_release (h : j.desc.code = 0x52) : blocksRead d j = [] := by simp only [blocksRead, h]

theorem dataRead_release (h : j.desc.code = 0x52) : dataRead d j = [] := by simp only [dataRead, h]

/-! Neither an ACC_PRELOAD nor an ACC_FINISH with TARGET 1 reads at its dispatch what it arms (R191, R236). -/

theorem dataRead_arm (h : j.desc.code = 0x50) (ht : j.desc.op 0x26 1 = 1) : dataRead d j = [] := by simp [dataRead, h, ht]

theorem blocksRead_armOperand (h : j.desc.code = 0x53) (ht : j.desc.op 0x24 1 = 1) : blocksRead d j = [] := by simp [blocksRead, h, ht]

theorem dataRead_armOperand (h : j.desc.code = 0x53) (ht : j.desc.op 0x24 1 = 1) : dataRead d j = [] := by simp [dataRead, h, ht]

variable (mc : Mc)

theorem opcodeStart_release (h : j.desc.code = 0x52) : opcodeStart mc j d = startRelease j d := by simp only [opcodeStart, h]

theorem opcodeStart_preload (h : j.desc.code = 0x50) (ht : j.desc.op 0x26 1 = 0) : opcodeStart mc j d = startPreload j d := by
  simp [opcodeStart, h, ht]

theorem opcodeStart_disarm (h : j.desc.code = 0x50) (ht : j.desc.op 0x26 1 = 1) (hb : bit (j.desc.op 0x27 1) 3 = true) :
    opcodeStart mc j d = startDisarm j d := by
  simp [opcodeStart, h, ht, hb]

theorem opcodeStart_arm (h : j.desc.code = 0x50) (ht : j.desc.op 0x26 1 = 1) (hb : bit (j.desc.op 0x27 1) 3 = false) :
    opcodeStart mc j d = startArm j d := by
  simp [opcodeStart, h, ht, hb]

theorem opcodeStart_armOperand (h : j.desc.code = 0x53) (ht : j.desc.op 0x24 1 = 1) : opcodeStart mc j d = startArmOperand j d := by
  simp [opcodeStart, h, ht]

end

theorem core_updJob (d : Dev) (id : Nat) (f : Job → Job) (n : Nat) : (d.updJob id f).core n = d.core n := rfl

/-! ### An operation in its place among those on overlapping tiles -/

/-- The low byte of a tile word names its core (R175). -/
theorem tileCore_eq_op (x : Desc) : bits (x.op 0x10 8) 0 8 = x.op 0x10 1 := by
  simp only [Desc.op, bits]
  omega

/-- Which operations stand before a descriptor does not depend on its own fields (R183). -/
theorem before_updJob {d : Dev} {id : Nat} {f : Job → Job} (hf : ∀ j, (f j).id = j.id) : (d.updJob id f).before id = d.before id := by
  unfold Dev.before Dev.updJob
  induction d.jobs with
  | nil => rfl
  | cons j js ih =>
    rw [List.map_cons, List.takeWhile_cons, List.takeWhile_cons, ih]
    by_cases hj : j.id = id <;> simp [hj, hf]

theorem tilesFree_updJob {d : Dev} {id : Nat} {f : Job → Job} (hf : ∀ j, (f j).id = j.id) (tiles : List Nat) :
    (d.updJob id f).tilesFree id tiles = d.tilesFree id tiles := by
  rw [Dev.tilesFree, before_updJob hf, Dev.tilesFree]

/-- What an ACC_RELEASE makes of its descriptor: its tile named, its work ended with status 0 (R210). -/
def releasedJob (w : Nat) (j : Job) : Job :=
  { j with tiles := [w], phase := .done, status := 0, nflags := j.nflags ||| 0, links := j.links + 1
           chainStatus := if j.chainStatus = 0 then 0 else j.chainStatus }

/-- With no earlier operation on an overlapping tile, an ACC_RELEASE drops its tile and ends (R179, R210). -/
theorem startRelease_of_free {j : Job} {d : Dev} (h : d.tilesFree j.id [j.desc.op 0x10 8] = true) :
    startRelease j d =
      (d.updCore (bits (j.desc.op 0x10 8) 0 8) fun c => c.dropTile (j.desc.op 0x10 8)).updJob j.id (releasedJob (j.desc.op 0x10 8)) := by
  rw [startRelease, runTiles, if_pos ((tilesFree_updJob (fun _ => by rfl) _).trans h), Dev.updJob_updJob _ _ _ fun _ => by rfl]
  exact Dev.updJob_updJob (d.updCore (bits (j.desc.op 0x10 8) 0 8) fun c => c.dropTile (j.desc.op 0x10 8)) _ _ fun _ => rfl

/-! ### ACC_PRELOAD at its dispatch -/

/-- A core after an ACC_PRELOAD's dispatch: its tile is entered unless it is allocated (R181 step 2). -/
def Core.allot (x : Desc) (c : Core) : Core :=
  if (c.tile (x.op 0x10 8)).isSome then c else c.enterTile (x.op 0x10 8) (preloadTotal x) (x.op 0x32 1)

theorem startPreload_eq (j : Job) (d : Dev) : startPreload j d =
    (d.updCore (bits (j.desc.op 0x10 8) 0 8) (Core.allot j.desc)).updJob j.id
      fun k => { k with tiles := preloadTiles j.desc, phase := .active } := rfl

theorem Core.allot_acc (x : Desc) (c : Core) : (c.allot x).acc = c.acc := by unfold allot; split <;> rfl

/-- Either way the table holds the tile. -/
theorem Core.exists_tile_allot (x : Desc) (c : Core) : ∃ t ∈ (c.allot x).tiles, t.word = x.op 0x10 8 := by
  unfold allot
  split
  next h =>
    obtain ⟨t, ht⟩ := Option.isSome_iff_exists.mp h
    exact ⟨t, List.mem_of_find?_eq_some ht, by simpa using List.find?_some ht⟩
  next => exact ⟨_, List.mem_append_right _ (List.mem_singleton.mpr rfl), rfl⟩

/-- A dispatched ACC_PRELOAD that arms nothing has TARGET 0, as its checks refuse every further TARGET (R189). -/
theorem preload_target_of_go {s : State} {e : Entry} (h : verdictAt s e = .go) (hc : e.desc.code = 0x50) (ht : e.desc.op 0x26 1 ≠ 1) :
    e.desc.op 0x26 1 = 0 := by
  have hcheck := opcodeCheck_of_go h
  simp only [opcodeCheck, hc, preloadCheck] at hcheck
  split at hcheck
  next h0 => exact h0
  next h1 => exact absurd h1 ht
  next => exact nomatch hcheck

/-- The digital part after an ACC_RELEASE's dispatch among no earlier operation on its tile. -/
def releasedAt (s : State) (e : Entry) : Dev :=
  ((entered s e).updCore (e.desc.op 0x10 1) fun c => c.dropTile (e.desc.op 0x10 8)).updJob (jobAt s e).id
    (releasedJob (e.desc.op 0x10 8))

/-- The digital part after an ACC_PRELOAD's dispatch. -/
def preloadedAt (s : State) (e : Entry) : Dev :=
  ((askReads (entered s e) (jobAt s e)).updCore (e.desc.op 0x10 1) (Core.allot e.desc)).updJob (jobAt s e).id
    fun k => { k with tiles := preloadTiles e.desc, phase := .active }

/-- An ACC_RELEASE dispatched changes its core, and its descriptor is ended (R179, R210). -/
theorem exec_of_release {i : Instr} {e : Entry} {s : State} (h : dispatches i e s) (hc : e.desc.code = 0x52)
    (hfree : (entered s e).tilesFree s.dev.nextJob [e.desc.op 0x10 8] = true) :
    exec i s = .next (withDev s (releasedAt s e)) := by
  rw [← jobAt_id s e] at hfree
  rw [releasedAt, ← tileCore_eq_op]
  exact engineDoes_of_readsNone (f := startRelease) h hc (by decide) (blocksRead_release _ hc) (dataRead_release _ hc)
    (opcodeStart_release _ _ hc) |>.trans (by rw [startRelease_of_free hfree]; rfl)

/-- An ACC_PRELOAD dispatched with TARGET 0 changes its core, and its descriptor waits to be written (R181). -/
theorem exec_of_preload {i : Instr} {e : Entry} {s : State} (h : dispatches i e s) (hc : e.desc.code = 0x50)
    (ht : e.desc.op 0x26 1 ≠ 1) : exec i s = .next (withDev s (preloadedAt s e)) := by
  obtain ⟨-, -, -, hgo⟩ := id h
  have htarget := preload_target_of_go hgo hc ht
  rw [exec_of_dispatched h, takeConst_of_ne (by rw [hc]; decide), startNew_of_noBlocks (blocksRead_preload _ hc),
    opcodeStart_preload _ _ hc htarget, startPreload_eq, preloadedAt, jobAt_desc, tileCore_eq_op]

theorem core_releasedAt (s : State) (e : Entry) : (releasedAt s e).core (e.desc.op 0x10 1) =
    { s.dev.core (e.desc.op 0x10 1) with
      tiles := (s.dev.core (e.desc.op 0x10 1)).tiles.filter fun w => w.word ≠ e.desc.op 0x10 8 } := by
  rw [releasedAt, core_updJob, Dev.core_updCore, core_entered]
  rfl

theorem core_releasedAt_other {s : State} {e : Entry} {n : Nat} (hn : n ≠ e.desc.op 0x10 1) :
    (releasedAt s e).core n = s.dev.core n := by
  rw [releasedAt, core_updJob, Dev.core_updCore_other _ hn, core_entered]

/-- The descriptor of an ACC_RELEASE has ended with status 0. -/
theorem ended_releasedAt (s : State) (e : Entry) :
    ∃ j ∈ (releasedAt s e).jobs, j.id = s.dev.nextJob ∧ j.phase = .done ∧ j.status = 0 :=
  ⟨releasedJob (e.desc.op 0x10 8) (jobAt s e), mem_updJob_entered s e _, jobAt_id s e, rfl, rfl⟩

theorem core_preloadedAt (s : State) (e : Entry) :
    (preloadedAt s e).core (e.desc.op 0x10 1) = (s.dev.core (e.desc.op 0x10 1)).allot e.desc := by
  rw [preloadedAt, core_updJob, Dev.core_updCore, (askReads_askOnly ..).core_eq, core_entered]

theorem core_preloadedAt_other {s : State} {e : Entry} {n : Nat} (hn : n ≠ e.desc.op 0x10 1) :
    (preloadedAt s e).core n = s.dev.core n := by
  rw [preloadedAt, core_updJob, Dev.core_updCore_other _ hn, (askReads_askOnly ..).core_eq, core_entered]

/-- Beside what entering a descriptor changes, an ACC_RELEASE changes the cores alone. -/
theorem releasedAt_frame (s : State) (e : Entry) :
    let d := releasedAt s e
    d = { s.dev with host := { s.dev.host with atc := d.host.atc }, chans := d.chans, jobs := d.jobs, nextJob := s.dev.nextJob + 1,
                     cores := d.cores, fecProgress := s.dev.fecProgress + 1 } := by
  obtain ⟨a, xs, js, h⟩ := entered_frame s e
  rw [releasedAt, h]
  rfl

/-- An ACC_PRELOAD changes the cores, and the links where it asks another device for its source. -/
theorem preloadedAt_frame (s : State) (e : Entry) :
    let d := preloadedAt s e
    d = { s.dev with host := { s.dev.host with atc := d.host.atc }, chans := d.chans, jobs := d.jobs, nextJob := s.dev.nextJob + 1,
                     cores := d.cores, ports := d.ports, out := d.out, nextTag := d.nextTag, fecProgress := s.dev.fecProgress + 1 } := by
  obtain ⟨a, xs, js, h⟩ := entered_frame s e
  have hask := askReads_askOnly (entered s e) (jobAt s e)
  rw [preloadedAt, show askReads (entered s e) (jobAt s e) = _ from hask, h]
  rfl

/-! ### The write of a preloaded tile -/

/-- Only what a preload's elements touch differs in a core: its accumulator memory with the chunk counters, its tile table, and the
numeric flags with their counts (R73, R75, R190). -/
def TileOnly (c e : Core) : Prop :=
  e = { c with acc := e.acc, chunk := e.chunk, tiles := e.tiles
               regs := { c.regs with nflags := e.regs.nflags, nfCntA := e.regs.nfCntA, nfCntB := e.regs.nfCntB } }

theorem TileOnly.trans {c e f : Core} (h : TileOnly c e) (k : TileOnly e f) : TileOnly c f := by
  unfold TileOnly at *; rw [k, h]

theorem foldFlags_tileOnly {α : Type} {f : Core → α → Core × NFlags} (h : ∀ c x, TileOnly c (f c x).1) (l : List α) (c : Core) :
    TileOnly c (foldFlags l c f).1 :=
  List.foldlRecOn (motive := fun a : Core × NFlags => TileOnly c a.1) _ _ rfl fun _ ha x _ => ha.trans (h _ x)

theorem preloadCell_tileOnly (d : Dev) (env : Env) (x : Desc) (t : TileWord) (c : Core) (p : Nat × Nat) :
    TileOnly c (preloadCell d env x t c p).1 := rfl

/-- The tile that a preload's elements go to: the total of a promoted tile, else the tile itself (R190; log 48). -/
def preloadDst (x : Desc) : TileWord :=
  match preloadTotal x with | some v => TileWord.of v | none => TileWord.of (x.op 0x10 8)

/-- A core with its tile entered, the tile's elements cleared, and then converted and stored (R190). -/
def Core.preloadCells (d : Dev) (env : Env) (x : Desc) (c : Core) : Core × NFlags :=
  let t := TileWord.of (x.op 0x10 8)
  foldFlags t.cells (t.cells.foldl (Core.zeroCell t) (c.enterTile (x.op 0x10 8) (preloadTotal x) (x.op 0x32 1)))
    (preloadCell d env x (preloadDst x))

/-- The whole preload: the elements, then the tile's flags and the count of rows (R181, R190, R212). -/
theorem preloadWrite_eq (d : Dev) (env : Env) (x : Desc) (c : Core) :
    let r := c.preloadCells d env x
    let e := r.1.preloaded (x.op 0x10 8) r.2
    preloadWrite d env x c =
      ({ e with regs := { e.regs with accTileRows := e.regs.accTileRows + BitVec.ofNat 64 (bits (x.op 0x10 8) 20 13) } }, r.2) := rfl

theorem preloadCells_tileOnly (d : Dev) (env : Env) (x : Desc) (c : Core) : TileOnly c (c.preloadCells d env x).1 := by
  have hzero : TileOnly c ((TileWord.of (x.op 0x10 8)).cells.foldl (Core.zeroCell (TileWord.of (x.op 0x10 8)))
      (c.enterTile (x.op 0x10 8) (preloadTotal x) (x.op 0x32 1))) :=
    List.foldlRecOn (motive := TileOnly c) _ _ rfl fun _ he _ _ => he.trans rfl
  exact hzero.trans (foldFlags_tileOnly (preloadCell_tileOnly d env x (preloadDst x)) _ _)

/-- The preload keeps the contexts and the fence, and counts its rows once (R190, R212). -/
theorem preloadWrite_frame (d : Dev) (env : Env) (x : Desc) (c : Core) :
    let r := (preloadWrite d env x c).1
    r.regs.accTileRows = c.regs.accTileRows + BitVec.ofNat 64 (bits (x.op 0x10 8) 20 13) ∧ r.ctxs = c.ctxs ∧ r.fenced = c.fenced := by
  have hwrite : TileOnly c ((c.preloadCells d env x).1.preloaded (x.op 0x10 8) (c.preloadCells d env x).2) :=
    (preloadCells_tileOnly d env x c).trans rfl
  rw [preloadWrite_eq, show Core.preloaded .. = _ from hwrite]
  exact ⟨rfl, rfl, rfl⟩

/-- A dispatched ACC_PRELOAD whose rows are free of contexts and of earlier operations, and whose source can be read, is written and
ends (R181 step 3). -/
theorem tilePreloadWrite_of_free {id : Nat} {env : Env} {d : Dev} {j : Job} (hj : d.job id = some j) (hc : j.desc.code = 0x50)
    (ht : j.desc.op 0x26 1 = 0) (hp : j.phase = .active) (hfree : d.tilesFree id j.tiles = true)
    (hrows : (j.tiles.all fun w => (d.core (bits (j.desc.op 0x10 8) 0 8)).rowsClear w) = true)
    (hf : (d.core (bits (j.desc.op 0x10 8) 0 8)).fenced = false)
    (hread : bit (j.desc.op 0x27 1) 0 = true ∨ d.readFail env (j.desc.op 0x18 8) (preloadSpan j.desc) = none) :
    let n := bits (j.desc.op 0x10 8) 0 8
    let r := preloadWrite d env j.desc (d.core n)
    tilePreloadWrite id env d = (d.setCore n r.1).finishJob id 0 r.2 := by
  have hsource : (if bit (j.desc.op 0x27 1) 0 then none else d.readFail env (j.desc.op 0x18 8) (preloadSpan j.desc)) = none := by
    rcases hread with hconst | hok
    · rw [if_pos hconst]
    · rw [hok, ite_self]
  simp [tilePreloadWrite, hj, hc, ht, hp, hfree, hrows, hf, hsource]

end Sys2Proof.Machine

namespace Sys2Proof.Proofs
open Sys2Proof.Machine Sys2Proof.Safety

/-- Settles O22: a dispatched descriptor does what its engine does as it starts (`exec_of_dispatched`), which for these opcodes is one
change of a channel or of a core, and of the descriptor; the write of a tile is a run over its elements, which no context sees. -/
theorem tilesAndArming : Obligations.TilesAndArming := by
  unfold Obligations.TilesAndArming
  refine ⟨⟨fun c x env e s h => ?arm, fun c x env e s h => ?disarm, fun c x env e s h => ?operand⟩,
    ⟨fun c x env e s h hfree => ?release, fun c x env e s h => ?preload⟩,
    fun id env s j hl hj hc ht hp hfree hrows hf hread => ?write⟩
  case arm =>
    obtain ⟨hi, hform, -, -⟩ := id h
    cases hi
    obtain ⟨htarget, hbit⟩ : x.op 0x26 1 = 1 ∧ bit (x.op 0x27 1) 3 = false := by simpa using hform
    exact engineDoes_of_readsNone (k := 0x50) h rfl (by decide) (blocksRead_preload _ rfl) (dataRead_arm _ rfl htarget)
      (opcodeStart_arm _ _ rfl htarget hbit)
  case disarm =>
    obtain ⟨hi, hform, -, -⟩ := id h
    cases hi
    obtain ⟨htarget, hbit⟩ : x.op 0x26 1 = 1 ∧ bit (x.op 0x27 1) 3 = true := by simpa using hform
    exact engineDoes_of_readsNone (k := 0x50) h rfl (by decide) (blocksRead_preload _ rfl) (dataRead_arm _ rfl htarget)
      (opcodeStart_disarm _ _ rfl htarget hbit)
  case operand =>
    obtain ⟨hi, hform, -, -⟩ := id h
    cases hi
    have htarget : x.op 0x24 1 = 1 := by simpa using hform
    exact engineDoes_of_readsNone (k := 0x53) h rfl (by decide) (blocksRead_armOperand _ rfl htarget) (dataRead_armOperand _ rfl htarget)
      (opcodeStart_armOperand _ _ rfl htarget)
  case release =>
    obtain ⟨hi, -, -, -⟩ := id h
    cases hi
    exact ⟨_, exec_of_release h rfl hfree, congrArg (withDev s) (releasedAt_frame ..), core_releasedAt ..,
      fun n hn => core_releasedAt_other hn, ended_releasedAt ..⟩
  case preload =>
    obtain ⟨hi, hform, -, -⟩ := id h
    cases hi
    have hcore := core_preloadedAt s ⟨c.val, { x with opcode := 0x50 }, env, x.op 0x26 1 != 1⟩
    refine ⟨_, exec_of_preload h rfl (bne_iff_ne.mp hform), congrArg (withDev s) (preloadedAt_frame ..),
      (congrArg Core.acc hcore).trans (Core.allot_acc ..), ?_, fun n hn => core_preloadedAt_other hn⟩
    obtain ⟨t, ht, hword⟩ := Core.exists_tile_allot x (s.dev.core (x.op 0x10 1))
    exact ⟨t, hcore ▸ ht, hword⟩
  case write =>
    obtain ⟨hcount, hctxs, hfence⟩ := preloadWrite_frame s.dev env j.desc (s.dev.core (bits (j.desc.op 0x10 8) 0 8))
    have hexec : exec (.tilePreloadWrite id env) s = .next (withDev s (settle s.mc (tilePreloadWrite id env s.dev))) :=
      onDev_live (f := fun d => settle s.mc (tilePreloadWrite id env d)) hl
    rw [tilePreloadWrite_of_free hj hc ht hp hfree hrows hf hread] at hexec
    exact ⟨hexec, hcount, hctxs, hfence⟩

end Sys2Proof.Proofs
end

section
/-! SUPPORT. Egress: which of a tail's contexts it picks, what it does with the picked result, and what an accepted record releases. -/
namespace Sys2Proof.Machine

/-! ### The result picked -/

/-- A context that no longer keeps back the later records of its stream: its result is accepted, or waits outside its core (R232). -/
def Ctx.leftCore (x : Ctx) : Prop := x.acked = true ∨ x.packed = true

/-- A context whose result egress may take: the result is there and not accepted yet, and its destination has room (R233). -/
structure Ctx.Deliverable (room : Ctx → Bool) (x : Ctx) : Prop where
  result : x.result.isSome = true
  room : room x = true
  acked : x.acked = false

section
variable {room : Ctx → Bool} {behind : List (Src × Nat)} {xs : List Ctx} {x y : Ctx}

/-- Either the oldest context is picked, or a later one is, and then the oldest, unless its result has left its core, has its stream among
those held back. -/
theorem pickResult_cons (h : pickResult room behind (y :: xs) = some x) :
    (x = y ∧ y.Deliverable room ∧ (y.src, y.stream) ∉ behind) ∨
    ∃ held, behind ⊆ held ∧ pickResult room held xs = some x ∧ (y.hasBins = true → y.leftCore ∨ (y.src, y.stream) ∈ held) := by
  rw [pickResult] at h
  by_cases hskip : (!y.hasBins || y.acked) = true
  · rw [if_pos hskip] at h
    refine .inr ⟨behind, List.Subset.refl _, h, fun hb => .inl (.inl ?_)⟩
    rwa [hb, Bool.not_true, Bool.false_or] at hskip
  rw [if_neg hskip] at h
  by_cases hheld : behind.contains (y.src, y.stream) = true
  · rw [if_pos hheld] at h
    exact .inr ⟨behind, List.Subset.refl _, h, fun _ => .inr (List.contains_iff_mem.mp hheld)⟩
  rw [if_neg hheld] at h
  by_cases hpacked : y.packed = true
  · rw [if_pos hpacked] at h
    exact .inr ⟨behind, List.Subset.refl _, h, fun _ => .inl (.inr hpacked)⟩
  rw [if_neg hpacked] at h
  by_cases htake : (y.result.isSome && room y) = true
  · rw [if_pos htake] at h
    obtain ⟨hresult, hroom⟩ := (Bool.and_eq_true ..).mp htake
    obtain ⟨-, hacked⟩ := Bool.or_eq_false_iff.mp (eq_false_of_ne_true hskip)
    exact .inl ⟨(Option.some.inj h).symm, ⟨hresult, hroom, hacked⟩, fun hm => hheld (List.contains_iff_mem.mpr hm)⟩
  · rw [if_neg htake] at h
    exact .inr ⟨_, List.subset_cons_self _ _, h, fun _ => .inr List.mem_cons_self⟩

/-- Egress picks one of the tail's contexts, with a result that may be delivered, of a stream that is not held back. -/
theorem deliverable_of_pickResult (h : pickResult room behind xs = some x) :
    x ∈ xs ∧ x.Deliverable room ∧ (x.src, x.stream) ∉ behind := by
  induction xs generalizing behind with
  | nil => exact nomatch h
  | cons y ys ih =>
    rcases pickResult_cons h with ⟨rfl, hd, hfree⟩ | ⟨held, hsub, hpick, -⟩
    · exact ⟨List.mem_cons_self, hd, hfree⟩
    · obtain ⟨hmem, hd, hfree⟩ := ih hpick
      exact ⟨List.mem_cons_of_mem y hmem, hd, fun hm => hfree (hsub hm)⟩

/-- Every older record of the picked one's stream has left its core: one that had not would hold the stream back (R14, R232). -/
theorem leftCore_of_before_picked (h : pickResult room behind xs = some x) :
    ∀ z ∈ xs.takeWhile (· ≠ x), z.hasBins = true → z.src = x.src → z.stream = x.stream → z.leftCore := by
  induction xs generalizing behind with
  | nil => exact nomatch h
  | cons y ys ih =>
    intro z hz hbins hsrc hstream
    rw [List.takeWhile_cons] at hz
    by_cases hne : y = x
    · rw [if_neg fun hd => absurd hne (of_decide_eq_true hd)] at hz
      exact absurd hz List.not_mem_nil
    · rw [if_pos (decide_eq_true hne)] at hz
      obtain ⟨rfl, -, -⟩ | ⟨held, -, hpick, hleft⟩ := pickResult_cons h
      · exact absurd rfl hne
      · rcases List.mem_cons.mp hz with rfl | hz
        · refine (hleft hbins).resolve_right fun hm => ?_
          obtain ⟨-, -, hfree⟩ := deliverable_of_pickResult hpick
          exact hfree (hsrc ▸ hstream ▸ hm)
        · exact ih hpick z hz hbins hsrc hstream

end

/-! ### The picked result checked -/

/-- A tail that meets no physical fault delivers the picked result if it keeps its check, and is charged with a fault if not (R230). -/
theorem egressWrite_of_picked {d : Dev} {n pid : Nat} {p : Plot} {x : Ctx} {r : ResultRec} (hs : d.stopped n = false)
    (hp : d.plotOf n = some (pid, p)) (ht : p.isTail n = true) (hx : pickResult (resultRoom d) [] (d.core n).ctxs = some x)
    (hr : x.result = some r) (env : Env) :
    egressWrite n .clean env d =
      if resultOk p x r.bytes then deliverResult d env n pid p x r.bytes else resultFault d n x.recordId := by
  have hgoes : (d.stopped n || !p.isTail n) = false := by rw [hs, ht]; rfl
  simp only [egressWrite, hp, hgoes, if_neg Bool.false_ne_true, hx, hr]
  exact guarded_clean ..

/-- A core that counts a result which failed its check (R238). -/
def Core.countResultFault (c : Core) : Core :=
  { c with regs := { c.regs with finStatus := setBit c.regs.finStatus 3, finCnt := laneBump c.regs.finCnt 3 } }

/-- A result's fault is counted by the tail, and joins the faults that wait for the FEC (R238, R416). -/
theorem resultFault_eq (d : Dev) (n rid : Nat) :
    resultFault d n rid = (d.updCore n Core.countResultFault).detect n stResultCheckFault 7 [] (some rid) := rfl

theorem core_detect (d : Dev) (n : Nat) (st : Status) (source : Nat) (detail : Bytes) (rid : Option Nat) (m : Nat) :
    (d.detect n st source detail rid).core m = d.core m := rfl

/-- The tail's contexts stand when its result fails its check. -/
theorem ctxs_resultFault (d : Dev) (n rid : Nat) : ((resultFault d n rid).core n).ctxs = (d.core n).ctxs := by
  rw [resultFault_eq, core_detect, Dev.core_updCore, Core.countResultFault]

/-! ### The replay entry released -/

/-- On the device where its plot starts an accepted record leaves the plot's replay buffer (R232). -/
theorem plot_acceptRecord_of_head {d : Dev} {pid : Nat} {p : Plot} (hs : p.startsHere = true) (hp : d.plot pid = some p)
    (src : Src) (stream seq : Nat) (st : Status) (nf : NFlags) :
    (acceptRecord d pid p src stream seq st nf).plot pid = some (p.release src stream seq) := by
  rw [acceptRecord, if_pos hs, Dev.plot_updPlot, countAccepted_frame]
  exact congrArg (Option.map _) hp

end Sys2Proof.Machine

namespace Sys2Proof.Proofs
open Sys2Proof.Machine Sys2Proof.Safety

/-- Settles O55: a stream held back stays so along the tail's contexts (`pickResult_cons`), so that none of its records is picked; the
command on the picked result has two ways, by its check, and acceptance at the head filters the replay buffer. -/
theorem egressInOrder : Obligations.EgressInOrder := by
  unfold Obligations.EgressInOrder
  refine ⟨fun room xs x h => ?order, fun n env pid p x r s ⟨⟨hl, hs⟩, hp, _⟩ ht hx hr => ?checked,
    fun d pid stream seq p src st nf hs hp => plot_acceptRecord_of_head hs hp src stream seq st nf⟩
  case order =>
    obtain ⟨hmem, ⟨hresult, hroom, hacked⟩, -⟩ := deliverable_of_pickResult h
    exact ⟨hmem, hresult, hroom, hacked, leftCore_of_before_picked h⟩
  case checked =>
    have hexec : exec (.egressWrite n .clean env) s = .next (withDev s (egressWrite n.val .clean env s.dev)) := onDev_live hl
    rw [egressWrite_of_picked hs hp ht hx hr] at hexec
    refine ⟨fun hok => ?_, fun hbad => ?_⟩
    · rwa [if_pos hok] at hexec
    · rw [if_neg (ne_true_of_eq_false hbad)] at hexec
      exact ⟨_, hexec, congrArg (withDev s) (resultFault_eq s.dev n.val x.recordId), ctxs_resultFault ..⟩

end Sys2Proof.Proofs
end

section
/-! SUPPORT. The pruning test: how it reads its slots, the columns of its table, and what a test does to a record. -/
namespace Sys2Proof.Machine

/-! ### The slots compared (R241) -/

theorem Val.isNan_iff (v : Val) : v.isNan = true ↔ v = .nan := by
  cases v <;> simp [isNan]

theorem slotNan_iff (g : GroveInfo) (a : Nat) : slotNan g a = true ↔ g.valueFmt ≠ 1 ∧ floatVal .fp32 a = .nan := by
  simp [slotNan, Val.isNan_iff]

theorem slotLt_iff (g : GroveInfo) (a b : Nat) :
    slotLt g a b = true ↔ if g.valueFmt = 1 then sext 64 a < sext 64 b else Val.lt (floatVal .fp32 a) (floatVal .fp32 b) = true := by
  unfold slotLt; split <;> simp

theorem slotLe_iff (g : GroveInfo) (a b : Nat) :
    slotLe g a b = true ↔ if g.valueFmt = 1 then sext 64 a ≤ sext 64 b else Val.le (floatVal .fp32 a) (floatVal .fp32 b) = true := by
  unfold slotLe; split <;> simp

/-! ### The table of the rule (R241) -/

/-- No test decides on these slots: one of them is NaN, or LO is above HI. -/
def undecidable (g : GroveInfo) (s lo hi : Nat) (b : Nat × Nat) : Prop :=
  slotNan g s = true ∨ slotNan g lo = true ∨ slotNan g hi = true ∨ slotLt g b.2 b.1 = true

/-- A row of the table, by whether its column for DECISION 1 and its column for DECISION 0 hold. -/
def tableRow (one zero : Bool) : Option Bool := if one then some true else if zero then some false else none

/-- Where at most one column of a row holds, the decision tells which. -/
theorem tableRow_iff {one zero : Bool} (h : ¬(one = true ∧ zero = true)) :
    (tableRow one zero = some true ↔ one = true) ∧ (tableRow one zero = some false ↔ zero = true) := by
  revert one zero; decide

theorem decisive_of_undecidable {g : GroveInfo} {s lo hi : Nat} {b : Nat × Nat} (h : undecidable g s lo hi b) :
    decisive g s lo hi b = none :=
  if_pos (by simpa [undecidable, or_assoc] using h)

theorem decisive_of_not_undecidable {g : GroveInfo} {s lo hi : Nat} {b : Nat × Nat} (h : ¬undecidable g s lo hi b) :
    decisive g s lo hi b =
      if g.sense = 0 then tableRow (slotLt g g.threshold lo) (slotLe g hi g.threshold)
      else tableRow (slotLe g g.threshold lo) (slotLt g hi g.threshold) :=
  if_neg (by simpa [undecidable, or_assoc] using h)

/-! ### What a test does to a record (R242, R250) -/

/-- Every round in flight of a squashed context is squashed. -/
theorem Ctx.squashed_of_mem_squash {x : Ctx} {y : Round} (h : y ∈ x.squash.rounds) : y.squashed = true := by
  obtain ⟨r, -, rfl⟩ := List.mem_map.mp h
  rfl

/-- A record pruned here takes no further round (R250). -/
theorem Ctx.skips_of_pruned {x : Ctx} {p : Pruned} (h : x.pruned = some p) : x.skips = true := by
  simp [skips, h]

theorem not_testable {pr : Pair} {x : Ctx} (h : pr.info.prune = false ∨ x.skips = true) (first tail : Bool) (r : Nat) :
    testable pr first tail x r = false := by
  rcases h with h | h <;> simp [testable, h]

theorem testPoint_of_not_testable {pr : Pair} {first tail : Bool} {r : Nat} {x : Ctx} (h : testable pr first tail x r = false)
    (c : Core) : testPoint pr first tail r c x = (c, x) :=
  if_pos (by simp [h])

/-- A test leaves core and record as they are, or prunes the record: the record's rounds are squashed, and the core raises flags and
counts the decision. -/
theorem testPoint_cases (pr : Pair) (first tail : Bool) (r : Nat) (c : Core) (x : Ctx) :
    testPoint pr first tail r c x = (c, x) ∨ ∃ p f nf, testPoint pr first tail r c x =
      ((c.raise x.nflags f).notePruned p.decision, { x with pruned := some p, nflags := nf }.squash) := by
  cases ht : testable pr first tail x r with
  | false => exact .inl (testPoint_of_not_testable ht c)
  | true =>
    rw [testPoint, if_neg (by simp [ht])]
    dsimp only
    split
    · exact .inl rfl
    · exact .inr ⟨⟨_, _, _, _⟩, _, _, rfl⟩

end Sys2Proof.Machine

namespace Sys2Proof.Proofs
open Sys2Proof.Machine

/-- Settles O51: the slots' comparisons are those of the statement (`slotNan_iff`, `slotLt_iff`, `slotLe_iff`), and past the four
conditions under which no test decides the test is the row of SENSE, which its columns determine (`tableRow_iff`). -/
theorem pruneTestDecides : Obligations.PruneTestDecides := by
  unfold Obligations.PruneTestDecides
  intro g s lo hi b
  simp only [← slotNan_iff, ← slotLt_iff, ← slotLe_iff]
  refine ⟨decisive_of_undecidable, fun hd hsense hcols => ?above, fun hd hsense hcols => ?atLeast⟩
  case above =>
    rw [decisive_of_not_undecidable hd, if_pos hsense]
    exact tableRow_iff hcols
  case atLeast =>
    rw [decisive_of_not_undecidable hd, if_neg (by omega)]
    exact tableRow_iff hcols

/-- Settles O52: a test that does not leave the record as it is prunes it (`testPoint_cases`), which squashes its rounds and touches
the core's registers alone; where PRUNE is clear or the record takes no round, no point is tested (`not_testable`). -/
theorem pruningRule : Obligations.PruningRule := by
  unfold Obligations.PruningRule
  refine ⟨fun pr first tail r c x hx hp => ?pruned,
    fun pr first tail r c x h => testPoint_of_not_testable (not_testable h first tail r) c⟩
  case pruned =>
    rcases testPoint_cases pr first tail r c x with h | ⟨p, f, nf, h⟩ <;> rw [h] at hp ⊢
    · exact absurd hx hp
    · exact ⟨Ctx.skips_of_pruned rfl, fun y hy => Ctx.squashed_of_mem_squash hy, rfl⟩

end Sys2Proof.Proofs
end

section
/-! SUPPORT. One change made in several cores, the marker on its way into the cores, and what it does at a core. -/
namespace Sys2Proof.Machine
open Sys2Proof.Safety

/-! ### One change made in several cores -/

section
variable (f : Core → Core) (d : Dev) {ns : List Nat} {n : Nat}

theorem foldl_updCore_coresOnly (ns : List Nat) : CoresOnly d (ns.foldl (fun d n => d.updCore n f) d) :=
  List.foldlRecOn (motive := CoresOnly d) _ _ rfl fun _ he _ _ => he.trans rfl

theorem core_foldl_updCore_other (hn : n ∉ ns) : (ns.foldl (fun d n => d.updCore n f) d).core n = d.core n :=
  List.foldlRecOn (motive := fun e : Dev => e.core n = d.core n) _ _ rfl fun _ he _ hm =>
    (Dev.core_updCore_other _ (ne_of_mem_of_not_mem hm hn).symm f).trans he

/-- A core named once changes once. -/
theorem core_foldl_updCore (hd : ns.Nodup) (hn : n ∈ ns) : (ns.foldl (fun d n => d.updCore n f) d).core n = f (d.core n) := by
  obtain ⟨xs, ys, rfl⟩ := List.append_of_mem hn
  obtain ⟨-, hys, hxy⟩ := List.nodup_append.mp hd
  have hxs : n ∉ xs := fun h => hxy n h n List.mem_cons_self rfl
  rw [List.foldl_append, List.foldl_cons, core_foldl_updCore_other f _ (List.nodup_cons.mp hys).1, Dev.core_updCore,
    core_foldl_updCore_other f d hxs]

end

/-! ### The marker placed at the plot's entry (R268) -/

/-- A stream is among the switch points where it is open, with the sequence number it assigns next. -/
theorem Plot.mem_openStreams (p : Plot) (n q : Nat) :
    (n, q) ∈ p.openStreams ↔ n < 64 ∧ (Tbl.get {} n p.streams : Stream).src ≠ none ∧ q = (Tbl.get {} n p.streams : Stream).next := by
  rw [openStreams, List.mem_filterMap]
  dsimp only
  constructor
  · rintro ⟨k, hk, h⟩
    split at h
    next hopen =>
      cases h
      exact ⟨List.mem_range.mp hk, Option.isSome_iff_ne_none.mp hopen, rfl⟩
    next => cases h
  · rintro ⟨hn, hopen, rfl⟩
    exact ⟨n, List.mem_range.mpr hn, if_pos (Option.isSome_iff_ne_none.mpr hopen)⟩

/-- A plot once its graft's marker is placed: one of a drain-and-swap is held at the entry (R268, R277 step 3). -/
def Plot.markPlaced (p : Plot) (pid : Nat) (g : GraftState) : Plot :=
  { p.noteMarks p.openStreams with
    graft := some { g with placed := true }, entryMarker := if g.drain then some (p.marker pid g) else none
    lastMark := some (p.marker pid g) }

theorem placeMarker_of_ready {pid : Nat} {p : Plot} {g : GraftState} {d : Dev} (hp : d.plot pid = some p) (hg : p.graft = some g)
    (hplaced : g.placed = false) (hs : p.startsHere = true) (hr : p.restart = .none) (hheld : p.held = false) :
    placeMarker pid d = if g.drain then d.setPlot pid (p.markPlaced pid g)
      else toHeads (d.setPlot pid (p.markPlaced pid g)) p (p.marker pid g) := by
  have hgoes : (g.placed || !p.startsHere || p.restart != .none || p.held) = false := by rw [hplaced, hs, hr, hheld]; rfl
  simp only [placeMarker, hp, hg, hgoes, if_neg Bool.false_ne_true]
  rfl

/-- A core with the marker at the end of its head's input. -/
def Core.headIn (m : Marker) (c : Core) : Core := { c with headQueue := c.headQueue ++ [.marker m] }

theorem toHeads_eq (d : Dev) (p : Plot) (m : Marker) : toHeads d p m = p.heads.foldl (fun d h => d.updCore h (Core.headIn m)) d := rfl

theorem toHeads_coresOnly (d : Dev) (p : Plot) (m : Marker) : CoresOnly d (toHeads d p m) := foldl_updCore_coresOnly ..

theorem CoresOnly.scoreOnly {d e : Dev} (h : CoresOnly d e) : ScoreOnly d e := by
  unfold CoresOnly ScoreOnly at *; rw [h]

/-! ### The marker at the heads and at the first core (R270, R271) -/

/-- A head with the marker handed on; a hitless one switches its tables (R82, R270). -/
theorem markerAtHead_of_binned {n : Nat} {m : Marker} {rest : List HeadIn} {d : Dev} (hs : d.stopped n = false)
    (hq : (d.core n).headQueue = .marker m :: rest) (hw : (d.core n).headWork = []) :
    markerAtHead n d = d.updCore n fun c => { c with
      headQueue := rest, headOut := c.headOut ++ [.marker m.bytes false n]
      sieveActive := if m.kind = 0 then c.sieveShadow else c.sieveActive
      sieveShadow := if m.kind = 0 then c.sieveActive else c.sieveShadow } := by
  rw [markerAtHead, hs, if_neg Bool.false_ne_true]
  refine Dev.updCore_congr ?_
  simp only [hq, hw]
  by_cases hk : m.kind = 0
  · simp only [if_pos hk]; rfl
  · simp only [if_neg hk]

/-- The heads of a plot with the marker taken from the front of their output. -/
def takeFromHeads (d : Dev) (p : Plot) : Dev :=
  p.heads.foldl (fun d h => d.updCore h fun c => { c with headOut := c.headOut.drop 1 }) d

/-- Once every head has the marker, the first core takes it from each and forwards one (R271). -/
theorem markerAtFirst_of_all {n pid : Nat} {p : Plot} {b : Bytes} {d : Dev} (hs : d.stopped n = false) (hp : d.plotOf n = some (pid, p))
    (hf : p.isFirst n = true) (hall : ∀ h ∈ p.heads, d.stopped h = false ∧ (d.core h).markerOut.isSome = true)
    (hb : (p.heads.head?.bind fun h => (d.core h).markerOut) = some b) :
    markerAtFirst n d = (takeFromHeads d p).updCore n (Core.laneIn (.marker b false (p.heads.headD n))) := by
  have hstop : p.heads.any d.stopped = false := List.any_eq_false.mpr fun h hh => ne_true_of_eq_false (hall h hh).1
  have hout : p.heads.all (fun h => (d.core h).markerOut.isSome) = true := List.all_eq_true.mpr fun h hh => (hall h hh).2
  simp only [markerAtFirst, hp, hf, hs, hstop, hout, hb, Bool.not_true, Bool.or_self, if_neg Bool.false_ne_true]
  rfl

section
variable (d : Dev) (p : Plot) (n : Nat) (m : BinMsg)

theorem takeFromHeads_coresOnly : CoresOnly d (takeFromHeads d p) := foldl_updCore_coresOnly ..

/-- A message into a lane leaves every head's output alone. -/
theorem headOut_laneIn (h : Nat) : ((d.updCore n (Core.laneIn m)).core h).headOut = (d.core h).headOut := by
  by_cases hn : h = n
  · rw [hn, Dev.core_updCore, Core.laneIn]
  · rw [Dev.core_updCore_other _ hn]

theorem headOut_takeFromHeads {h : Nat} (hd : p.heads.Nodup) (hh : h ∈ p.heads) :
    ((takeFromHeads d p).core h).headOut = (d.core h).headOut.drop 1 := by
  rw [takeFromHeads, core_foldl_updCore _ _ hd hh]

/-- The heads' outputs alone change, so a lane stands even where the first core is a head. -/
theorem binLane_takeFromHeads : ((takeFromHeads d p).core n).binLane = (d.core n).binLane := by
  refine List.foldlRecOn (motive := fun e : Dev => (e.core n).binLane = (d.core n).binLane) _ _ rfl fun e he h _ => ?_
  by_cases hn : n = h
  · rw [← hn, Dev.core_updCore]; exact he
  · rwa [Dev.core_updCore_other _ hn]

end

/-! ### What waits in the ports while a marker passes (R470) -/

/-- What waits in the receive buffers is the same. -/
def SameRx (d e : Dev) : Prop := ∀ i, (e.port i).rx = (d.port i).rx

theorem SameRx.refl (d : Dev) : SameRx d d := fun _ => rfl

theorem SameRx.trans {d e f : Dev} (h : SameRx d e) (k : SameRx e f) : SameRx d f := fun i => (k i).trans (h i)

theorem SameRx.emit {d e : Dev} (h : SameRx d e) (o : Out) : SameRx d (e.emit o) := h

theorem updPort_sameRx {f : Port → Port} {d : Dev} {pn : Nat} (h : (f (d.port pn)).rx = (d.port pn).rx) : SameRx d (d.updPort pn f) := by
  intro i
  by_cases hi : i = pn
  · rw [hi, Dev.port_updPort, h]
  · rw [Dev.port_updPort_other _ hi]

theorem SameRx.foldl {α : Type} {f : Dev → α → Dev} (h : ∀ d x, SameRx d (f d x)) (xs : List α) (d : Dev) : SameRx d (xs.foldl f d) :=
  List.foldlRecOn (motive := SameRx d) _ _ (.refl d) fun e he x _ => he.trans (h e x)

theorem sendClass_sameRx (pn : Nat) (d : Dev) (cls : Nat) : SameRx d (sendClass pn d cls) := by
  unfold sendClass
  dsimp only
  split
  · exact .refl d
  · split
    · exact .refl d
    · exact (updPort_sameRx rfl).emit _

/-- What a link sends leaves the receive buffers alone (R469, R470). -/
theorem sendUnit_sameRx (d : Dev) (dst kind plot : Nat) (body : Bytes) (sender : TxSender) :
    SameRx d (sendUnit d dst kind plot body sender) := by
  unfold sendUnit
  split
  · exact .refl d
  · exact (updPort_sameRx (f := fun p => { p with txq := p.txq ++ [_] }) rfl).trans
      (.foldl (fun d _ => .foldl (sendClass_sameRx _) _ d) _ _)

theorem forwardBins_sameRx (d : Dev) (pid : Nat) (p : Plot) (n : Nat) (m : BinMsg) (bytes : Bytes) (kind : Nat) :
    SameRx d (forwardBins d pid p n m bytes kind) := by
  unfold forwardBins
  split
  · exact .refl d
  · split
    · exact .refl d
    · exact sendUnit_sameRx _ _ _ _ _ _

/-- With nothing in the receive buffers no unit goes on into a lane (R470). -/
theorem refill_of_noRx {d : Dev} (h : ∀ i, (d.port i).rx = []) (sender : Nat) : d.refill sender = d := by
  unfold Dev.refill
  split
  · rfl
  · refine List.foldlRecOn (motive := fun e => e = d) _ _ rfl fun e he pn _ => ?_
    rw [he, Dev.deliverPort, h pn, deliverChain]

/-! ### The marker passes a core (R272) -/

theorem updPlot_scoreOnly (d : Dev) (pid : Nat) (f : Plot → Plot) : ScoreOnly d (d.updPlot pid f) := by
  unfold Dev.updPlot; split <;> rfl

theorem plot_forwardBins (d : Dev) (pid : Nat) (p : Plot) (n : Nat) (m : BinMsg) (bytes : Bytes) (kind k : Nat) :
    (forwardBins d pid p n m bytes kind).plot k = d.plot k := by
  unfold forwardBins
  split
  · rfl
  · split
    · rfl
    · rw [sendUnit_frame]; rfl

section
variable (d : Dev) (pid : Nat) (p : Plot) (n : Nat) (m : Marker) (b : Bytes)

/-- The digital part once the marker has passed a core, before the marker is forwarded. -/
def passedAt : Dev :=
  (d.updCore n fun c => c.passMarker m !(passesBy p c m)).updPlot pid fun q => q.passMarker n m (p.marksMoved (d.core n) m)

theorem switchCore_eq : switchCore d pid p n m b = forwardBins (passedAt d pid p n m) pid p n (.marker b false n) b 2 := rfl

theorem core_passedAt : (passedAt d pid p n m).core n = (d.core n).passMarker m !(passesBy p (d.core n) m) := by
  rw [passedAt, core_updPlot, Dev.core_updCore]

theorem core_passedAt_other {k : Nat} (hk : k ≠ n) : (passedAt d pid p n m).core k = d.core k := by
  rw [passedAt, core_updPlot, Dev.core_updCore_other _ hk]

theorem switchCore_scoreOnly : ScoreOnly d (switchCore d pid p n m b) :=
  ((updCore_scoreOnly ..).trans (updPlot_scoreOnly ..)).trans (forwardBins_scoreOnly ..)

theorem switchCore_sameRx : SameRx d (switchCore d pid p n m b) := by
  have hpassed : SameRx d (passedAt d pid p n m) := fun i => by rw [passedAt, Dev.port, Dev.updPlot_ports]; rfl
  exact hpassed.trans (forwardBins_sameRx _ _ _ _ _ _ _)

/-- The core keeps its own part, as the next core is another. -/
theorem core_switchCore (h : p.after n ≠ some n) :
    (switchCore d pid p n m b).core n = (d.core n).passMarker m !(passesBy p (d.core n) m) := by
  rw [switchCore_eq, core_forwardBins_other h, core_passedAt]

/-- The next core has the marker at the end of its lane. -/
theorem binLane_switchCore_next {k : Nat} (hk : p.after n = some k) (hkn : k ≠ n) :
    ((switchCore d pid p n m b).core k).binLane = (d.core k).binLane ++ [.marker b false n] := by
  rw [switchCore_eq, forwardBins_of_next hk, Dev.core_updCore, core_passedAt_other _ _ _ _ _ hkn, Core.laneIn]

theorem plot_switchCore (hp : d.plot pid = some p) :
    (switchCore d pid p n m b).plot pid = some (p.passMarker n m (p.marksMoved (d.core n) m)) := by
  rw [switchCore_eq, plot_forwardBins, passedAt, Dev.plot_updPlot, Dev.plot_updCore, hp, Option.map_some]

end

/-- The marker's passing ends the hold of its core (R282). -/
theorem Plot.passMarker_of_held {p : Plot} {n : Nat} (h : p.heldCore = some n) (m : Marker) (moved : Bool) :
    (p.passMarker n m moved).heldCore = none ∧
      (p.passMarker n m moved).state = if p.state = .held then .grafting else p.state := by
  unfold passMarker
  split <;> simp [h, noteMarks]

/-! ### The marker reaches a core, and a held one (R269, R272, R276, R282, R418) -/

section
variable {n pid sender : Nat} {p : Plot} {b : Bytes} {remote : Bool} {rest : List BinMsg} {d : Dev}
  (hs : d.stopped n = false) (hp : d.plotOf n = some (pid, p)) (hb : (d.core n).binLane = .marker b remote sender :: rest)
include hs hp hb

/-- A marker that meets every record before it admitted and no physical fault is checked; it then passes where there is room, or is
held. -/
theorem coreSwitch_of_reached (hh : p.heldCore ≠ some n) (ha : (d.core n).atMarker = true) :
    coreSwitch n .clean d =
      if !markerOk b then sumCheckFailed d n pid sender remote none
      else if canPass d p n (parseMarker b) then
        (if d.nextRoom p n true b.length then (switchCore d pid p n (parseMarker b) b).refill sender else d)
      else holdMarker d pid p n (parseMarker b) := by
  have hgoes : (d.stopped n || decide (p.heldCore = some n) || !(d.core n).atMarker) = false := by
    rw [hs, ha, decide_eq_false hh]; rfl
  simp only [coreSwitch, hp, hb, hgoes, if_neg Bool.false_ne_true, Upset.chainBuffer, guarded_clean, Upset.flipBytes]
  exact if_neg Bool.false_ne_true

/-- A held marker passes where it can and there is room, and else stays. -/
theorem releaseMarker_of_held (hh : p.heldCore = some n) :
    releaseMarker n d = if canPass d p n (parseMarker b) && d.nextRoom p n true b.length then
      (switchCore d pid p n (parseMarker b) b).refill sender else d := by
  simp only [releaseMarker, hp, hb, hs, hh]
  cases canPass d p n (parseMarker b) <;> cases d.nextRoom p n true b.length <;> simp

end

/-- A core after it holds a marker that no GRAFT of the device contradicts. -/
def Core.holdsMarker (m : Marker) (c : Core) : Core := { c with markVersion := m.newVersion, markMismatch := false }

/-- A core with no GRAFT for the marker holds it, and the plot shows it (R272, R276, R282). -/
theorem holdMarker_of_agreed {pid n : Nat} {p : Plot} {m : Marker} {d : Dev} (hp : d.plot pid = some p)
    (hd : graftDiffers p n m = none) :
    holdMarker d pid p n m = (d.updCore n (Core.holdsMarker m)).setPlot pid
      { p with heldCore := some n, state := if p.state = .grafting then .held else p.state } := by
  simp only [holdMarker, hd, Option.isSome_none, if_neg Bool.false_ne_true]
  exact Dev.updPlot_of_plot (by rw [Dev.plot_updCore, hp]) _

/-- A core that counts a packet which failed its check (R199). -/
def Core.countCheckFailed (c : Core) : Core :=
  { c with regs := { c.regs with accStatus := setBit c.regs.accStatus 1, accCnt := laneBump c.regs.accCnt 1 } }

/-- What fails its check inside the device is charged to the core that sent it (R418). -/
theorem sumCheckFailed_of_local (d : Dev) (n pid sender : Nat) (rid : Option Nat) : sumCheckFailed d n pid sender false rid =
    (d.updCore n Core.countCheckFailed).detect sender stSumPacketCheck 6 [] rid := rfl

end Sys2Proof.Machine

namespace Sys2Proof.Proofs
open Sys2Proof.Machine Sys2Proof.Safety

/-- Settles O56: the marker reaches every head once, as a plot names each head once (`core_foldl_updCore`); at a core one equation says
what follows (`coreSwitch_of_reached`, `releaseMarker_of_held`), and the marker's passing changes its core by `Core.passMarker`, its
plot by `Plot.passMarker`, and the next lane. -/
theorem graftMarkers : Obligations.GraftMarkers := by
  unfold Obligations.GraftMarkers
  refine ⟨⟨fun pid p g s hl hp hg hplaced hstart hr hheld => ?place, fun p n q => p.mem_openStreams n q,
      fun n m rest s ⟨hl, hs⟩ hq hw => onDev_coreStep hl (markerAtHead_of_binned hs hq hw),
      fun n pid p b s ⟨⟨hl, hs⟩, hp, _⟩ hf hnd hall hb => ?first⟩,
    fun n pid sender p b remote rest s ⟨⟨hl, hs⟩, hp, hpid⟩ hb hh ha hok hpass hnext hroom hrx => ?switch,
    fun n pid sender p b remote rest s ⟨⟨hl, hs⟩, hp, hpid⟩ hb hh ha hok hpass hdiff => ?hold,
    fun n pid p b remote sender rest s ⟨⟨hl, hs⟩, hp, hpid⟩ hb hh => ?release,
    fun n pid sender p b rest s ⟨⟨hl, hs⟩, hp, _⟩ hb hh ha hok => ?check⟩
  case place =>
    have hexec : exec (.graftMarkerPlace pid) s = .next (withDev s (placeMarker pid.val s.dev)) := onDev_live hl
    rw [placeMarker_of_ready hp hg hplaced hstart hr hheld] at hexec
    refine ⟨fun hd => ?_, fun hd hnd => ?_, rfl, rfl, rfl, rfl⟩
    · rw [if_pos hd, Plot.markPlaced, if_pos hd] at hexec
      exact hexec
    · rw [if_neg (ne_true_of_eq_false hd), Plot.markPlaced, if_neg (ne_true_of_eq_false hd)] at hexec
      refine ⟨_, hexec, scoringOnly_of_scoreOnly ((setPlot_scoreOnly ..).trans (toHeads_coresOnly ..).scoreOnly), ?_,
        fun h hh => ?_, fun h hh => ?_⟩
      all_goals dsimp only
      · rw [(toHeads_coresOnly ..).plot_eq, Dev.plot_setPlot]
      · rw [toHeads_eq, core_foldl_updCore _ _ hnd hh]; rfl
      · rw [toHeads_eq, core_foldl_updCore_other _ _ hh]; rfl
  case first =>
    have hexec : exec (.markerAtFirstCore n) s = .next (withDev s (markerAtFirst n.val s.dev)) := onDev_live hl
    rw [markerAtFirst_of_all hs hp hf hall hb] at hexec
    have hcores : CoresOnly s.dev ((takeFromHeads s.dev p).updCore n.val (Core.laneIn (.marker b false (p.heads.headD n.val)))) :=
      (takeFromHeads_coresOnly ..).trans rfl
    refine ⟨_, hexec, congrArg (withDev s) hcores, fun h hh => ?_, ?_, fun m hm hh => ?_⟩
    all_goals dsimp only
    · rw [headOut_laneIn, headOut_takeFromHeads _ _ hnd hh]
    · rw [Dev.core_updCore, Core.laneIn, binLane_takeFromHeads]
    · rw [Dev.core_updCore_other _ hm]
      exact core_foldl_updCore_other _ _ hh
  case switch =>
    have hexec : exec (.coreSwitch n .clean) s = .next (withDev s (coreSwitch n.val .clean s.dev)) := onDev_live hl
    have hrefill : (switchCore s.dev pid p n.val (parseMarker b) b).refill sender = switchCore s.dev pid p n.val (parseMarker b) b := by
      rcases Nat.lt_or_ge sender 256 with hlocal | hremote
      · exact refill_of_local hlocal _
      · exact refill_of_noRx (fun i => (switchCore_sameRx _ _ _ _ _ _ i).trans (hrx hremote i)) sender
    rw [coreSwitch_of_reached hs hp hb hh ha, hok, if_neg (by decide), if_pos hpass, if_pos hroom, hrefill] at hexec
    refine ⟨_, hexec, scoringOnly_of_scoreOnly (switchCore_scoreOnly ..), ?_⟩
    dsimp only
    rw [core_switchCore _ _ _ _ _ _ hnext]
    refine ⟨?_, rfl, rfl, rfl, congrArg (List.drop 1) hb, rfl, fun k hk => binLane_switchCore_next _ _ _ _ _ _ hk ?_⟩
    · cases passesBy p (s.dev.core n.val) (parseMarker b) <;> simp [Core.passMarker]
    · rintro rfl; exact hnext hk
  case hold =>
    have hexec : exec (.coreSwitch n .clean) s = .next (withDev s (coreSwitch n.val .clean s.dev)) := onDev_live hl
    rw [coreSwitch_of_reached hs hp hb hh ha, hok, if_neg (by decide), if_neg (ne_true_of_eq_false hpass),
      holdMarker_of_agreed hpid hdiff] at hexec
    refine ⟨_, hexec, rfl, ?_, Dev.plot_setPlot ..⟩
    dsimp only
    rw [Dev.core_setPlot, Dev.core_updCore, Core.holdsMarker]
  case release =>
    have hexec : exec (.heldMarkerRelease n) s = .next (withDev s (releaseMarker n.val s.dev)) := onDev_live hl
    rw [releaseMarker_of_held hs hp hb hh] at hexec
    refine ⟨fun hpass hroom => ⟨?_, _, plot_switchCore _ _ _ _ _ _ hpid, Plot.passMarker_of_held hh ..⟩, fun hno => ?_⟩
    · rwa [if_pos (by rw [hpass, hroom]; rfl)] at hexec
    · rwa [if_neg (by rcases hno with h | h <;> simp [h])] at hexec
  case check =>
    have hexec : exec (.coreSwitch n .clean) s = .next (withDev s (coreSwitch n.val .clean s.dev)) := onDev_live hl
    rw [coreSwitch_of_reached hs hp hb hh ha, hok, if_pos (by decide), sumCheckFailed_of_local] at hexec
    exact ⟨_, hexec, rfl⟩

end Sys2Proof.Proofs
end

section
/-! SUPPORT. How a graft ends, and drain-and-swap. -/
namespace Sys2Proof.Machine
open Sys2Proof.Safety

/-! ### A graft completes (R264, R275, R283) -/

/-- A plot whose graft's swap is made, the registers of R283 written. -/
def Plot.graftEnded (st : Status) (moved : Bool) (p : Plot) : Plot :=
  { p with
    graft := none, entryMarker := none, grafts := p.grafts + 1, lastDrained := st == stGraftDrained
    drained := if st = stGraftDrained then p.drained + 1 else p.drained, switchMoved := moved }

section
variable (d : Dev) (pid job : Nat) (st : Status) (moved : Bool) (f : Plot → Plot)

/-- A plot changed as its graft ends: the plots and the jobs alone change, the graft's descriptor being ended. -/
theorem endGraft_updPlot_frame : endGraft (d.updPlot pid f) pid job st moved =
    { d with plots := (endGraft (d.updPlot pid f) pid job st moved).plots, jobs := (d.finishJob job st).jobs } := by
  have hjobs (e : Dev) : endGraft e pid job st moved =
      { e with plots := (endGraft e pid job st moved).plots, jobs := (e.finishJob job st).jobs } := by
    unfold endGraft; rw [Dev.updPlot_frame]; rfl
  rw [hjobs, Dev.updPlot_frame d]; rfl

theorem plot_endGraft_updPlot {p : Plot} (hp : d.plot pid = some p) :
    (endGraft (d.updPlot pid f) pid job st moved).plot pid = some ((f p).graftEnded st moved) := by
  have hend (e : Dev) : (endGraft e pid job st moved).plot pid = (e.plot pid).map (Plot.graftEnded st moved) := Dev.plot_updPlot ..
  rw [hend, Dev.plot_updPlot, hp, Option.map_some, Option.map_some]

end

/-- The plot whose groves a hitless graft has swapped (R275). -/
def Plot.swapped (p : Plot) : Plot := { p with state := .ready, activeGrove := p.shadowGrove, shadowGrove := p.activeGrove }

/-- The plot in the state that its groves give it (R282). -/
def Plot.atRest (p : Plot) : Plot := { p with state := restState p.activeGrove.isSome p.shadowGrove.isSome }

section
variable {pid : Nat} {p : Plot} {g : GraftState} {d : Dev} (hp : d.plot pid = some p) (hg : p.graft = some g)
include hp hg

/-- A graft waits for its marker, and a hitless one for the records of the old grove (R264, R275). -/
theorem graftComplete_of_waiting
    (hw : p.markerThrough g = false ∨ (g.drain = false ∧ ∃ n ∈ p.cores, (d.core n).oldContexts ≠ 0)) : graftComplete pid d = d := by
  simp only [graftComplete, hp, hg]
  rcases hw with hm | ⟨hd, n, hn, hold⟩
  · simp [hm]
  · have hany : (p.cores.any fun n => (d.core n).oldContexts ≠ 0) = true := List.any_eq_true.mpr ⟨n, hn, decide_eq_true hold⟩
    rw [hd, if_neg Bool.false_ne_true, if_pos hany, ite_self]

theorem graftComplete_of_hitless (hm : p.markerThrough g = true) (hd : g.drain = false)
    (hold : ∀ n ∈ p.cores, (d.core n).oldContexts = 0) :
    graftComplete pid d = endGraft (d.updPlot pid Plot.swapped) pid g.job 0 g.moved := by
  have hnone : (p.cores.any fun n => (d.core n).oldContexts ≠ 0) = false := by simpa using hold
  simp only [graftComplete, hp, hg, hm, hd, hnone, Bool.not_true, if_neg Bool.false_ne_true]
  rfl

theorem graftComplete_of_drain (hm : p.markerThrough g = true) (hd : g.drain = true) :
    graftComplete pid d = endGraft (d.updPlot pid Plot.atRest) pid g.job stGraftDrained g.moved := by
  simp only [graftComplete, hp, hg, hm, hd, Bool.not_true, if_neg Bool.false_ne_true]
  rfl

end

/-! ### Drain-and-swap (R277) -/

/-- The plot whose groves a drain-and-swap has changed: the old one is kept or cleared (R277 step 6). -/
def Plot.drainSwapped (keep : Bool) (p : Plot) : Plot :=
  { p with activeGrove := p.shadowGrove, shadowGrove := if keep then p.activeGrove else none }

/-- The plot once the held marker has entered the heads (R277 step 7). -/
def Plot.entryReleased (p : Plot) : Plot := { p with entryMarker := none, graft := p.graft.map fun g => { g with released := true } }

/-- Every core's pairs, and the heads' tables, as a drain-and-swap leaves them (R277 step 5). -/
def drainCores (d : Dev) (p : Plot) (keep : Bool) : Dev :=
  if keep then d.updCores p Core.swapPairs
  else
    (p.heads.foldl (fun d h => d.updCore h fun c => c.replaceSieve ((p.shadowGrove.map fun g => g.info.sieve).getD [])) d).updCores p
      fun c => { c.setPair c.active none with active := 1 - c.active }

theorem drainCores_coresOnly (d : Dev) (p : Plot) (keep : Bool) : CoresOnly d (drainCores d p keep) := by
  unfold drainCores
  split
  · exact foldl_updCore_coresOnly ..
  · exact (foldl_updCore_coresOnly ..).trans (foldl_updCore_coresOnly ..)

theorem drainSwap_eq (d : Dev) (pid : Nat) (p : Plot) (keep : Bool) :
    drainSwap d pid p keep = (drainCores d p keep).updPlot pid (Plot.drainSwapped keep) := by
  cases keep <;> rfl

theorem releaseEntry_eq (d : Dev) (pid : Nat) (p : Plot) (m : Marker) :
    releaseEntry d pid p m = (toHeads d p m).updPlot pid Plot.entryReleased := rfl

section
variable (d : Dev) (pid : Nat) (p : Plot) (keep : Bool) (m : Marker)

/-- Steps 5 to 7 of R277 change the cores and the plot alone. -/
theorem releaseEntry_drainSwap_scoreOnly : ScoreOnly d (releaseEntry (drainSwap d pid p keep) pid p m) := by
  rw [drainSwap_eq, releaseEntry_eq]
  exact (((drainCores_coresOnly ..).scoreOnly.trans (updPlot_scoreOnly ..)).trans (toHeads_coresOnly ..).scoreOnly).trans
    (updPlot_scoreOnly ..)

theorem plot_releaseEntry_drainSwap (hp : d.plot pid = some p) :
    (releaseEntry (drainSwap d pid p keep) pid p m).plot pid = some (p.drainSwapped keep).entryReleased := by
  rw [drainSwap_eq, releaseEntry_eq, Dev.plot_updPlot, (toHeads_coresOnly ..).plot_eq, Dev.plot_updPlot,
    (drainCores_coresOnly ..).plot_eq, hp, Option.map_some, Option.map_some]

end

/-- The swap is made when the plot is empty, and not before (R277 step 4). -/
theorem drainAndSwap_of_held {pid : Nat} {p : Plot} {g : GraftState} {m : Marker} {d : Dev} (hp : d.plot pid = some p)
    (hg : p.graft = some g) (hm : p.entryMarker = some m) (hd : g.drain = true) (hr : p.restart = .none) :
    drainAndSwap pid d = if p.empty' d then releaseEntry (drainSwap d pid p g.keepOld) pid p m else d := by
  have hgoes : (g.drain && p.restart == .none && p.empty' d) = p.empty' d := by rw [hd, hr]; rfl
  simp only [drainAndSwap, hp, hg, hm, hgoes]

/-- A core of an empty plot holds no context, and nothing waits in it. -/
theorem empty_of_mem_cores {p : Plot} {d : Dev} {n : Nat} (h : p.empty' d = true) (hn : n ∈ p.cores) :
    (d.core n).ctxs = [] ∧ (d.core n).headQueue = [] ∧ (d.core n).binLane = [] := by
  have hcore : (d.core n).drained = true := List.all_eq_true.mp (Bool.and_eq_true_iff.mp h).1 n hn
  simp only [Core.drained, Bool.and_eq_true, List.isEmpty_iff] at hcore
  obtain ⟨⟨⟨⟨⟨hqueue, -⟩, -⟩, hlane⟩, -⟩, hctxs⟩ := hcore
  exact ⟨hctxs, hqueue, hlane⟩

end Sys2Proof.Machine

namespace Sys2Proof.Proofs
open Sys2Proof.Machine Sys2Proof.Safety

/-- Settles O57: a graft's end changes its plot and its descriptor (`endGraft_updPlot_frame`), a drain-and-swap's swap the cores and the
plot; until their conditions hold the commands change nothing. -/
theorem graftsEnd : Obligations.GraftsEnd := by
  unfold Obligations.GraftsEnd
  refine ⟨fun pid p g s hl hp hg hm => ⟨fun hd hold => ?hitless, fun hd => ?drain⟩,
    fun pid p g s hp hg hw => onDev_same (graftComplete_of_waiting hp hg hw),
    fun pid p g m s hl hp hg hm hd hr => ?swap, fun p d h n hn => empty_of_mem_cores h hn⟩
  case hitless =>
    have hexec : exec (.graftComplete pid) s = .next (withDev s (graftComplete pid.val s.dev)) := onDev_live hl
    rw [graftComplete_of_hitless hp hg hm hd hold] at hexec
    exact ⟨_, hexec, congrArg (withDev s) (endGraft_updPlot_frame ..), plot_endGraft_updPlot _ _ _ _ _ _ hp⟩
  case drain =>
    have hexec : exec (.graftComplete pid) s = .next (withDev s (graftComplete pid.val s.dev)) := onDev_live hl
    rw [graftComplete_of_drain hp hg hm hd] at hexec
    exact ⟨_, hexec, congrArg (withDev s) (endGraft_updPlot_frame ..), plot_endGraft_updPlot _ _ _ _ _ _ hp⟩
  case swap =>
    have hexec : exec (.drainAndSwap pid) s = .next (withDev s (drainAndSwap pid.val s.dev)) := onDev_live hl
    rw [drainAndSwap_of_held hp hg hm hd hr] at hexec
    refine ⟨fun he => ?_, fun he => ?_⟩
    · rw [if_pos he] at hexec
      exact ⟨_, _, hexec, scoringOnly_of_scoreOnly (releaseEntry_drainSwap_scoreOnly ..),
        plot_releaseEntry_drainSwap _ _ _ _ _ hp, rfl, rfl, rfl, congrArg (Option.map _) hg, rfl⟩
    · rwa [if_neg (ne_true_of_eq_false he)] at hexec

end Sys2Proof.Proofs
end

section
/-! SUPPORT. What a command can do to the queue and to the management controller, and the ranges that every command keeps. -/

namespace Sys2Proof.Machine
open Sys2Proof.Safety

/-! ### What a command can do to the management controller -/

/-- The MC with the last state left for another, all that a device reset loses being lost (R489, R490). -/
def Mc.darkened (m : Mc) (st : PowerState) (trip : Bool) : Mc :=
  { m.afterReset with pwr := { m.afterReset.pwr with state := st, trip := trip }, testMode := false, taps := [],
                      slotId := if st = .standby then Config.slotId else m.slotId }

/-- The MC as a device comes ON, before its trip is reported (R490, R528). -/
def Mc.woken (m : Mc) (te : Bool) : Mc := Mc.afterReset { m with pwr := { m.pwr with state := .on }, testMode := te }

/-- Every change of the management controller that some command makes. -/
inductive McMove (m : Mc) : Mc → Prop
  | same : McMove m m
  | reset : McMove m m.afterReset
  | pwrWrite (o : Nat) (w : RegW) : McMove m (pwrWrite o w m)
  | coolWrite (o : Nat) (w : RegW) : McMove m (coolWrite o w m)
  | vddRequest (v : Nat) : McMove m (vddRequest v m)
  | limitHost (v : Nat) : McMove m (limitHost v m)
  | limitRack (w : Nat) : 500 ≤ w → w ≤ 3200 → McMove m { m with pwr := { m.pwr with limitRack := w } }
  | refusePower : McMove m m.refusePower
  | coolModel (which v : Nat) : McMove m (coolModel which v m)
  | inputApplied (mv : Nat) : McMove m (inputApplied mv m)
  | inputNoted (mv : Nat) : McMove m { m with pwr := { m.pwr with input := mv } }
  | lockedOut (mv : Nat) (trip : Bool) : McMove m
      { m.darkened .off trip with cool := {}, pwr := { (m.darkened .off trip).pwr with input := mv, uvlo := decide (mv < 47500) } }
  | wokenUp (te : Bool) : McMove m (m.woken te).reportTrip
  | darkened (trip : Bool) : McMove m (m.darkened .standby trip)
  | powerSample (r : PowerReading) : McMove m (powerSample r m)
  | peakClamp (ma : Nat) : McMove m (peakClamp ma m)
  | coolantSample (r : CoolReading) : McMove m (coolantSample r m)
  | flowLow (f : Nat) : McMove m (flowLow f m)
  | valveStep : McMove m (valveStep m)
  | canaryMeasure (counts : List (List Nat)) : McMove m (canaryMeasure counts m)
  | flash (keys : Tbl Bytes) (signed permit : Bool) (firmware : Bytes) (fences : Tbl Nat) (taps : Tbl Tap) : McMove m
      { m with keys := keys, requireSigned := signed, permit := permit, firmware := firmware, fences := fences, taps := taps }

/-- A state that a command may leave: the queue as it stood, the management controller changed in one of those ways. -/
def Follows (s t : State) : Prop := t.pending = s.pending ∧ McMove s.mc t.mc

theorem Follows.mc {s : State} {m : Mc} (h : McMove s.mc m) : Follows s (withMc s m) := ⟨rfl, h⟩

theorem Follows.dev (s : State) (d : Dev) : Follows s (withDev s d) := ⟨rfl, .same⟩

theorem Follows.refl (s : State) : Follows s s := ⟨rfl, .same⟩

theorem resetDevice_follows (failed : List Nat) (s : State) : Follows s (resetDevice failed s) := by
  unfold resetDevice
  split
  · exact ⟨rfl, .reset⟩
  · exact .refl s

theorem reattachWrite_follows (v : Nat) (bme : Bool) (env : Env) (s : State) : Follows s (reattachWrite v bme env s) := by
  unfold reattachWrite
  split
  · exact .refl s
  · split
    · exact resetDevice_follows [] s
    · exact .dev s _

theorem bar0Write_follows (a n v : Nat) (s : State) : Follows s (bar0Write a n v s) := by
  unfold bar0Write
  split
  · exact .dev s _
  · dsimp only
    split
    · exact .dev s _
    · split
      · exact reattachWrite_follows ..
      · split
        · exact .mc (.pwrWrite ..)
        · split
          · exact .mc (.coolWrite ..)
          · exact .dev s _

theorem fatalWrite_follows (w : RegW) (s : State) : Follows s (fatalWrite w s) := by
  unfold fatalWrite
  split
  · exact resetDevice_follows [] s
  · exact .refl s

theorem registerWrite_follows (bar2 : Bool) (a n v : Nat) (s : State) : Follows s (registerWrite bar2 a n v s) := by
  unfold registerWrite
  split
  · exact .refl s
  · split
    · split
      · exact .refl s
      · exact .dev s _
    · split
      · split
        · exact fatalWrite_follows ..
        · split
          · exact .refl s
          · exact bar0Write_follows ..
      · split
        · exact .refl s
        · exact bar0Write_follows ..

theorem hostLinkDown_follows (failed : List Nat) (s : State) : Follows s (hostLinkDown failed s) := by
  unfold hostLinkDown
  dsimp only
  split
  · split
    · exact .dev s _
    · exact .refl s
  · exact resetDevice_follows failed s

theorem inputLockout_follows (mv : Nat) (s : State) : Follows s (inputLockout mv s) := by
  unfold inputLockout
  split
  · exact ⟨rfl, .inputNoted mv⟩
  · exact ⟨rfl, .lockedOut mv _⟩

theorem leaveOn_follows (trip : Bool) (s : State) : Follows s (leaveOn trip s) := by
  unfold leaveOn
  split
  · exact ⟨rfl, .darkened trip⟩
  · exact .refl s

/-- A device reset of a device that is ON: its digital part and its MC after the reset (R442). -/
theorem resetDevice_of_on {s : State} (h : s.mc.pwr.state = .on) (failed : List Nat) :
    resetDevice failed s = { s with dev := s.dev.afterReset s.mc failed, mc := s.mc.afterReset } := if_pos h

theorem powerOn_follows (te : Bool) (failed : List Nat) (s : State) : Follows s (powerOn te failed s) := by
  unfold powerOn
  split
  · rw [resetDevice_of_on rfl]
    exact ⟨rfl, .wokenUp te⟩
  · exact .refl s

theorem fence_follows (n : Nat) (u : Upset) (s : State) : Follows s (fence n u s) := by
  unfold fence
  split
  · exact .refl s
  · dsimp only
    split
    · exact .refl s
    · split
      · exact .dev s _
      · exact ⟨rfl, .flash ..⟩

/-- A state whose queue stands and whose management controller differs in the test access ports alone. -/
theorem Follows.taps {s t : State} (hq : t.pending = s.pending) (h : t.mc = { s.mc with taps := t.mc.taps }) : Follows s t := by
  refine ⟨hq, ?_⟩
  rw [h]
  exact .flash ..

theorem restScan_mc (s : State) : (restScan s).mc = { s.mc with taps := (restScan s).mc.taps } := by
  unfold restScan
  dsimp only

theorem restScan_pending (s : State) : (restScan s).pending = s.pending := by
  unfold restScan
  dsimp only

theorem irScan_follows (ir : Nat) (taps : BitVec 5) (s : State) : ∃ t, irScan ir taps s = .next t ∧ Follows s t := by
  refine ⟨_, rfl, ?_⟩
  split
  · exact .taps (restScan_pending _) (restScan_mc _)
  · exact .refl s

theorem updateLatches_frame (l : List Bool) (is : List Nat) (m : Mc) : updateLatches l is m = { m with taps := (updateLatches l is m).taps } := by
  induction is generalizing l m with
  | nil => rfl
  | cons i is ih =>
    unfold updateLatches
    dsimp only
    rw [ih]
    split <;> rfl

theorem drScan_follows (pins tdi : List Bool) (s : State) : Follows s (drScan pins tdi s) := by
  unfold drScan
  split
  · refine .taps (restScan_pending _) ?_
    rw [restScan_mc]
    dsimp only
    rw [updateLatches_frame]
  · exact .refl s

theorem managed_follows {f : Mc → Mc} (h : ∀ m, McMove m (f m)) (s : State) : ∃ t, managed f s = .next t ∧ Follows s t := by
  refine ⟨_, rfl, rfl, ?_⟩
  dsimp only
  split
  · exact .same
  · exact h s.mc

theorem hostToMc_follows {f : Mc → Mc} (h : ∀ m, McMove m (f m)) (s : State) : ∃ t, hostToMc f s = .next t ∧ Follows s t := by
  refine ⟨_, rfl, rfl, ?_⟩
  dsimp only
  split
  · exact h s.mc
  · exact .same

theorem rackLimit_follows (w : BitVec 16) (s : State) : ∃ t, execPldmRackLimit w s = .next t ∧ Follows s t := by
  refine managed_follows (fun m => ?_) s
  split
  · exact .refusePower
  · exact .limitRack _ (by simp_all) (by simp_all)

theorem firmwareUpdate_follows (image : Bytes) (s : State) : ∃ t, execPldmFirmwareUpdate image s = .next t ∧ Follows s t := by
  refine managed_follows (fun m => ?_) s
  split
  · exact .flash ..
  · exact .same

/-- Every command answers a next state, leaves the queue, and changes the management controller in one of those ways. -/
theorem exec_follows (i : Instr) (s : State) : ∃ t, exec i s = .next t ∧ Follows s t := by
  cases i
  case registerWrite => exact ⟨_, rfl, registerWrite_follows ..⟩
  case hostLinkDown => exact ⟨_, rfl, hostLinkDown_follows ..⟩
  case reattach => exact ⟨_, rfl, reattachWrite_follows ..⟩
  case deviceReset => exact ⟨_, rfl, resetDevice_follows ..⟩
  case discard failed =>
    refine ⟨_, rfl, ?_⟩
    split
    · exact resetDevice_follows failed s
    · exact .refl s
  case fence => exact ⟨_, rfl, fence_follows ..⟩
  case inputLockout => exact ⟨_, rfl, inputLockout_follows ..⟩
  case powerOn => exact ⟨_, rfl, powerOn_follows ..⟩
  case powerOff => exact ⟨_, rfl, leaveOn_follows ..⟩
  case thermalTrip | flowTrip =>
    refine ⟨_, rfl, ?_⟩
    split
    · exact leaveOn_follows true s
    · exact .refl s
  case vddRequest v => exact hostToMc_follows (fun _ => .vddRequest v.toNat) s
  case powerLimitHost v => exact hostToMc_follows (fun _ => .limitHost v.toNat) s
  case inputApplied => exact ⟨_, rfl, rfl, .inputApplied ..⟩
  case flowLow => exact ⟨_, rfl, rfl, .flowLow ..⟩
  case peakClamp => exact ⟨_, rfl, rfl, .peakClamp ..⟩
  case powerSample => exact ⟨_, rfl, rfl, .powerSample ..⟩
  case coolantSample => exact ⟨_, rfl, rfl, .coolantSample ..⟩
  case valveStep => exact ⟨_, rfl, rfl, .valveStep⟩
  case canaryMeasure => exact ⟨_, rfl, rfl, .canaryMeasure ..⟩
  case pldmCoolModel which v => exact managed_follows (fun _ => .coolModel which.val v.toNat) s
  case pldmRackLimit w => exact rackLimit_follows w s
  case pldmFirmwareUpdate image => exact firmwareUpdate_follows image s
  case ownerKeyInstall | ownerKeyClear | requireSigned | permit => exact managed_follows (fun m => .flash ..) s
  case tapReset => exact ⟨_, rfl, rfl, .flash ..⟩
  case drScan => exact ⟨_, rfl, drScan_follows ..⟩
  case extest | idcode | samplePreload | clamp | highz | extestPulse | extestTrain | bypass => exact irScan_follows ..
  all_goals exact ⟨_, rfl, .dev s _⟩


/-! ### The ranges of the registers (R491, R495, R497, R499 to R501, R508) -/

/-- The power side's registers stand in their ranges: VDD codes and limits. -/
structure Power.InRange (p : Power) : Prop where
  request : p.request ≤ 40
  target : p.target ≤ p.request
  actual : p.actual ≤ 40
  limitHost : 500 ≤ p.limitHost ∧ p.limitHost ≤ 3200
  limitRack : 500 ≤ p.limitRack ∧ p.limitRack ≤ 3200

/-- The coolant side's registers stand in their ranges: the model, the targets and the valve. -/
structure Cool.InRange (c : Cool) : Prop where
  delayS : c.delayS ≤ 60
  tauS : 30 ≤ c.tauS ∧ c.tauS ≤ 120
  gain : c.gain ≤ 100
  horizonS : 1 ≤ c.horizonS ∧ c.horizonS ≤ 255
  tjTarget : 60 ≤ c.tjTarget ∧ c.tjTarget ≤ 100
  outletMax : 30 ≤ c.outletMax ∧ c.outletMax ≤ 70
  valve : c.valve ≤ 200
  valveActual : c.valveActual ≤ 200

theorem mcInv_iff (m : Mc) : McInv m ↔ m.pwr.InRange ∧ m.cool.InRange ∧ (m.testMode = true → m.pwr.state = .on) :=
  ⟨fun h => ⟨{ h with }, { h with }, h.test⟩, fun ⟨hp, hc, ht⟩ => { hp, hc with test := ht }⟩

theorem Power.inRange_reset (st : PowerState) (input : Nat) (uvlo autoOn trip : Bool) (sampleNo lastRaise : Nat) :
    Power.InRange { state := st, input := input, uvlo := uvlo, autoOn := autoOn, trip := trip, sampleNo := sampleNo,
                    lastRaise := lastRaise } := by
  constructor <;> simp

theorem Cool.inRange_reset (sampleNo : Nat) (hourTj : List Int) (hourVdd hourCool hourPower : Nat) :
    Cool.InRange { sampleNo := sampleNo, hourTj := hourTj, hourVdd := hourVdd, hourCool := hourCool, hourPower := hourPower } := by
  constructor <;> simp

theorem Mc.inRange_afterReset (m : Mc) : m.afterReset.pwr.InRange ∧ m.afterReset.cool.InRange :=
  ⟨Power.inRange_reset .., Cool.inRange_reset ..⟩

theorem bits_lt (v i n : Nat) : bits v i n < 2 ^ n := Nat.mod_lt _ (Nat.two_pow_pos n)

/-! #### Core VDD -/

/-- A change of the management controller that keeps the ranges, the power state and the mode. -/
structure KeepsRanges (m n : Mc) : Prop where
  pwr : m.pwr.InRange → n.pwr.InRange
  cool : m.cool.InRange → n.cool.InRange
  state : n.pwr.state = m.pwr.state
  mode : n.testMode = m.testMode

theorem KeepsRanges.refl (m : Mc) : KeepsRanges m m := ⟨id, id, rfl, rfl⟩

theorem KeepsRanges.trans {m n k : Mc} (h : KeepsRanges m n) (g : KeepsRanges n k) : KeepsRanges m k :=
  ⟨g.pwr ∘ h.pwr, g.cool ∘ h.cool, g.state.trans h.state, g.mode.trans h.mode⟩

theorem KeepsRanges.inv {m n : Mc} (h : KeepsRanges m n) (hi : McInv m) : McInv n := by
  obtain ⟨hp, hc, ht⟩ := (mcInv_iff m).mp hi
  exact (mcInv_iff n).mpr ⟨h.pwr hp, h.cool hc, by rwa [h.mode, h.state]⟩

theorem refusePower_keepsRanges (m : Mc) : KeepsRanges m m.refusePower := ⟨fun h => { h with }, id, rfl, rfl⟩

theorem refuseCool_keepsRanges (m : Mc) : KeepsRanges m m.refuseCool := ⟨id, fun h => { h with }, rfl, rfl⟩

theorem cap_keepsRanges (m : Mc) (reason : Nat) : KeepsRanges m (m.cap reason) := ⟨fun h => { h with }, fun h => { h with }, rfl, rfl⟩

theorem lower_keepsRanges (m : Mc) (reason : Nat) : KeepsRanges m (m.lower reason) := by
  have lowered : KeepsRanges m { m with pwr := { m.pwr with target := m.pwr.target - 1 } } :=
    ⟨fun h => { h with target := (Nat.sub_le ..).trans h.target }, id, rfl, rfl⟩
  unfold Mc.lower
  dsimp only
  split
  · exact lowered.trans (cap_keepsRanges ..)
  · exact lowered

theorem raise_keepsRanges {m : Mc} (hlt : m.pwr.target < m.pwr.request) : KeepsRanges m m.raise := by
  unfold Mc.raise
  dsimp only
  split
  · exact ⟨fun h => { h with target := hlt }, id, rfl, rfl⟩
  · exact ⟨fun h => { h with target := hlt }, id, rfl, rfl⟩

theorem freed_keepsRanges (m : Mc) : KeepsRanges m m.freed := by
  unfold Mc.freed
  split
  · exact ⟨fun h => { h with target := Nat.le_refl _ }, id, rfl, rfl⟩
  · exact .refl m

theorem steer_keepsRanges (m : Mc) (lim short long : Nat × Nat) : KeepsRanges m (m.steer lim short long) := by
  unfold Mc.steer
  split
  · exact lower_keepsRanges ..
  · split
    · exact .refl m
    · split
      · exact cap_keepsRanges ..
      · split
        · exact .refl m
        · exact raise_keepsRanges (by omega)

theorem read_inRange {p : Power} (h : p.InRange) (r : PowerReading) (tau : Nat) : (p.read r tau).InRange where
  request := h.request
  target := h.target
  actual := h.target.trans h.request
  limitHost := h.limitHost
  limitRack := h.limitRack

theorem sampled_keepsRanges (m : Mc) (r : PowerReading) : KeepsRanges m (m.sampled r) := ⟨(read_inRange · r _), id, rfl, rfl⟩

theorem addVdd_keepsRanges (m : Mc) : KeepsRanges m m.addVdd := ⟨id, fun h => { h with }, rfl, rfl⟩

theorem setEffective_keepsRanges (m : Mc) (w : Nat) : KeepsRanges m { m with pwr := { m.pwr with effective := w } } :=
  ⟨fun h => { h with }, id, rfl, rfl⟩

theorem noteLimit_keepsRanges (m : Mc) : KeepsRanges m m.noteLimit := setEffective_keepsRanges m _

theorem powerSample_keepsRanges (r : PowerReading) (m : Mc) : KeepsRanges m (powerSample r m) := by
  unfold powerSample
  split
  · exact .refl m
  · exact (sampled_keepsRanges m r).trans <| (addVdd_keepsRanges _).trans <|
      ((freed_keepsRanges _).trans (steer_keepsRanges ..)).trans (noteLimit_keepsRanges _)

theorem peakClamp_keepsRanges (ma : Nat) (m : Mc) : KeepsRanges m (peakClamp ma m) := by
  unfold peakClamp
  split
  · exact .refl m
  · dsimp only
    split
    · exact ⟨fun h => { h with target := Nat.zero_le _, actual := Nat.zero_le _ }, id, rfl, rfl⟩
    · refine KeepsRanges.trans ?_ (cap_keepsRanges ..)
      exact ⟨fun h => { h with target := Nat.zero_le _, actual := Nat.zero_le _ }, id, rfl, rfl⟩

theorem vddRequest_keepsRanges (v : Nat) (m : Mc) : KeepsRanges m (vddRequest v m) := by
  unfold vddRequest
  dsimp only
  split
  · exact refusePower_keepsRanges m
  · refine ⟨fun h => { h with request := by dsimp only; omega, target := ?_ }, id, rfl, rfl⟩
    dsimp only
    split
    · exact Nat.le_refl _
    · exact Nat.min_le_right ..

theorem limitHost_keepsRanges (v : Nat) (m : Mc) : KeepsRanges m (limitHost v m) := by
  unfold limitHost
  dsimp only
  split
  · exact refusePower_keepsRanges m
  · exact ⟨fun h => { h with limitHost := by simp_all }, id, rfl, rfl⟩

theorem pwrWrite_keepsRanges (o : Nat) (w : RegW) (m : Mc) : KeepsRanges m (pwrWrite o w m) := by
  unfold pwrWrite
  split
  · exact .refl m
  · split
    · exact vddRequest_keepsRanges ..
    · exact limitHost_keepsRanges ..
    · dsimp only
      split <;> exact ⟨fun h => { h with }, id, rfl, rfl⟩
    · exact .refl m

/-! #### Coolant -/

/-- A value outside its range is refused, one inside it is stored (R508). -/
theorem refuseCool_or_keepsRanges {p : Prop} [Decidable p] {m n : Mc} (h : ¬p → KeepsRanges m n) :
    KeepsRanges m (if p then m.refuseCool else n) := by
  split
  · exact refuseCool_keepsRanges m
  · exact h ‹_›

theorem coolWrite_keepsRanges (o : Nat) (w : RegW) (m : Mc) : KeepsRanges m (coolWrite o w m) := by
  have horizon : bits w.v 24 8 < 2 ^ 8 := bits_lt ..
  unfold coolWrite
  dsimp only
  split
  · exact .refl m
  · split
    · refine refuseCool_or_keepsRanges fun hr => ⟨id, fun h => ?_, rfl, rfl⟩
      exact { h with valve := Nat.not_lt.mp hr }
    · refine refuseCool_or_keepsRanges fun hr => ⟨id, fun h => ?_, rfl, rfl⟩
      simp only [Bool.or_eq_true, decide_eq_true_eq, not_or] at hr
      refine { h with delayS := ?_, tauS := ?_, gain := ?_, horizonS := ?_ } <;> dsimp only <;> omega
    · refine refuseCool_or_keepsRanges fun hr => ⟨id, fun h => ?_, rfl, rfl⟩
      simp only [Bool.or_eq_true, decide_eq_true_eq, not_or] at hr
      refine { h with tjTarget := ?_, outletMax := ?_ } <;> dsimp only <;> omega
    · exact ⟨id, fun h => { h with }, rfl, rfl⟩
    · exact .refl m

theorem coolModel_keepsRanges (which v : Nat) (m : Mc) : KeepsRanges m (coolModel which v m) := by
  unfold coolModel
  dsimp only
  split <;> refine refuseCool_or_keepsRanges fun hr => ⟨id, fun h => ?_, rfl, rfl⟩ <;>
    simp only [Bool.or_eq_true, decide_eq_true_eq, not_or, Nat.not_lt] at hr
  · exact { h with delayS := hr }
  · exact { h with tauS := hr }
  · exact { h with gain := hr }
  · exact { h with horizonS := hr }
  · exact { h with tjTarget := hr }

theorem coolantSample_keepsRanges (r : CoolReading) (m : Mc) : KeepsRanges m (coolantSample r m) := by
  unfold coolantSample
  split
  · exact .refl m
  · dsimp only
    split
    · exact ⟨id, fun h => { h with }, rfl, rfl⟩
    · split
      · exact ⟨id, fun h => { h with }, rfl, rfl⟩
      · refine KeepsRanges.trans ?_ (lower_keepsRanges ..)
        exact ⟨fun h => { h with }, fun h => { h with }, rfl, rfl⟩

theorem flowLow_keepsRanges (f : Nat) (m : Mc) : KeepsRanges m (flowLow f m) := by
  unfold flowLow
  split
  · exact .refl m
  · exact ⟨id, fun h => { h with }, rfl, rfl⟩

theorem opening_le {m : Mc} (h : m.cool.InRange) : m.opening ≤ 200 := by
  have hnow := h.valveActual
  have hmod (n : Nat) : n % (m.cool.valveActual + 1) < m.cool.valveActual + 1 := Nat.mod_lt _ (Nat.succ_pos _)
  have hauto (n : Nat) : m.cool.autoOpening n ≤ 200 := by
    have := hmod n
    unfold Cool.autoOpening
    dsimp only
    split <;> omega
  unfold Mc.opening
  split
  · omega
  · split
    · exact h.valve
    · split
      · omega
      · exact hauto _

theorem valveStep_keepsRanges (m : Mc) : KeepsRanges m (valveStep m) := by
  unfold valveStep
  dsimp only
  split
  · exact .refl m
  · exact ⟨id, fun h => { h with valveActual := opening_le h }, rfl, rfl⟩

theorem canaryMeasure_keepsRanges (counts : List (List Nat)) (m : Mc) : KeepsRanges m (canaryMeasure counts m) := by
  unfold canaryMeasure
  split
  · exact .refl m
  · exact ⟨id, fun h => { h with }, rfl, rfl⟩

/-! #### Power states -/

theorem mcInv_afterReset {m : Mc} (h : McInv m) : McInv m.afterReset :=
  (mcInv_iff _).mpr ⟨m.inRange_afterReset.1, m.inRange_afterReset.2, h.test⟩

theorem mcInv_darkened (m : Mc) (st : PowerState) (trip : Bool) : McInv (m.darkened st trip) :=
  (mcInv_iff _).mpr ⟨Power.inRange_reset .., m.inRange_afterReset.2, nofun⟩

theorem mcInv_reportTrip {m : Mc} (h : McInv m) : McInv m.reportTrip := by
  unfold Mc.reportTrip
  split
  · exact { h with }
  · exact h

theorem mcInv_inputApplied {m : Mc} (h : McInv m) (mv : Nat) : McInv (inputApplied mv m) := by
  unfold inputApplied
  dsimp only
  split
  · rename_i hm
    have hoff : m.pwr.state = .off := by simp_all
    exact { h with test := fun ht => absurd (h.test ht) (by rw [hoff]; decide) }
  · exact { h with }

/-- Every change that a command makes of the management controller keeps the ranges. -/
theorem McMove.keeps_mcInv {m n : Mc} (h : McMove m n) (hi : McInv m) : McInv n := by
  cases h with
  | same => exact hi
  | reset => exact mcInv_afterReset hi
  | pwrWrite o w => exact (pwrWrite_keepsRanges o w m).inv hi
  | coolWrite o w => exact (coolWrite_keepsRanges o w m).inv hi
  | vddRequest v => exact (vddRequest_keepsRanges v m).inv hi
  | limitHost v => exact (limitHost_keepsRanges v m).inv hi
  | limitRack w hlo hhi => exact { hi with limitRack := ⟨hlo, hhi⟩ }
  | refusePower => exact (refusePower_keepsRanges m).inv hi
  | coolModel which v => exact (coolModel_keepsRanges which v m).inv hi
  | inputApplied mv => exact mcInv_inputApplied hi mv
  | inputNoted mv => exact { hi with }
  | lockedOut mv trip => exact (mcInv_iff _).mpr ⟨Power.inRange_reset .., Cool.inRange_reset .., nofun⟩
  | wokenUp te => exact mcInv_reportTrip ((mcInv_iff _).mpr ⟨Power.inRange_reset .., Cool.inRange_reset .., fun _ => rfl⟩)
  | darkened trip => exact mcInv_darkened m .standby trip
  | powerSample r => exact (powerSample_keepsRanges r m).inv hi
  | peakClamp ma => exact (peakClamp_keepsRanges ma m).inv hi
  | coolantSample r => exact (coolantSample_keepsRanges r m).inv hi
  | flowLow f => exact (flowLow_keepsRanges f m).inv hi
  | valveStep => exact (valveStep_keepsRanges m).inv hi
  | canaryMeasure counts => exact (canaryMeasure_keepsRanges counts m).inv hi
  | flash => exact { hi with }

theorem exec_keeps_mcInv {i : Instr} {s t : State} (h : McInv s.mc) (he : exec i s = .next t) : McInv t.mc := by
  obtain ⟨u, hu, hf⟩ := exec_follows i s
  obtain rfl : u = t := by rw [hu] at he; injection he
  exact hf.2.keeps_mcInv h

/-! ### The step -/

theorem step_of_front {s : State} {c : Instr} {rest : List Instr} (h : s.pending = c :: rest) :
    step s = exec c { s with pending := rest } := by simp only [step, h]

theorem step_of_idle {s : State} (h : s.pending = []) : step s = .next s := by simp only [step, h]

end Sys2Proof.Machine

namespace Sys2Proof.Proofs
open Sys2Proof.Machine Sys2Proof.Safety

/-- Settles O1: the two cases of the step's queue. -/
theorem stepRunsFrontCommand : Obligations.StepRunsFrontCommand :=
  ⟨fun _ _ _ => step_of_front, fun _ => step_of_idle⟩

/-- Settles O2: every command answers a state that follows its own (`exec_follows`), with the queue as it stood. -/
theorem commandsAnswerAndLeaveQueue : Obligations.CommandsAnswerAndLeaveQueue := by
  refine ⟨fun i s => (exec_follows i s).imp fun _ h => h.1, fun i s t ht => ?_⟩
  obtain ⟨u, hu, hq, -⟩ := exec_follows i s
  obtain rfl : u = t := by rw [hu] at ht; injection ht
  exact hq

/-- Settles O4: the reset values stand in their ranges, and reset leaves test mode off. -/
theorem mcRangesAtReset : Obligations.McRangesAtReset :=
  (mcInv_iff _).mpr ⟨Power.inRange_reset .., Cool.inRange_reset .., nofun⟩

/-- Settles O5: with no command waiting the state stands, and a command changes the management controller in a way that keeps the
ranges (`McMove.keeps_mcInv`). -/
theorem mcRangesKept : Obligations.McRangesKept := by
  intro s t h ht
  match hp : s.pending with
  | [] => rw [step_of_idle hp] at ht; injection ht with e; exact e ▸ h
  | c :: rest => rw [step_of_front hp] at ht; exact exec_keeps_mcInv (s := { s with pending := rest }) h ht

end Sys2Proof.Proofs
end

section
/-! SUPPORT. What samples, measurements and power transitions leave in the management controller, what a device reset leaves in the
digital part, and what scans leave in the test access ports. -/

namespace Sys2Proof.Machine
open Sys2Proof.Safety

/-! ### One change made at several keys of a table -/

/-- A run over distinct keys, each step changing the entry of its own key alone, changes each entry once. -/
theorem Tbl.get_foldl_each {α : Type} {d : α} {f : Tbl α → Nat → Tbl α} {g : Nat → α → α}
    (self : ∀ t i, Tbl.get d i (f t i) = g i (Tbl.get d i t)) (other : ∀ t i k, k ≠ i → Tbl.get d k (f t i) = Tbl.get d k t)
    (k : Nat) {l : List Nat} (hd : l.Nodup) (t : Tbl α) :
    Tbl.get d k (l.foldl f t) = if k ∈ l then g k (Tbl.get d k t) else Tbl.get d k t := by
  induction l generalizing t with
  | nil => rfl
  | cons i l ih =>
    obtain ⟨hi, hl⟩ := List.nodup_cons.mp hd
    rw [List.foldl_cons, ih hl]
    by_cases hk : k = i
    · subst hk
      simp [hi, self]
    · simp [hk, other t i k hk]

theorem Tbl.get_foldl_set {α : Type} [DecidableEq α] (d : α) (v : Nat → α) {k n : Nat} (h : k < n) (t : Tbl α) :
    Tbl.get d k ((List.range n).foldl (fun t i => Tbl.set d i (v i) t) t) = v k := by
  rw [Tbl.get_foldl_each (g := fun i _ => v i) (fun t i => Tbl.get_set_self d i (v i) t)
    (fun t i k h => Tbl.get_set_other d h (v i) t) k List.nodup_range, if_pos (List.mem_range.mpr h)]

/-! ### A sample of input power (R491, R495, R504) -/

/-- The parts of the power side that the control of core VDD moves; everything else of it stands. -/
def Steers (m n : Mc) : Prop :=
  n = { m with pwr := { m.pwr with target := n.pwr.target, capReason := n.pwr.capReason, status := n.pwr.status, cnt := n.pwr.cnt,
                                   lastRaise := n.pwr.lastRaise, effective := n.pwr.effective },
               cool := { m.cool with status := n.cool.status, cnt := n.cool.cnt } }

theorem Steers.exists {m n : Mc} (h : Steers m n) : ∃ target capReason status cnt lastRaise effective cs cc,
    n = { m with pwr := { m.pwr with target := target, capReason := capReason, status := status, cnt := cnt, lastRaise := lastRaise,
                                     effective := effective },
                 cool := { m.cool with status := cs, cnt := cc } } := ⟨_, _, _, _, _, _, _, _, h⟩

theorem Steers.refl (m : Mc) : Steers m m := rfl

theorem Steers.trans {m n k : Mc} (h : Steers m n) (g : Steers n k) : Steers m k := by
  unfold Steers at *
  rw [g, h]

theorem cap_steers (m : Mc) (reason : Nat) : Steers m (m.cap reason) := rfl

@[simp] theorem cap_target (m : Mc) (reason : Nat) : (m.cap reason).pwr.target = m.pwr.target := rfl

theorem lower_steers (m : Mc) (reason : Nat) : Steers m (m.lower reason) := by
  unfold Mc.lower
  dsimp only
  split <;> rfl

theorem lower_target (m : Mc) (reason : Nat) : (m.lower reason).pwr.target = m.pwr.target - 1 := by
  unfold Mc.lower
  dsimp only
  split <;> rfl

theorem raise_steers (m : Mc) : Steers m m.raise := by
  unfold Mc.raise
  dsimp only
  split <;> rfl

theorem raise_target (m : Mc) : m.raise.pwr.target = m.pwr.target + 1 := by
  unfold Mc.raise
  dsimp only
  split <;> rfl

theorem freed_steers (m : Mc) : Steers m m.freed := by
  unfold Mc.freed
  split <;> rfl

theorem freed_target (m : Mc) : m.freed.pwr.target = if m.pwr.capReason = 0 then m.pwr.request else m.pwr.target := by
  unfold Mc.freed
  split <;> rfl

theorem steer_steers (m : Mc) (lim short long : Nat × Nat) : Steers m (m.steer lim short long) := by
  unfold Mc.steer
  split
  · exact lower_steers ..
  · split
    · exact .refl m
    · split
      · exact cap_steers ..
      · split
        · exact .refl m
        · exact raise_steers m

/-- The control moves the target by one code at most (R495). -/
theorem steer_target (m : Mc) (lim short long : Nat × Nat) :
    m.pwr.target ≤ (m.steer lim short long).pwr.target + 1 ∧ (m.steer lim short long).pwr.target ≤ m.pwr.target + 1 := by
  unfold Mc.steer
  split
  · rw [lower_target]; omega
  · split
    · omega
    · split
      · rw [cap_target]; omega
      · split
        · omega
        · rw [raise_target]; omega

theorem govern_steers (m : Mc) : Steers m m.govern := (freed_steers m).trans (steer_steers ..)

theorem govern_target (m : Mc) :
    let from' := if m.pwr.capReason = 0 then m.pwr.request else m.pwr.target
    from' ≤ m.govern.pwr.target + 1 ∧ m.govern.pwr.target ≤ from' + 1 := by
  have h := steer_target m.freed (leastLimit m.freed.limits) (m.freed.pwr.window 10) (m.freed.pwr.window 1000)
  rwa [freed_target] at h

theorem setEffective_steers (m : Mc) (w : Nat) : Steers m { m with pwr := { m.pwr with effective := w } } := rfl

theorem setEffective_target (m : Mc) (w : Nat) : ({ m with pwr := { m.pwr with effective := w } } : Mc).pwr.target = m.pwr.target := rfl

theorem noteLimit_steers (m : Mc) : Steers m m.noteLimit := setEffective_steers m _

theorem noteLimit_target (m : Mc) : m.noteLimit.pwr.target = m.pwr.target := by
  unfold Mc.noteLimit
  exact setEffective_target m _

theorem powerSample_of_on {m : Mc} (h : m.pwr.state = .on) (r : PowerReading) :
    powerSample r m = (m.sampled r).addVdd.govern.noteLimit := if_neg (not_not_intro h)

theorem powerSample_steers {m : Mc} (h : m.pwr.state = .on) (r : PowerReading) : Steers (m.sampled r).addVdd (powerSample r m) := by
  rw [powerSample_of_on h]
  exact (govern_steers _).trans (noteLimit_steers _)

theorem powerSample_target {m : Mc} (h : m.pwr.state = .on) (r : PowerReading) :
    let from' := if m.pwr.capReason = 0 then m.pwr.request else m.pwr.target
    from' ≤ (powerSample r m).pwr.target + 1 ∧ (powerSample r m).pwr.target ≤ from' + 1 := by
  rw [powerSample_of_on h, noteLimit_target]
  exact govern_target (m.sampled r).addVdd

/-! ### A coolant sample (R499 to R502, R506) -/

theorem get_addCorrected (l : List Nat) (t : Tbl HbmLife) (i : Nat) :
    Tbl.get {} i (addCorrected l t) =
      if i < 20 ∧ at' 0 l i ≠ 0 then
        { Tbl.get {} i t with total := ((Tbl.get {} i t).total + at' 0 l i) % 2 ^ 32, present := (Tbl.get {} i t).present + at' 0 l i }
      else Tbl.get {} i t := by
  unfold addCorrected
  rw [Tbl.get_foldl_each (g := fun i h => if at' 0 l i = 0 then h
    else { h with total := (h.total + at' 0 l i) % 2 ^ 32, present := h.present + at' 0 l i }) ?_ ?_ i List.nodup_range]
  · simp only [List.mem_range]
    by_cases h20 : i < 20 <;> by_cases h0 : at' 0 l i = 0 <;> simp [h20, h0]
  · intro t i
    dsimp only
    split
    · rfl
    · exact Tbl.get_upd_self ..
  · intro t i k hk
    dsimp only
    split
    · rfl
    · exact Tbl.get_upd_other _ hk ..

/-- The MC with a coolant sample's readings taken, before R501 is asked. -/
def Mc.cooled (m : Mc) (r : CoolReading) : Mc :=
  let c := forecast { m with cool := m.cool.read r }
  { m with cool := { c with hourTj := addTemps c.hourTj r.tjCore, hourCool := c.hourCool + 1 }, hbm := addCorrected r.corrected m.hbm }

/-- What a coolant sample can do: in STANDBY the readings alone; ON, the forecast too, and a lower target while R501 holds. -/
theorem coolantSample_cases {m : Mc} (h : m.pwr.state ≠ .off) (r : CoolReading) :
    (m.pwr.state ≠ .on ∧ coolantSample r m = { m with cool := m.cool.read r }) ∨
    (m.pwr.state = .on ∧ (coolantSample r m = m.cooled r ∨ ∃ st cnt,
      coolantSample r m = Mc.lower { m.cooled r with pwr := { m.pwr with status := st, cnt := cnt } } 6)) := by
  unfold coolantSample
  rw [if_neg h]
  dsimp only
  split
  · exact .inl ⟨‹_›, rfl⟩
  · refine .inr ⟨not_not.mp ‹_›, ?_⟩
    split
    · exact .inl rfl
    · exact .inr ⟨_, _, rfl⟩

/-- The readings of a coolant sample stand in their registers. -/
structure Cool.Shows (c : Cool) (r : CoolReading) : Prop where
  tjCluster : c.tjCluster = r.tjCluster
  tjCore : c.tjCore = r.tjCore
  tjHub : c.tjHub = r.tjHub
  inlet : c.inlet = r.inlet
  outlet : c.outlet = r.outlet
  flow : c.flow = r.flow
  faulty : c.faulty = r.fault

theorem read_shows (c : Cool) (r : CoolReading) : (c.read r).Shows r := ⟨rfl, rfl, rfl, rfl, rfl, rfl, rfl⟩

/-- The forecast changes its own three registers alone. -/
theorem forecast_frame (m : Mc) : forecast m = { m.cool with
    pCool := (forecast m).pCool, tjForecast := (forecast m).tjForecast, headroom := (forecast m).headroom } := by
  unfold forecast
  dsimp only

theorem cooled_shows (m : Mc) (r : CoolReading) : (m.cooled r).cool.Shows r := by
  unfold Mc.cooled
  rw [forecast_frame]
  exact { read_shows m.cool r with }

/-- The corrected errors of a sample are added to those of the present hour and to the total (R506). -/
theorem hbm_cooled (m : Mc) (r : CoolReading) {i : Nat} (h : i < 20) :
    (Tbl.get {} i (m.cooled r).hbm).present = (Tbl.get {} i m.hbm).present + at' 0 r.corrected i ∧
    (at' 0 r.corrected i ≠ 0 →
      (Tbl.get {} i (m.cooled r).hbm).total = ((Tbl.get {} i m.hbm).total + at' 0 r.corrected i) % 2 ^ 32) := by
  have e : (m.cooled r).hbm = addCorrected r.corrected m.hbm := rfl
  rw [e, get_addCorrected]
  by_cases h0 : at' 0 r.corrected i = 0 <;> simp [h, h0]

theorem flowLow_of_low {f : Nat} {m : Mc} (hs : m.pwr.state ≠ .off) (hf : f < 1000) (hl : m.cool.flowLow = false) : flowLow f m =
    { m with cool := { m.cool with status := setBit m.cool.status 1, cnt := laneBump m.cool.cnt 1, flowLow := true } } :=
  if_neg (by simp [hs, hf, hl])

theorem valveStep_of_step {m : Mc} (hs : m.pwr.state ≠ .off)
    (h : m.cool.valveActual + 2 ≤ m.opening ∨ m.opening + 2 ≤ m.cool.valveActual) : valveStep m =
    { m with cool := { m.cool with valveActual := m.opening }, valveMoves := (m.valveMoves + 1) % 2 ^ 32 } := by
  refine if_neg ?_
  simp only [hs, decide_false, Bool.false_or, Bool.and_eq_true, decide_eq_true_eq]
  omega

/-! ### The peak clamp (R496) -/

theorem getLsbD_setBit_self (w : Word) {i : Nat} (h : i < 64) : (setBit w i).getLsbD i = true := by
  rw [setBit, BitVec.getLsbD_or, BitVec.getLsbD_ofNat, Nat.testBit_two_pow_self]
  simp [h]

theorem getLsbD_setBit_of_set {w : Word} {k : Nat} (i : Nat) (h : w.getLsbD k = true) : (setBit w i).getLsbD k = true := by
  rw [setBit, BitVec.getLsbD_or, h, Bool.true_or]

theorem cap_status_of_set {m : Mc} {k : Nat} (h : m.pwr.status.getLsbD k = true) (reason : Nat) :
    (m.cap reason).pwr.status.getLsbD k = true := by
  unfold Mc.cap
  dsimp only
  split
  · exact getLsbD_setBit_of_set 0 h
  · exact h

/-- The MC with its target and its rail clamped to the lowest code, PEAK_CLAMP set and counted (R496). -/
def Mc.clamped (m : Mc) : Mc :=
  { m with pwr := { m.pwr with status := setBit m.pwr.status 1, cnt := laneBump m.pwr.cnt 1, target := 0, actual := 0 } }

theorem peakClamp_of_peak {ma : Nat} {m : Mc} (hs : m.pwr.state = .on) (hp : 3600000000 < ma * m.pwr.input) :
    peakClamp ma m = if m.pwr.request = 0 then m.clamped else m.clamped.cap 5 := by
  unfold peakClamp
  rw [if_neg (by simp [hs, hp])]
  rfl

/-! ### The hourly measurement (R503 to R506) -/

theorem canaryMeasure_of_on {m : Mc} (h : m.pwr.state = .on) (counts : List (List Nat)) : canaryMeasure counts m =
    { m with life := (List.range 256).foldl (fun t n => Tbl.set {} n (measureCore m counts n) t) m.life,
             hoursOn := (m.hoursOn + 1) % 2 ^ 32, hbm := m.hbm.map fun x => (x.1, x.2.nextHour),
             cool := { m.cool with hourTj := [], hourVdd := 0, hourCool := 0, hourPower := 0 } } := if_neg (not_not_intro h)

/-- A table whose entries are all changed by one function reads so at a listed key, and as before at any other. -/
theorem Tbl.get_map_snd {α : Type} {d : α} {f : α → α} {P : α → α → Prop} (hd : P d d) (hf : ∀ x, P x (f x)) (i : Nat) (t : Tbl α) :
    P (Tbl.get d i t) (Tbl.get d i (t.map fun x => (x.1, f x.2))) := by
  induction t with
  | nil => exact hd
  | cons x t ih =>
    simp only [List.map_cons, Tbl.get]
    split
    · exact hf x.2
    · exact ih

/-! ### Power transitions (R489, R490, R502) -/

theorem leaveOn_of_on {s : State} (h : s.mc.pwr.state = .on) (trip : Bool) :
    leaveOn trip s = { s with dev := s.dev.cleared, mc := s.mc.darkened .standby trip } := if_pos h

theorem inputLockout_of_lockout {mv : Nat} (h : mv < 47500 ∨ 60500 < mv) (s : State) : ∃ trip, inputLockout mv s =
    { s with dev := s.dev.cleared
             mc := { s.mc.darkened .off trip with
               cool := {}, pwr := { (s.mc.darkened .off trip).pwr with input := mv, uvlo := decide (mv < 47500) } } } := by
  refine ⟨_, if_neg ?_⟩
  simp only [Bool.and_eq_true, decide_eq_true_eq]
  omega

theorem inputLockout_of_within {mv : Nat} (hlo : 47500 ≤ mv) (hhi : mv ≤ 60500) (s : State) :
    inputLockout mv s = { s with mc := { s.mc with pwr := { s.mc.pwr with input := mv } } } := if_pos (by simp [hlo, hhi])

theorem reportTrip_frame (m : Mc) : m.reportTrip = { m with cool := m.reportTrip.cool } := by
  unfold Mc.reportTrip
  split <;> rfl

/-! ### What a device reset leaves of the digital part (R437, R442) -/

theorem Dev.toHost_host (d : Dev) (o : HostOut) :
    (d.toHost o).host = { d.host with heldWrites := (d.toHost o).host.heldWrites, atc := (d.toHost o).host.atc } := by
  unfold Dev.toHost Dev.emit Dev.cachePages
  split
  · rfl
  · split
    · rfl
    · split <;> rfl

/-- A message changes, of the host link, what is kept or withheld and the translation cache alone. -/
theorem Dev.msix_host (d : Dev) (v : Nat) : (d.msix v).host = { d.host with
    heldWrites := (d.msix v).host.heldWrites, atc := (d.msix v).host.atc, msixPending := (d.msix v).host.msixPending } := by
  unfold Dev.msix
  split
  · rfl
  · rw [Dev.toHost_host]

theorem Dev.report_host (d : Dev) (r : ErrRec) : (d.report r).host = { d.host with
    heldWrites := (d.report r).host.heldWrites, atc := (d.report r).host.atc, msixPending := (d.report r).host.msixPending } := by
  unfold Dev.report Dev.errVector
  dsimp only
  split
  · split
    · exact Dev.msix_host ..
    · rfl
  · rfl

theorem Dev.report_cores (d : Dev) (r : ErrRec) : (d.report r).cores = d.cores := by rw [Dev.report_frame]

/-- The parts of the digital part that the cores a reset retires change. -/
def RetireOnly (d e : Dev) : Prop :=
  e = { d with cores := e.cores, err := e.err, out := e.out, host := { d.host with
    heldWrites := e.host.heldWrites, atc := e.host.atc, msixPending := e.host.msixPending } }

theorem RetireOnly.trans {d e f : Dev} (h : RetireOnly d e) (k : RetireOnly e f) : RetireOnly d f := by
  unfold RetireOnly at *
  rw [k, h]

theorem retireCore_retireOnly (d : Dev) (n : Nat) : RetireOnly d (retireCore d n) := by
  have h : RetireOnly d (d.report (errRec stCoreFenced 13 2 0 n)) := by
    have hf := d.report_frame (errRec stCoreFenced 13 2 0 n)
    rw [Dev.report_host] at hf
    unfold RetireOnly
    rw [Dev.report_cores]
    exact hf
  exact h.trans rfl

theorem retireCore_foldl_retireOnly (l : List Nat) (d : Dev) : RetireOnly d (l.foldl retireCore d) := by
  induction l generalizing d with
  | nil => rfl
  | cons n l ih => exact (retireCore_retireOnly d n).trans (ih _)

theorem Dev.core_report (d : Dev) (r : ErrRec) (n : Nat) : (d.report r).core n = d.core n := by
  rw [Dev.report_frame]; rfl

theorem core_retireCore (d : Dev) (n : Nat) : ((retireCore d n).core n).fenced = true ∧ ((retireCore d n).core n).retired = true ∧
    ((retireCore d n).core n).cause = stCoreFenced := by
  unfold retireCore
  dsimp only
  rw [Dev.core_updCore]
  exact ⟨rfl, rfl, rfl⟩

theorem core_retireCore_other {m n : Nat} (h : m ≠ n) (d : Dev) : (retireCore d n).core m = d.core m := by
  unfold retireCore
  dsimp only
  rw [Dev.core_updCore_other _ h, Dev.core_report]

theorem core_retireCore_foldl_other {m : Nat} {l : List Nat} (h : m ∉ l) (d : Dev) : (l.foldl retireCore d).core m = d.core m := by
  induction l generalizing d with
  | nil => rfl
  | cons n l ih =>
    obtain ⟨hn, hl⟩ := List.ne_and_not_mem_of_not_mem_cons h
    rw [List.foldl_cons, ih hl, core_retireCore_other hn]

theorem core_retireCore_foldl {m : Nat} {l : List Nat} (h : m ∈ l) (d : Dev) : ((l.foldl retireCore d).core m).fenced = true ∧
    ((l.foldl retireCore d).core m).retired = true ∧ ((l.foldl retireCore d).core m).cause = stCoreFenced := by
  induction l generalizing d with
  | nil => exact absurd h (List.not_mem_nil)
  | cons n l ih =>
    by_cases hl : m ∈ l
    · exact ih hl _
    · obtain rfl : m = n := (List.mem_cons.mp h).resolve_right hl
      rw [List.foldl_cons, core_retireCore_foldl_other hl]
      exact core_retireCore d m

theorem mem_unfit {mc : Mc} {failed : List Nat} {n : Nat} : n ∈ unfit mc failed ↔ n < 256 ∧ (n ∈ failed ∨ 3 ≤ Tbl.get 0 n mc.fences) := by
  simp [unfit]

theorem afterReset_frame (mc : Mc) (failed : List Nat) (d : Dev) : RetireOnly d.cleared (d.afterReset mc failed) :=
  (retireCore_foldl_retireOnly (unfit mc failed) d.cleared).trans rfl

theorem core_afterReset (mc : Mc) (failed : List Nat) (d : Dev) (n : Nat) :
    (d.afterReset mc failed).core n = ((unfit mc failed).foldl retireCore d.cleared).core n := rfl

end Sys2Proof.Machine

namespace Sys2Proof.Proofs
open Sys2Proof.Machine Sys2Proof.Safety

/-- Settles O11: each transition by the equation for it; a device that comes ON is reset (`afterReset_frame`). -/
theorem powerStates : Obligations.PowerStates := by
  refine ⟨fun mv s hs hin hhi => ?_, fun mv s h => ?_, fun mv s hlo hhi => ?_, fun te failed s hon => ?_, fun i trip s hs hi => ?_,
    fun mv s h => ?_⟩
  · refine congrArg (fun m => Host.Outcome.next { s with mc := m }) (if_pos ?_)
    simpa [hs, hhi] using hin
  · refine congrArg (fun m => Host.Outcome.next { s with mc := m }) (if_neg ?_)
    simp only [Bool.and_eq_true, Bool.or_eq_true, decide_eq_true_eq]
    rintro ⟨⟨hoff, hin⟩, hhi⟩
    grind
  · exact congrArg Host.Outcome.next (inputLockout_of_within hlo hhi s)
  · refine ⟨_, rfl, ?_⟩
    unfold powerOn
    rw [if_pos hon, resetDevice_of_on rfl]
    dsimp only
    rw [reportTrip_frame]
    have hmem := congrArg Dev.mem (afterReset_frame { s.mc with pwr := { s.mc.pwr with state := .on }, testMode := te } failed s.dev)
    exact ⟨rfl, rfl, rfl, hmem, rfl, rfl, rfl⟩
  · have he : exec i s = .next (leaveOn trip s) := by
      obtain ⟨rfl, rfl⟩ | ⟨⟨c, rfl, hc⟩, rfl⟩ | ⟨⟨f, rfl, hf⟩, rfl⟩ := hi
      · rfl
      · exact congrArg Host.Outcome.next (if_pos hc)
      · exact congrArg Host.Outcome.next (if_pos hf)
    refine ⟨_, he, ?_⟩
    rw [leaveOn_of_on hs]
    exact ⟨rfl, rfl, rfl, rfl, rfl, rfl, rfl, rfl, rfl, rfl, rfl⟩
  · obtain ⟨trip, ht⟩ := inputLockout_of_lockout h s
    refine ⟨_, congrArg Host.Outcome.next ht, ?_⟩
    exact ⟨rfl, rfl, rfl, rfl, rfl, rfl, rfl, rfl, rfl⟩

/-- Settles O32: a reset clears the digital part, then retires the unfit cores one by one (`core_retireCore_foldl`). -/
theorem deviceResets : Obligations.DeviceResets := by
  intro failed s hs
  refine ⟨_, congrArg Host.Outcome.next (resetDevice_of_on hs failed), rfl, rfl, hs, rfl, rfl, rfl, rfl, rfl, ⟨_, _, _, _, afterReset_frame ..⟩,
    rfl, congrArg (·.host.held) (afterReset_frame s.mc failed s.dev), congrArg (·.host.ucs) (afterReset_frame s.mc failed s.dev), fun n => ?_⟩
  dsimp only
  rw [core_afterReset]
  split
  · exact core_retireCore_foldl (mem_unfit.mpr ‹_›) _
  · rw [core_retireCore_foldl_other fun h => ‹¬_› (mem_unfit.mp h)]
    rfl

/-- Settles O13: a power sample by what the control of core VDD moves (`powerSample_steers`, `powerSample_target`), a coolant sample by
its cases, and the hourly measurement core by core. -/
theorem mcSamples : Obligations.McSamples := by
  refine ⟨fun r s hs => ⟨_, rfl, ?_⟩, ⟨fun r s hs => ⟨_, rfl, ?_⟩, fun f s hs hf hl => ?_, fun s hs hm => ?_,
    fun ma s hs hp => ⟨_, rfl, ?_⟩⟩, fun counts s hs => ⟨_, rfl, ?_⟩⟩
  · have hg := powerSample_steers hs r
    have ht := powerSample_target hs r
    obtain ⟨target, capReason, status, cnt, lastRaise, effective, cs, cc, hm⟩ := hg.exists
    rw [hm] at ht ⊢
    exact ⟨rfl, rfl, rfl, rfl, rfl, rfl, rfl, rfl, hs, ht, rfl, rfl⟩
  · obtain ⟨hs', e⟩ | ⟨hs', e | ⟨st, cnt, e⟩⟩ := coolantSample_cases hs r
    · dsimp only
      rw [e]
      exact ⟨rfl, fun h => absurd h hs', rfl, rfl, rfl, rfl, rfl, rfl, rfl, rfl, Nat.le_refl _, Nat.le_succ _⟩
    · obtain ⟨h1, h2, h3, h4, h5, h6, h7⟩ := cooled_shows s.mc r
      dsimp only
      rw [e]
      exact ⟨rfl, fun _ _ => hbm_cooled s.mc r, h1, h2, h3, h4, h5, h6, h7, rfl, Nat.le_refl _, Nat.le_succ _⟩
    · obtain ⟨h1, h2, h3, h4, h5, h6, h7⟩ := cooled_shows s.mc r
      have ht := lower_target { s.mc.cooled r with pwr := { s.mc.pwr with status := st, cnt := cnt } } 6
      obtain ⟨target, capReason, status, cnt, lastRaise, effective, cs, cc, hl⟩ :=
        (lower_steers { s.mc.cooled r with pwr := { s.mc.pwr with status := st, cnt := cnt } } 6).exists
      rw [← e] at ht hl
      rw [hl] at ht ⊢
      exact ⟨rfl, fun _ _ => hbm_cooled s.mc r, h1, h2, h3, h4, h5, h6, h7, rfl, by dsimp only at ht ⊢; omega, by dsimp only at ht ⊢; omega⟩
  · exact congrArg (fun m => Host.Outcome.next (withMc s m)) (flowLow_of_low hs hf hl)
  · exact congrArg (fun m => Host.Outcome.next (withMc s m)) (valveStep_of_step hs hm)
  · have set1 : s.mc.clamped.pwr.status.getLsbD 1 = true := getLsbD_setBit_self _ (by decide)
    dsimp only
    rw [peakClamp_of_peak hs hp]
    split
    · exact ⟨rfl, rfl, rfl, rfl, set1, fun h => absurd ‹_› h⟩
    · exact ⟨rfl, rfl, rfl, rfl, cap_status_of_set set1 5, fun _ => rfl⟩
  · dsimp only
    rw [canaryMeasure_of_on hs]
    refine ⟨rfl, rfl, rfl, fun n hn => ?_, rfl, rfl, fun i => ?_, rfl, rfl⟩
    · dsimp only
      rw [Tbl.get_foldl_set _ (measureCore s.mc counts) hn]
    · exact Tbl.get_map_snd (f := HbmLife.nextHour)
        (P := fun x y => y.total = x.total ∧ y.present = 0) ⟨rfl, rfl⟩ (fun _ => ⟨rfl, rfl⟩) i s.mc.hbm

end Sys2Proof.Proofs
end

section
/-! SUPPORT. What scans and a reset leave in the test access ports, and what their pins show. -/

namespace Sys2Proof.Machine

/-! ### The ports changed one by one -/

theorem Mc.tap_foldl {f : Tbl Tap → Nat → Tbl Tap} {g : Nat → Tap → Tap}
    (self : ∀ t i, Tbl.get {} i (f t i) = g i (Tbl.get {} i t)) (other : ∀ t i k, k ≠ i → Tbl.get {} k (f t i) = Tbl.get {} k t)
    (m : Mc) (k : Nat) : ({ m with taps := (List.range 5).foldl f m.taps } : Mc).tap k = if k < 5 then g k (m.tap k) else m.tap k := by
  unfold Mc.tap
  dsimp only
  rw [Tbl.get_foldl_each self other k List.nodup_range]
  simp only [List.mem_range]

theorem Mc.tap_foldl_upd (g : Tap → Tap) (m : Mc) (k : Nat) :
    ({ m with taps := (List.range 5).foldl (fun t i => Tbl.upd {} i g t) m.taps } : Mc).tap k =
      if k < 5 then g (m.tap k) else m.tap k :=
  Mc.tap_foldl (g := fun _ => g) (fun t i => Tbl.get_upd_self _ i g t) (fun t _ _ h => Tbl.get_upd_other _ h g t) m k

/-- The management controller with an instruction loaded into the named ports (R530). -/
def Mc.loadIr (m : Mc) (ir : Nat) (taps : BitVec 5) : Mc :=
  { m with taps := (List.range 5).foldl (fun t i => if taps.getLsbD i then Tbl.upd {} i (fun x => { x with ir := ir }) t else t) m.taps }

theorem Mc.tap_loadIr (m : Mc) (ir : Nat) (taps : BitVec 5) {k : Nat} (h : k < 5) :
    (m.loadIr ir taps).tap k = { m.tap k with ir := if taps.getLsbD k then ir else (m.tap k).ir } := by
  unfold Mc.loadIr
  rw [Mc.tap_foldl (g := fun i x => { x with ir := if taps.getLsbD i then ir else x.ir }) ?_ ?_, if_pos h]
  · intro t i
    split
    · exact Tbl.get_upd_self ..
    · rfl
  · intro t i k hk
    split
    · exact Tbl.get_upd_other _ hk ..
    · rfl

/-- The management controller after so many edges in Run-Test/Idle (R533). -/
def Mc.rested (m : Mc) (n : Nat) : Mc :=
  { m with taps := (List.range 5).foldl (fun t i => Tbl.upd {} i (fun x => { x with edges := n }) t) m.taps }

theorem Mc.rested_frame (m : Mc) (n : Nat) : m.rested n = { m with taps := (m.rested n).taps } := by
  unfold Mc.rested
  dsimp only

theorem Mc.tap_rested (m : Mc) (n k : Nat) : (m.rested n).tap k = if k < 5 then { m.tap k with edges := n } else m.tap k :=
  Mc.tap_foldl_upd ..

/-- The management controller with every port reset to IDCODE (R529). -/
def Mc.tapsReset (m : Mc) : Mc :=
  { m with taps := (List.range 5).foldl (fun t i => Tbl.upd {} i (fun x => { x with ir := 1, edges := 0 }) t) m.taps }

theorem Mc.tap_tapsReset (m : Mc) {k : Nat} (h : k < 5) : m.tapsReset.tap k = { m.tap k with ir := 1, edges := 0 } := by
  unfold Mc.tapsReset
  rw [Mc.tap_foldl_upd, if_pos h]

/-! ### What the pins show (R530, R533, R534) -/

theorem Mc.ir_rested (m : Mc) (n k : Nat) : ((m.rested n).tap k).ir = (m.tap k).ir := by
  rw [Mc.tap_rested]
  split <;> rfl

theorem Mc.update_rested (m : Mc) (n k : Nat) : ((m.rested n).tap k).update = (m.tap k).update := by
  rw [Mc.tap_rested]
  split <;> rfl

/-- Edges counted in the ports change neither the levels of the pins nor the edges that follow a scan. -/
theorem pinLevel_rested (m : Mc) (n e : Nat) (left : Bool) (i k : Nat) : pinLevel (m.rested n) e left i k = pinLevel m e left i k := by
  unfold pinLevel
  dsimp only
  rw [m.ir_rested, m.update_rested]

theorem pinLevels_rested (m : Mc) (n e : Nat) (left : Bool) : pinLevels (m.rested n) e left = pinLevels m e left := by
  unfold pinLevels
  exact congrArg (tab 5) (funext fun i => congrArg (tab (cells i)) (funext fun k => pinLevel_rested m n e left i k))

theorem pinsShown_rested (m : Mc) (n e : Nat) : pinsShown (m.rested n) e = pinsShown m e := by
  unfold pinsShown
  simp only [pinLevels_rested]

theorem restEdges_rested (m : Mc) (n free : Nat) : (m.rested n).restEdges free = m.restEdges free := by
  unfold Mc.restEdges
  simp only [m.ir_rested]

/-- A scan ends: its ports hold the edges that follow, and the pins show them (R533, R534). -/
theorem restScan_eq (s : State) : restScan s = { s with
    mc := s.mc.rested (s.mc.restEdges s.dev.free)
    dev := { s.dev with free := s.dev.free + 1, out := s.dev.out ++ pinsShown s.mc (s.mc.restEdges s.dev.free) } } := by
  unfold restScan Mc.rested
  dsimp only

theorem irCapture_eq : irCapture = (List.replicate 5 [true, false, false, false, false, false, false, false]).flatten := by decide

theorem chainOpen_of_test {m : Mc} (hs : m.pwr.state = .on) (ht : m.testMode = true) : m.chainOpen = true := by
  simp [Mc.chainOpen, hs, ht]

/-- The state in which an IR scan leaves its chain, before the edges that follow it. -/
def irLoaded (ir : Nat) (taps : BitVec 5) (s : State) : State :=
  { s with mc := s.mc.loadIr ir taps, dev := s.dev.emit (.tdo irCapture) }

theorem irScan_of_open {s : State} (h : s.mc.chainOpen = true) (ir : Nat) (taps : BitVec 5) :
    irScan ir taps s = .next (restScan (irLoaded ir taps s)) := congrArg Host.Outcome.next (if_pos h)

/-- An IR scan of the open chain (R530): its capture at TDO, the named ports loaded, and the pins that follow. -/
theorem irScan_spec {s : State} (hs : s.mc.pwr.state = .on) (ht : s.mc.testMode = true) (ir : Nat) (taps : BitVec 5) :
    ∃ t, irScan ir taps s = .next t ∧ t.pending = s.pending ∧ t.mc = { s.mc with taps := t.mc.taps } ∧
      t.dev = { s.dev with free := s.dev.free + 1, out := s.dev.out ++
        ([.tdo ((List.replicate 5 [true, false, false, false, false, false, false, false]).flatten)] ++
          pinsShown t.mc (t.mc.restEdges s.dev.free)) } ∧
      (∀ i, i < 5 → t.mc.tap i =
        { s.mc.tap i with ir := (if taps.getLsbD i then ir else (s.mc.tap i).ir), edges := t.mc.restEdges s.dev.free }) := by
  refine ⟨_, irScan_of_open (chainOpen_of_test hs ht) ir taps, ?_⟩
  rw [restScan_eq]
  have e : (irLoaded ir taps s).dev.free = s.dev.free := rfl
  refine ⟨rfl, ?_, ?_, fun i hi => ?_⟩
  · dsimp only
    rw [Mc.rested_frame, irLoaded, Mc.loadIr]
  · dsimp only
    rw [pinsShown_rested, restEdges_rested, e, ← List.append_assoc, ← irCapture_eq, irLoaded, Dev.emit]
  · dsimp only
    rw [restEdges_rested, e, Mc.tap_rested, if_pos hi]
    rw [irLoaded, Mc.tap_loadIr s.mc ir taps hi]

/-! ### Captures and data scans (R527, R530, R531) -/

theorem selectsBoundary_iff (ir : Nat) : selectsBoundary ir = true ↔ ir ∈ [0x00, 0x02, 0x06, 0x07] := by
  simp [selectsBoundary, or_assoc]

theorem length_tab {α : Type} (n : Nat) (f : Nat → α) : (tab n f).length = n := by simp [tab]

theorem length_capture (m : Mc) (pins : List Bool) (i : Nat) : (capture m pins i).length =
    if (m.tap i).ir ∈ [0x00, 0x02, 0x06, 0x07] then (if i = 0 then 1408 else 656) else if (m.tap i).ir = 0x01 then 32 else 1 := by
  unfold capture
  simp only [← selectsBoundary_iff]
  split
  · rw [length_tab, cells]
  · split
    · exact length_tab ..
    · rfl

theorem ir_updateLatches (l : List Bool) (is : List Nat) (m : Mc) (k : Nat) : ((updateLatches l is m).tap k).ir = (m.tap k).ir := by
  induction is generalizing l m with
  | nil => rfl
  | cons i is ih =>
    unfold updateLatches
    dsimp only
    rw [ih]
    split
    · unfold Mc.tap
      dsimp only
      by_cases hk : k = i
      · rw [hk, Tbl.get_upd_self]
      · rw [Tbl.get_upd_other _ hk]
    · rfl

/-- The state in which a DR scan leaves its chain, before the edges that follow it. -/
def drShifted (pins tdi : List Bool) (s : State) : State :=
  let chain := ([4, 3, 2, 1, 0].map (capture s.mc pins)).flatten ++ tdi
  { s with mc := updateLatches (chain.drop tdi.length) tdoOrder s.mc, dev := s.dev.emit (.tdo (chain.take tdi.length)) }

theorem drScan_of_open {s : State} (h : s.mc.chainOpen = true) (pins tdi : List Bool) :
    drScan pins tdi s = restScan (drShifted pins tdi s) := if_pos h

/-- A DR scan of the open chain (R527, R531): what it shifts out at TDO, and the pins that follow. -/
theorem drScan_spec {s : State} (hs : s.mc.pwr.state = .on) (ht : s.mc.testMode = true) (pins tdi : List Bool) :
    ∃ t, exec (.drScan pins tdi) s = .next t ∧ t.pending = s.pending ∧ t.mc = { s.mc with taps := t.mc.taps } ∧
      t.dev = { s.dev with free := s.dev.free + 1, out := s.dev.out ++
        ([.tdo ((([4, 3, 2, 1, 0].map (capture s.mc pins)).flatten ++ tdi).take tdi.length)] ++
          pinsShown t.mc (t.mc.restEdges s.dev.free)) } ∧
      ∀ i, (t.mc.tap i).ir = (s.mc.tap i).ir := by
  refine ⟨_, congrArg Host.Outcome.next (drScan_of_open (chainOpen_of_test hs ht) pins tdi), ?_⟩
  rw [restScan_eq]
  have e : (drShifted pins tdi s).dev.free = s.dev.free := rfl
  refine ⟨?_, ?_, ?_, fun i => ?_⟩
  · dsimp only [drShifted]
  · dsimp only
    rw [Mc.rested_frame, drShifted]
    dsimp only
    rw [updateLatches_frame]
  · dsimp only
    rw [pinsShown_rested, restEdges_rested, e, ← List.append_assoc, drShifted, Dev.emit]
  · rw [Mc.ir_rested, drShifted, ir_updateLatches]

/-! ### A cell's level, by its port's instruction (R530, R533, R534) -/

/-- The level of a cell that has a pin. -/
def levelOf (ir : Nat) (update left : Bool) (edges kind : Nat) : PinLevel :=
  if ir = 5 then .highImpedance
  else if drives ir then .driven (update != (kind == 1 && acInverted ir edges left))
  else if kind = 2 then .inactive else .electricalIdle

theorem pinLevel_eq (m : Mc) (edges : Nat) (left : Bool) (i k : Nat) : pinLevel m edges left i k =
    if Config.cellKind i k % 4 = 3 then .noPin
    else levelOf (m.tap i).ir (at' false (m.tap i).update k) left edges (Config.cellKind i k % 4) := rfl

theorem levelOf_of_drives {ir : Nat} (h : ir ∈ [0, 4]) (u left : Bool) (e kind : Nat) : levelOf ir u left e kind = .driven u := by
  simp only [List.mem_cons, List.not_mem_nil, or_false] at h
  obtain rfl | rfl := h <;> simp [levelOf, drives, acInverted]

theorem levelOf_pulse (u left : Bool) (e kind : Nat) :
    levelOf 6 u left e kind = .driven (u != decide (kind = 1 ∧ 0 < e ∧ left = false)) := by
  simp [levelOf, drives, acInverted, Bool.decide_and, Bool.beq_eq_decide_eq]

theorem levelOf_train (u left : Bool) (e kind : Nat) : levelOf 7 u left e kind = .driven (u != decide (kind = 1 ∧ e % 2 = 1)) := by
  simp [levelOf, drives, acInverted, Bool.decide_and, Bool.beq_eq_decide_eq]

theorem levelOf_highZ (u left : Bool) (e kind : Nat) : levelOf 5 u left e kind = .highImpedance := rfl

theorem levelOf_of_idle {ir : Nat} (h : ir ∉ [0, 4, 5, 6, 7]) (u left : Bool) (e kind : Nat) :
    levelOf ir u left e kind = if kind = 2 then .inactive else .electricalIdle := by
  simp only [List.mem_cons, List.not_mem_nil, or_false, not_or] at h
  simp [levelOf, drives, h]

theorem tapReset_eq (s : State) : tapReset s = { s with
    mc := s.mc.tapsReset
    dev := if s.mc.chainOpen then s.dev.emit (.pins (pinLevels s.mc.tapsReset 0 false)) else s.dev } := rfl

end Sys2Proof.Machine

namespace Sys2Proof.Proofs
open Sys2Proof.Machine

/-- Settles O14: an IR scan and a DR scan by what they leave (`irScan_spec`, `drScan_spec`), and a cell's level by its port's
instruction (`pinLevel_eq`). -/
theorem testPorts : Obligations.TestPorts := by
  refine ⟨fun taps s hs ht x hx => ?_, fun m e i k => ?_, length_capture, fun pins tdi s hs ht => drScan_spec hs ht pins tdi, fun s => ?_⟩
  · simp only [List.mem_cons, List.not_mem_nil, or_false] at hx
    obtain rfl | rfl | rfl | rfl | rfl | rfl | rfl | rfl := hx <;> exact irScan_spec hs ht _ taps
  · dsimp only
    simp only [pinLevel_eq]
    refine ⟨fun h => ?_, fun h => ?_, fun h => ?_, fun h => ?_, fun h => ?_⟩
    · rw [levelOf_of_drives h]
    · simp [h, levelOf_pulse]
    · rw [h, levelOf_train]
    · rw [h, levelOf_highZ]
    · rw [levelOf_of_idle h]
  · refine ⟨_, congrArg Host.Outcome.next (tapReset_eq s), rfl, rfl, rfl, fun i hi => Mc.tap_tapsReset s.mc hi⟩

end Sys2Proof.Proofs
end

section
/-! SUPPORT. What the host reads of the registers right after reset. -/

namespace Sys2Proof.Machine

/-- An offset of a port's registers reads the port's register (R485). -/
theorem regRead_port (mc : Mc) (d : Dev) {p o : Nat} (hp : p < 16) (ho : o < 0x400) (h8 : o % 8 = 0) :
    regRead mc d (0x300000 + 0x400 * p + o) = portReg (d.port p) o := by
  have hport : (0x300000 + 0x400 * p + o - 0x300000) / 0x400 = p := by omega
  have hoff : (0x300000 + 0x400 * p + o - 0x300000) % 0x400 = o := by omega
  unfold regRead
  rw [if_neg (by omega), if_neg (by omega), if_neg (by omega), if_neg (by simp; omega), if_neg (by omega), if_neg (by simp; omega),
    if_pos (by simp; omega)]
  unfold lnkReg
  rw [if_pos (by omega), hport, hoff]

end Sys2Proof.Machine

namespace Sys2Proof.Proofs
open Sys2Proof.Machine

/-- Settles O3: a channel and a port that nothing has changed read as the default of theirs, and every other register is evaluated. -/
theorem resetRegisters : Obligations.ResetRegisters := by
  refine ⟨fun c => ⟨?_, ?_, ?_⟩, fun p => ⟨?_, ?_⟩, ?_⟩
  · rw [← Nat.add_zero (0x100000 + 0x1000 * c.val), regRead_chanPage _ _ c.isLt (by decide) (by decide)]
    decide +revert
  · rw [show 0x100020 + 0x1000 * c.val = 0x100000 + 0x1000 * c.val + 0x020 by omega]
    exact regRead_chanPage {} {} (o := 0x020) c.isLt (by decide) (by decide)
  · rw [show 0x100120 + 0x1000 * c.val = 0x100000 + 0x1000 * c.val + 0x120 by omega]
    exact regRead_chanPage {} {} (o := 0x120) c.isLt (by decide) (by decide)
  · rw [← Nat.add_zero (0x300000 + 0x400 * p.val), regRead_port _ _ p.isLt (by decide) (by decide)]
    decide +revert
  · rw [show 0x300028 + 0x400 * p.val = 0x300000 + 0x400 * p.val + 0x028 by omega, regRead_port _ _ p.isLt (by decide) (by decide)]
    decide +revert
  · refine ⟨?_, ?_, ?_, ?_, ?_, ?_, ?_, ?_, ?_, ?_, ?_, ?_⟩ <;> rfl

end Sys2Proof.Proofs
end

section
/-! SUPPORT. A descriptor as it enters the dispatch order, one that waits or is held, BARRIER, events, and FREE_GRAPH. -/

namespace Sys2Proof.Machine
open Sys2Proof.Safety

/-! ### The entry as it enters the dispatch order (R345, R349, R378) -/

theorem entered_eq (s : State) (e : Entry) : entered s e =
    ((leaving s e.chan).addJob e.chan (s.dev.chan e.chan).seqNext.toNat e.desc e.env none 0).1 := rfl

theorem jobAt_eq (s : State) (e : Entry) : jobAt s e =
    ((leaving s e.chan).addJob e.chan (s.dev.chan e.chan).seqNext.toNat e.desc e.env none 0).2 := rfl

theorem chan_entered (s : State) (e : Entry) (c : Nat) : (entered s e).chan c = (leaving s e.chan).chan c := rfl

theorem entered_spec (s : State) (e : Entry) : entered s e = { s.dev with
    host := { s.dev.host with atc := (entered s e).host.atc }, chans := (entered s e).chans, jobs := s.dev.jobs ++ [jobAt s e],
    nextJob := s.dev.nextJob + 1, fecProgress := s.dev.fecProgress + 1 } := by
  obtain ⟨a, xs, hl⟩ := leaving_frame s e.chan
  rw [jobAt_eq, entered_eq, hl]
  rfl

theorem taken_inTurn (s : State) (c : Nat) : (taken s c).inTurn = s.dev.inTurn ∧ (taken s c).rrChan = s.dev.rrChan := by
  obtain ⟨a, xs, h⟩ := taken_frame s c
  rw [h]
  exact ⟨rfl, rfl⟩

/-- The channel of an entry that leaves, its credit among the rest (R349, R353, R378). -/
theorem chan_leaving_eq (s : State) (c : Nat) :
    let ch := (s.dev.chan c).pass
    (leaving s c).chan c =
      if s.dev.inTurn = true ∧ s.dev.rrChan = c ∧ ch.left ≠ 0 then { ch with left := ch.left - 1, held := none }
      else { ch with debt := if ch.debt = 0xFFFF then ch.debt else ch.debt + 1, held := none } := by
  obtain ⟨hturn, hrr⟩ := taken_inTurn s c
  have hcharged : (credited s c).chan c = if s.dev.inTurn = true ∧ s.dev.rrChan = c ∧ (s.dev.chan c).pass.left ≠ 0 then
      { (s.dev.chan c).pass with left := (s.dev.chan c).pass.left - 1 }
      else { (s.dev.chan c).pass with
        debt := if (s.dev.chan c).pass.debt = 0xFFFF then (s.dev.chan c).pass.debt else (s.dev.chan c).pass.debt + 1 } := by
    rw [credited, chargeLink, Dev.chan_updChan, chan_taken, hturn, hrr]
    simp only [Bool.and_eq_true, decide_eq_true_eq, bne_iff_ne, and_assoc]
  have hl : (leaving s c).chan c = { (credited s c).chan c with held := none } := Dev.chan_updChan ..
  dsimp only
  rw [hl, hcharged]
  split <;> rfl

/-! ### Verdicts that hold a descriptor (R355, R361, R378, R382) -/

theorem exec_of_waiting {i : Instr} {e : Entry} {s : State} {w : Wait} (h : entryOf i = some e) (hf : e.form = true)
    (ht : takes s e.chan = true) (hv : verdictAt s e = .wait w) :
    exec i s = .next (withDev s ((taken s e.chan).updChan e.chan fun ch =>
      { ch with held := some { heldAt s e with wait := w }, state := .waiting, wait := w })) := by
  rw [exec_of_takes h hf ht, hv]
  rfl

theorem exec_of_busy {i : Instr} {e : Entry} {s : State} (h : entryOf i = some e) (hf : e.form = true)
    (ht : takes s e.chan = true) (hv : verdictAt s e = .busy) :
    exec i s = .next (withDev s ((taken s e.chan).updChan e.chan fun ch => { ch with held := some { heldAt s e with busy := true } })) := by
  rw [exec_of_takes h hf ht, hv]
  rfl

/-! ### The end of a wait (R361, R382) -/

theorem checkWaitEvent_iff (d : Dev) (x : Desc) : checkWaitEvent d x = .go ↔ x.op 0x10 8 ≤ d.eventVal (x.op 0x18 2) := by
  unfold checkWaitEvent
  split <;> simp_all

theorem waitOver_event {h : Held} (hw : h.wait = .event) (d : Dev) (c : Nat) :
    waitOver d c h = true ↔ h.desc.op 0x10 8 ≤ d.eventVal (h.desc.op 0x18 2) := by
  rw [waitOver, hw, ← checkWaitEvent_iff]
  exact beq_iff_eq

theorem earlierDone_iff (d : Dev) (c id : Nat) (launch : Option Nat) :
    d.earlierDone c id launch = true ↔ ∀ j ∈ d.jobs, j.chan = c → j.id < id → launch ≠ some j.id → d.jobComplete j = true := by
  simp only [Dev.earlierDone, List.all_eq_true, Bool.or_eq_true, bne_iff_ne, decide_eq_true_eq, beq_iff_eq]
  refine forall_congr' fun j => forall_congr' fun _ => ?_
  rw [← Nat.not_lt, eq_comm (a := some j.id)]
  tauto

theorem waitOver_barrier {h : Held} (hw : h.wait = .barrier) (d : Dev) (c : Nat) :
    waitOver d c h = true ↔
      ∀ j ∈ d.jobs, j.chan = c → j.id < d.nextJob → (d.chan c).launch ≠ some j.id → d.jobComplete j = true := by
  rw [waitOver, hw]
  exact earlierDone_iff ..

theorem channelWaitEnd_of_over {d : Dev} {c : Nat} {h : Held} (hs : (d.chan c).state = .waiting) (hh : (d.chan c).held = some h)
    (hw : waitOver d c h = true) : channelWaitEnd c d = d.updChan c fun ch => { ch with state := .running, wait := .none } :=
  if_pos (by simp [hs, hh, hw])

theorem channelWaitEnd_of_not_over {d : Dev} {c : Nat} {h : Held} (hh : (d.chan c).held = some h) (hw : waitOver d c h = false) :
    channelWaitEnd c d = d := if_neg (by simp [hh, hw])

/-! ### BARRIER (R355) -/

theorem orphanBatch_of_ne {h : Held} (hw : h.wait ≠ .stream) (d : Dev) : orphanBatch d h = none := if_neg (by simp [hw])

theorem earlierDone_of_barrier {mc : Mc} {d : Dev} {c : Nat} {h : Held} {env : Env} {launch : Option Nat} (hw : h.wait ≠ .stream)
    (hb : h.desc.barrier = true) (hgo : verdictOf mc d c h env launch = .go) : d.earlierDone c d.nextJob launch = true := by
  rw [verdictOf, orphanBatch_of_ne hw] at hgo
  by_contra hn
  simp [hb, Bool.eq_false_iff.mpr hn] at hgo

theorem taken_earlierDone (s : State) (c id : Nat) (launch : Option Nat) :
    (taken s c).earlierDone c id launch = s.dev.earlierDone c id launch ∧ (taken s c).nextJob = s.dev.nextJob := by
  obtain ⟨a, xs, h⟩ := taken_frame s c
  rw [h]
  exact ⟨rfl, rfl⟩

/-! ### Events (R359 to R362) -/

theorem eventRecord_max (cur v : Nat) : eventRecord cur v false = (max cur v, if v < cur then stEventStale else 0) := by
  unfold eventRecord
  simp only [Bool.false_eq_true, if_false]
  split
  · rw [if_neg (by omega), Nat.max_eq_right (by omega)]
  · split
    · rw [if_neg (by omega), Nat.max_eq_left (by omega)]
    · rw [if_pos (by omega), Nat.max_eq_left (by omega)]

theorem eventRecord_add (cur v : Nat) :
    eventRecord cur v true = (min eventMax (cur + v), if eventMax < cur + v then stEventStale else 0) := by
  unfold eventRecord
  simp only [if_true]
  split
  · rw [Nat.min_eq_left (by omega)]
  · rw [Nat.min_eq_right (by omega)]

/-- A record keeps an event from falling and within its range (R49, R360). -/
theorem eventRecord_bounds {cur v : Nat} (hc : cur ≤ eventMax) (add : Bool) :
    cur ≤ (eventRecord cur v add).1 ∧ (v ≤ eventMax → (eventRecord cur v add).1 ≤ eventMax) := by
  cases add
  · rw [eventRecord_max]
    dsimp only
    omega
  · rw [eventRecord_add]
    dsimp only
    omega

section
variable {j : Job} (d : Dev)

theorem blocksRead_event (h : j.desc.code < 4) : blocksRead d j = [] := by
  generalize hn : j.desc.code = n at h
  interval_cases n <;> simp only [blocksRead, hn]

theorem dataRead_event (h : j.desc.code < 4) : dataRead d j = [] := by
  generalize hn : j.desc.code = n at h
  interval_cases n <;> simp only [dataRead, hn]

theorem opcodeStart_atOnce (mc : Mc) (h : j.desc.code = 0 ∨ j.desc.code = 2) : opcodeStart mc j d = d.finishJob j.id 0 := by
  obtain h | h := h <;> simp only [opcodeStart, h] <;> rfl

theorem opcodeStart_queued (mc : Mc) (h : j.desc.code = 1 ∨ j.desc.code = 3) :
    opcodeStart mc j d = d.updJob j.id fun k => { k with phase := .queued } := by
  obtain h | h := h <;> simp only [opcodeStart, h] <;> rfl

theorem blocksRead_freeGraph (h : j.desc.code = 0x73) : blocksRead d j = [] := by simp only [blocksRead, h]

theorem dataRead_freeGraph (h : j.desc.code = 0x73) : dataRead d j = [] := by simp only [dataRead, h]

theorem opcodeStart_freeGraph (mc : Mc) (h : j.desc.code = 0x73) : opcodeStart mc j d = startFreeGraph j d := by
  simp only [opcodeStart, h]

end

theorem recordApply_of_due {d : Dev} {id : Nat} {j : Job} (hj : d.job id = some j) (hc : j.desc.code = 1) (hq : j.phase = .queued)
    (he : d.earlierDone j.chan j.id j.launch = true) :
    recordApply id d = if eventLocal d j.desc then applyLocal d j else applyRemote d j := by
  rw [recordApply, hj]
  exact if_pos (by simp [hc, hq, he])

theorem eventUnit_of_request {d : Dev} {pn : Nat} {u : RxUnit} (h : (d.port pn).requestOf 8 = some u) :
    eventUnit pn d =
      let r := eventRecord ((d.takeUnit pn u).eventVal (field u.body 8 2)) (field u.body 0 8) (bit (field u.body 10 1) 0)
      sendUnit ((d.takeUnit pn u).setEvent (field u.body 8 2) r.1) u.src 14 u.plot
        (toLe 4 (field u.body 12 4) ++ toLe 2 r.2.toNat ++ toLe 2 0) := by
  rw [eventUnit, h]

/-! ### FREE_GRAPH (R367) -/

theorem Dev.graph_setGraph_other {d : Dev} {m n : Nat} (h : m ≠ n) (x : Option Graph) : (d.setGraph n x).graph m = d.graph m :=
  Tbl.get_set_other none h x d.graphs

theorem graph_entered (s : State) (e : Entry) (g : Nat) : (entered s e).graph g = s.dev.graph g := by
  obtain ⟨a, xs, js, h⟩ := entered_frame s e
  rw [h]
  rfl

end Sys2Proof.Machine

namespace Sys2Proof.Proofs
open Sys2Proof.Machine Sys2Proof.Safety

/-- Settles O15: the dispatch of an entry (`exec_of_dispatched`), and what entering it changes (`entered_spec`, `chan_leaving_eq`). -/
theorem descriptorDispatched : Obligations.DescriptorDispatched := by
  refine ⟨fun i e s h => exec_of_dispatched h, fun e s => ⟨entered_spec s e, fun c hc => (chan_entered s e c).trans (chan_leaving_other hc), ?_,
    jobAt_id s e, rfl, rfl, rfl⟩⟩
  have hcredit : (s.dev.chan e.chan).pass.left = (s.dev.chan e.chan).left ∧ (s.dev.chan e.chan).pass.debt = (s.dev.chan e.chan).debt :=
    ⟨rfl, rfl⟩
  dsimp only
  rw [chan_entered, chan_leaving_eq, hcredit.1, hcredit.2]
  split
  · exact ⟨rfl, rfl, rfl, rfl, rfl, rfl, rfl, rfl, rfl⟩
  · refine ⟨rfl, rfl, rfl, rfl, rfl, rfl, rfl, rfl, ?_⟩
    dsimp only
    split
    · assumption
    · rfl

/-- Settles O17: a verdict that holds the entry leaves it at HEAD's place in its channel; a wait ends where `waitOver` says so. -/
theorem descriptorsHeldAndWaits : Obligations.DescriptorsHeldAndWaits := by
  refine ⟨fun i e s h hf ht => ⟨fun w => exec_of_waiting h hf ht, exec_of_busy h hf ht⟩, fun c h s hl hs hh hw => ?_,
    fun c h s hh hw => onDev_same (channelWaitEnd_of_not_over hh hw), fun d c h hw => waitOver_event hw d c,
    fun d c h hw => waitOver_barrier hw d c⟩
  exact (onDev_live hl).trans (congrArg (fun d => Host.Outcome.next (withDev s d)) (channelWaitEnd_of_over hs hh hw))

/-- Settles O18: the verdict asks for BARRIER's condition before the checks (`earlierDone_of_barrier`). -/
theorem barrierOrder : Obligations.BarrierOrder := by
  refine ⟨fun mc d c h env launch hw hb hgo => (earlierDone_iff ..).mp (earlierDone_of_barrier hw hb hgo), fun i e s h hb j hj hc hid => ?_⟩
  have hd := earlierDone_of_barrier (h := heldAt s e) nofun hb h.2.2.2
  rw [(taken_earlierDone s e.chan 0 none).2, (taken_earlierDone ..).1] at hd
  exact (earlierDone_iff ..).mp hd j hj hc hid nofun

/-- Settles O19: the event descriptors read nothing at their dispatch; a record is `eventRecord` of the event's value. -/
theorem events : Obligations.Events := by
  refine ⟨⟨fun i e s h hc => ?_, fun i e s h hc => ?_, fun d x => ⟨(checkWaitEvent_iff d x).mpr, fun hlt => if_neg (Nat.not_le.mpr hlt)⟩⟩,
    fun cur v add hc => ⟨(eventRecord_bounds hc add).1, (eventRecord_bounds hc add).2, ?_, ?_⟩, fun id s j hl hj hc hq he hloc => ?_,
    fun id s j hl hj hc hq he hloc => ?_, fun p s u hl hu => ?_⟩
  · have hcode : e.desc.code = 0 ∨ e.desc.code = 2 := hc.imp (congrArg BitVec.toNat) (congrArg BitVec.toNat)
    have hlt : (jobAt s e).desc.code < 4 := by rw [jobAt_desc]; omega
    exact engineDoes_of_readsNone h rfl (by omega) (blocksRead_event _ hlt) (dataRead_event _ hlt) (opcodeStart_atOnce _ _ hcode)
  · have hcode : e.desc.code = 1 ∨ e.desc.code = 3 := hc.imp (congrArg BitVec.toNat) (congrArg BitVec.toNat)
    have hlt : (jobAt s e).desc.code < 4 := by rw [jobAt_desc]; omega
    exact engineDoes_of_readsNone h rfl (by omega) (blocksRead_event _ hlt) (dataRead_event _ hlt) (opcodeStart_queued _ _ hcode)
  · rintro rfl
    rw [eventRecord_max]
    exact ⟨rfl, rfl⟩
  · rintro rfl
    rw [eventRecord_add]
    exact ⟨rfl, rfl⟩
  · refine (onDev_live hl).trans (congrArg (fun d => Host.Outcome.next (withDev s d)) ?_)
    rw [recordApply_of_due hj hc hq he, if_pos hloc]
    rfl
  · refine (onDev_live hl).trans (congrArg (fun d => Host.Outcome.next (withDev s d)) ?_)
    rw [recordApply_of_due hj hc hq he, if_neg (ne_true_of_eq_false hloc)]
  · exact (onDev_live hl).trans (congrArg (fun d => Host.Outcome.next (withDev s d)) (eventUnit_of_request hu))

/-- Settles O20: FREE_GRAPH reads nothing at its dispatch, and removes its ID's graph alone. -/
theorem freeGraph : Obligations.FreeGraph := by
  intro c x env e s h
  obtain rfl : e = ⟨c.val, { x with opcode := 0x73 }, env, true⟩ := (Option.some.inj h.1).symm
  refine ⟨engineDoes_of_readsNone h rfl (show (0x73 : Nat) ≠ 0x71 by decide) (blocksRead_freeGraph _ rfl) (dataRead_freeGraph _ rfl) (opcodeStart_freeGraph _ _ rfl),
    Dev.graph_setGraph .., fun g hg => ?_⟩
  rw [Dev.graph_setGraph_other hg, graph_entered]

end Sys2Proof.Proofs
end

section
/-! SUPPORT. The completion word, channel control, doorbells, and the reading of record rings. -/

namespace Sys2Proof.Machine
open Sys2Proof.Safety

/-! ### The completion word (R393) -/

/-- A completion word moved by `advanceWord`: it covers exactly the numbers that it takes from the list, and stops at a gap. -/
structure WordMoves (c t : Chan) : Prop where
  grows : c.cw.toNat ≤ t.cw.toNat
  covers : ∀ n, c.cw.toNat < n → n ≤ t.cw.toNat → n ∈ c.cwDone
  gap : t.cw.toNat + 1 ∉ c.cwDone
  keeps : ∀ n, n ∈ t.cwDone ↔ n ∈ c.cwDone ∧ ¬(c.cw.toNat < n ∧ n ≤ t.cw.toNat)
  frame : t = { c with cw := t.cw, cwDone := t.cwDone }

theorem WordMoves.of_gap {c : Chan} (h : c.cw.toNat + 1 ∉ c.cwDone) : WordMoves c c :=
  ⟨le_rfl, fun n hlo hhi => absurd hhi (by omega), h, fun n => ⟨fun hn => ⟨hn, by omega⟩, And.left⟩, rfl⟩

/-- The word one higher, its number taken from the list. -/
def Chan.wordNext (c : Chan) : Chan := { c with cw := c.cw + 1, cwDone := c.cwDone.filter (· ≠ (c.cw + 1).toNat) }

theorem Chan.mem_wordNext {c : Chan} {n : Nat} : n ∈ c.wordNext.cwDone ↔ n ∈ c.cwDone ∧ n ≠ (c.cw + 1).toNat := by
  simp [wordNext]

theorem WordMoves.of_next {c t : Chan} (hw : (c.cw + 1).toNat = c.cw.toNat + 1) (hin : (c.cw + 1).toNat ∈ c.cwDone)
    (h : WordMoves c.wordNext t) : WordMoves c t := by
  have hcw : c.wordNext.cw.toNat = c.cw.toNat + 1 := hw
  obtain ⟨hgrows, hcovers, hgap, hkeeps, hframe⟩ := h
  simp only [Chan.mem_wordNext, hcw, hw] at hgrows hcovers hgap hkeeps
  refine ⟨by omega, fun n hlo hhi => ?_, fun hn => hgap ⟨hn, by omega⟩, fun n => ?_, hframe⟩
  · by_cases hnext : n = c.cw.toNat + 1
    · rwa [hnext, ← hw]
    · exact (hcovers n (by omega) hhi).1
  · rw [hkeeps, and_assoc]
    exact and_congr_right fun _ => by omega

theorem advanceWord_moves (fuel : Nat) : ∀ c : Chan, c.cwDone.length ≤ fuel → c.cw.toNat + fuel + 1 < 2 ^ 64 →
    WordMoves c (advanceWord fuel c) := by
  induction fuel with
  | zero =>
    intro c hlen _
    exact .of_gap (by simp [List.length_eq_zero_iff.mp (Nat.le_zero.mp hlen)])
  | succ fuel ih =>
    intro c hlen hfit
    have hw : (c.cw + 1).toNat = c.cw.toNat + 1 := by
      rw [BitVec.toNat_add, show (1 : Word).toNat = 1 from rfl]
      exact Nat.mod_eq_of_lt (by omega)
    by_cases hin : (c.cw + 1).toNat ∈ c.cwDone
    · have hshort : c.wordNext.cwDone.length < c.cwDone.length := List.length_filter_lt_length_iff_exists.mpr ⟨_, hin, by simp⟩
      have hcw : c.wordNext.cw.toNat = c.cw.toNat + 1 := hw
      rw [advanceWord, if_pos (List.contains_iff_mem.mpr hin)]
      exact .of_next hw hin (ih c.wordNext (by omega) (by omega))
    · rw [advanceWord, if_neg (fun h => hin (List.contains_iff_mem.mp h))]
      exact .of_gap (hw ▸ hin)

/-! ### Channel control and doorbells (R350, R382, R389) -/

/-- Work of the device answers what its function makes of the digital part. -/
theorem onDev_next {s : State} (hl : s.live = true) {f : Dev → Dev} {e : Dev} (h : f s.dev = e) : onDev f s = .next (withDev s e) :=
  h ▸ onDev_live hl

theorem quiet_iff (d : Dev) (c : Nat) : quiet d c = true ↔
    (d.chan c).held = none ∧ (d.chan c).launch = none ∧ (∀ j ∈ d.jobs, j.chan = c → d.jobComplete j = true) ∧
      ∀ f ∈ d.taskFeeds, f.chan ≠ c := by
  simp only [quiet, Bool.and_eq_true, Option.isNone_iff_eq_none, List.all_eq_true, bne_iff_ne, Bool.or_eq_true, and_assoc,
    ne_eq, imp_iff_not_or]

/-- What DISABLE needs is missing as soon as one of its conditions is (R382). -/
theorem not_quiet {d : Dev} {c : Nat} (h : (d.chan c).held ≠ none ∨ (d.chan c).launch ≠ none ∨
    (∃ j ∈ d.jobs, j.chan = c ∧ d.jobComplete j = false) ∨ ∃ f ∈ d.taskFeeds, f.chan = c) : quiet d c = false := by
  refine Bool.eq_false_iff.mpr fun hq => ?_
  obtain ⟨hheld, hlaunch, hjobs, hfeeds⟩ := (quiet_iff d c).mp hq
  obtain h | h | ⟨j, hj, hjc, hdone⟩ | ⟨f, hf, hfc⟩ := h
  · exact h hheld
  · exact h hlaunch
  · exact Bool.false_ne_true (hdone.symm.trans (hjobs j hj hjc))
  · exact hfeeds f hf hfc

theorem disable_eq {d : Dev} {c : Nat} {go : Bool} (h : quiet d c = go) : disable c d = d.updChan c fun ch =>
    if (ch.state == .running || ch.state == .halted) && go then { ch with state := .disabled, armed := [] } else ch.refuse := by
  rw [disable, h]

theorem resume_of_halted {d : Dev} {c : Nat} (hh : (d.chan c).state = .halted) {past : Bool}
    (hp : (d.chan c).held.all (waitOver d c) = past) : resume c d = d.updChan c fun ch =>
      { ch with
          refetches := 0, wait := if past then .none else (ch.held.map (·.wait)).getD .none
          before := if past then .running else .waiting
          state := if ch.blocked then .blocked else if past then .running else .waiting } := by
  rw [resume, hp]
  exact Dev.updChan_congr (if_neg (by simp [hh]))

theorem resume_of_not_halted {d : Dev} {c : Nat} (hh : (d.chan c).state ≠ .halted) : resume c d = d.updChan c Chan.refuse := by
  rw [resume]
  exact Dev.updChan_congr (if_pos (by simpa using hh))

/-! ### A record-ring read while translations are cached (R375, R403)

A record-ring read is a host access, so with ATS enabled it enters the translation of its page into the translation cache. -/

/-- A task fed by the record ring of channel 0. -/
def ringTask : Feed := Feed.fresh (.task 0) 0 0 0 0 0

/-- A running device with ATS enabled and an empty translation cache, whose channel 0 has one record-ring entry to read. -/
def ringTranslated : State := {
  mc := {}, pending := []
  dev := { err := { fatalState := 0 }, host := { ats := true }, feeds := [ringTask]
           chans := [(0, { inLog2 := 1, inTail := 1, inEntryLog2 := 5 })] } }

/-- An entry of 16 frame bytes. -/
def ringEntry : Bytes := toLe 4 16 ++ List.replicate 20 0

theorem exec_recordRingRead {s : State} (hl : s.live = true) {c : Fin 64} (hr : (s.dev.chan c.val).inRetry = false)
    (entry : Option Bytes) : exec (.recordRingRead c entry) s = .next (withDev s (ringRead c.val entry s.dev)) := by
  change onDev (fun d => if (d.chan c.val).inRetry then d else ringRead c.val entry d) s = _
  exact onDev_next hl (if_neg (by simp [hr]))

theorem atc_ringRead_ringTranslated : (ringRead 0 (some ringEntry) ringTranslated.dev).host.atc = [0] := by decide

end Sys2Proof.Machine

namespace Sys2Proof.Proofs
open Sys2Proof.Machine Sys2Proof.Safety

/-- Settles O28: `advanceWord` has as much fuel as the list has numbers, so it stops at a gap (`advanceWord_moves`). -/
theorem completionWord : Obligations.CompletionWord := by
  intro c seq hfit
  have hmoves : WordMoves { c with cwDone := c.cwDone ++ [seq] } (c.noteDone seq) :=
    advanceWord_moves _ _ (by simp) (by dsimp only; omega)
  exact ⟨hmoves.grows, hmoves.covers, hmoves.gap, hmoves.keeps, hmoves.frame⟩

/-- Settles O29: each control write is one change of the channel, by its condition. -/
theorem channelControl : Obligations.ChannelControl := by
  refine ⟨fun c s hl => ⟨fun hst hb hlo hhi => ?_, fun hst hheld hlaunch hjobs hfeeds => ?_, fun hst => ?_, fun hst hheld => ?_,
      fun h hst hheld hw hb => ?_⟩, fun c env s hl => ⟨fun h => ?_, fun h => ?_, fun hr hw => ?_, fun h => ?_, fun h => ?_⟩⟩
  · refine onDev_next hl (Dev.updChan_congr ?_)
    exact if_pos (by simpa [hst, hlo, hhi] using hb)
  · refine onDev_next hl ((disable_eq ((quiet_iff ..).mpr ⟨hheld, hlaunch, hjobs, hfeeds⟩)).trans (Dev.updChan_congr ?_))
    exact if_pos (by simpa using hst)
  · refine onDev_next hl (Dev.updChan_congr ?_)
    exact if_pos (by simpa using hst)
  · exact onDev_next hl (resume_of_halted (past := true) hst (by rw [hheld]; rfl))
  · refine onDev_next hl ((resume_of_halted (past := false) hst (by rw [hheld]; exact hw)).trans (Dev.updChan_congr ?_))
    simp [hheld, hb]
  · refine onDev_next hl (Dev.updChan_congr ?_)
    refine if_neg fun hgo => ?_
    simp only [Bool.and_eq_true, beq_iff_eq, bne_iff_ne, decide_eq_true_eq] at hgo
    obtain ⟨⟨⟨hst, hb⟩, hlo⟩, hhi⟩ := hgo
    exact h.elim (· hst) fun h => h.elim hb (by omega)
  · refine onDev_next hl ((disable_eq rfl).trans (Dev.updChan_congr ?_))
    refine if_neg fun hgo => ?_
    obtain ⟨hst, hquiet⟩ := (Bool.and_eq_true _ _).mp hgo
    obtain ⟨hr, hh⟩ | h := h
    · simp [hr, hh] at hst
    · exact Bool.false_ne_true ((not_quiet h).symm.trans hquiet)
  · refine onDev_next hl (Dev.updChan_congr ?_)
    exact if_neg (by simp [hr, hw])
  · exact onDev_next hl (resume_of_not_halted h)
  · exact onDev_next hl (if_pos h)

/-- Refutes O30: the statement has a record-ring read change the task's queue and the channels alone, but with ATS enabled the read's
page also enters the translation cache (`atc_ringRead_ringTranslated`). -/
theorem not_doorbellsAndRecordRings : ¬ Obligations.DoorbellsAndRecordRings := by
  intro h
  obtain ⟨u, hu, hframe, -⟩ := (h.2 0 0 ringTranslated rfl).2.2.1 ringTask ringEntry rfl rfl rfl rfl (by decide) (by decide)
  have hkept : u.dev.host.atc = [] := congrArg (fun t : State => t.dev.host.atc) hframe
  obtain rfl := Host.Outcome.next.inj ((exec_recordRingRead rfl rfl _).symm.trans hu)
  exact absurd (atc_ringRead_ringTranslated.symm.trans hkept) (by decide)

end Sys2Proof.Proofs
end

section
/-! SUPPORT. Turns of the dispatch sequencer, stale entries, and the links of chains. -/

namespace Sys2Proof.Machine
open Sys2Proof.Safety

/-! ### Finding the channel of the next turn (R378) -/

theorem foldl_range_same {σ : Type} {f : σ → Nat → σ} {a : σ} {n : Nat} (h : ∀ i, i < n → f a i = a) : (List.range n).foldl f a = a := by
  induction n with
  | zero => rfl
  | succ n ih => rw [List.range_succ, List.foldl_append, ih fun i hi => h i (by omega), List.foldl_cons, List.foldl_nil, h n (by omega)]

/-- A fold whose state moves at one index alone. -/
theorem foldl_range_once {σ : Type} {f : σ → Nat → σ} {a b : σ} {k n : Nat} (hk : k < n) (hbefore : ∀ i, i < k → f a i = a)
    (hat : f a k = b) (hafter : ∀ i, f b i = b) : (List.range n).foldl f a = b := by
  induction n with
  | zero => omega
  | succ n ih =>
    rw [List.range_succ, List.foldl_append, List.foldl_cons, List.foldl_nil]
    obtain hlt | rfl : k < n ∨ k = n := by omega
    · rw [ih hlt, hafter]
    · rw [foldl_range_same hbefore, hat]

theorem nextTurn_first {d : Dev} {k : Nat} (hk : k < 64) (hbefore : ∀ i, i < k → eligible d ((d.rrChan + 1 + i) % 64) = false)
    (he : eligible d ((d.rrChan + 1 + k) % 64) = true)
    (hdebt : (d.chan ((d.rrChan + 1 + k) % 64)).debt.toNat < max (d.chan ((d.rrChan + 1 + k) % 64)).slice.toNat 1) :
    nextTurn d = (d, some ((d.rrChan + 1 + k) % 64,
      max (d.chan ((d.rrChan + 1 + k) % 64)).slice.toNat 1 - (d.chan ((d.rrChan + 1 + k) % 64)).debt.toNat)) := by
  unfold nextTurn
  refine foldl_range_once hk (fun i hi => ?_) ?_ fun i => rfl
  · exact if_pos (by simp [hbefore i hi])
  · dsimp only
    rw [if_neg (by simp [he]), if_neg (by omega)]

theorem nextTurn_none {d : Dev} (h : ∀ c, c < 64 → eligible d c = false) : nextTurn d = (d, none) :=
  foldl_range_same fun i _ => if_pos (by simp [h _ (Nat.mod_lt _ (by decide : 0 < 64))])

/-- A turn opened for a channel with an allowance (R378). -/
def turnOpened (d : Dev) (c n : Nat) : Dev :=
  { d.updChan c (fun ch => { ch with debt := 0, left := BitVec.ofNat 16 n }) with rrChan := c, inTurn := true }

theorem chan_turnOpened (d : Dev) (c n : Nat) :
    (turnOpened d c n).chan c = { d.chan c with debt := 0, left := BitVec.ofNat 16 n } :=
  Dev.chan_updChan d c fun ch => { ch with debt := 0, left := BitVec.ofNat 16 n }

theorem eligible_turnOpened (d : Dev) (c n : Nat) : eligible (turnOpened d c n) c = eligible d c := by
  have hchan := chan_turnOpened d c n
  have hfetch : (turnOpened d c n).mayFetch c = d.mayFetch c := by
    unfold Dev.mayFetch
    rw [hchan]
    rfl
  unfold eligible
  dsimp only
  rw [hchan, hfetch]
  rfl

theorem openTurn_of_next {d : Dev} {c n : Nat} (h : nextTurn d = (d, some (c, n))) : openTurn d = turnOpened d c n := by
  unfold openTurn
  generalize nextTurn d = r at h
  subst h
  rfl

theorem openTurn_of_none {d : Dev} (h : nextTurn d = (d, none)) : openTurn d = d := by
  unfold openTurn
  generalize nextTurn d = r at h
  subst h
  rfl

theorem eligible_iff (d : Dev) (c : Nat) : eligible d c = true ↔ d.running = true ∧ (d.chan c).state = .running ∧
    ((d.chan c).held.isSome = true ∨ (d.chan c).launch.isSome = true ∨ d.mayFetch c = true) := by
  simp [eligible, and_assoc, or_assoc]

/-- A turn goes on while its channel has work and allowance left (R378). -/
def goesOn (d : Dev) : Bool := d.inTurn && eligible d d.rrChan && (d.chan d.rrChan).left != 0

/-- The turn in progress, or none. -/
def Dev.turning (d : Dev) (b : Bool) : Dev := { d with inTurn := b }

theorem Dev.chan_turning (d : Dev) (b : Bool) (k : Nat) : (d.turning b).chan k = d.chan k := rfl

theorem Dev.turning_self {d : Dev} {b : Bool} (h : d.inTurn = b) : d.turning b = d := h ▸ rfl

theorem Dev.turning_turning (d : Dev) (a b : Bool) : (d.turning a).turning b = d.turning b := rfl

theorem goesOn_turning (d : Dev) : goesOn (d.turning false) = false := rfl

theorem dispatchTurn_eq (mc : Mc) (fs : List Fetch) (d : Dev) : dispatchTurn mc fs d =
    let e := if goesOn d then d else openTurn (d.turning false)
    let e := if e.inTurn then serveAll mc e.rrChan fs e else e
    e.turning (goesOn e) := rfl

theorem dispatchTurn_goesOn {d : Dev} (h : goesOn d = true) (mc : Mc) (fs : List Fetch) :
    dispatchTurn mc fs d = (serveAll mc d.rrChan fs d).turning (goesOn (serveAll mc d.rrChan fs d)) := by
  have hturn : d.inTurn = true := by
    simp only [goesOn, Bool.and_eq_true] at h
    exact h.1.1
  simp only [dispatchTurn_eq, h, hturn, if_true]

theorem goesOn_turnOpened {d : Dev} {c n : Nat} (he : eligible d c = true) (hpos : 0 < n) (hn : n < 2 ^ 16) :
    goesOn (turnOpened d c n) = true := by
  have hleft : ((turnOpened d c n).chan c).left = BitVec.ofNat 16 n := by
    rw [chan_turnOpened]
  have hne : BitVec.ofNat 16 n ≠ 0 := fun h => by
    have := congrArg BitVec.toNat h
    rw [BitVec.toNat_ofNat, Nat.mod_eq_of_lt hn] at this
    exact absurd this (Nat.ne_of_gt hpos)
  change (true && eligible (turnOpened d c n) c && ((turnOpened d c n).chan c).left != 0) = true
  rw [eligible_turnOpened, he, hleft]
  exact bne_iff_ne.mpr hne

/-- One fetch of a turn that goes on. -/
theorem serveAll_single {d : Dev} (h : goesOn d = true) (mc : Mc) (f : Fetch) :
    serveAll mc d.rrChan [f] d =
      if (serve mc d.rrChan f d).2 = .taken then (serve mc d.rrChan f d).1 else (serve mc d.rrChan f d).1.turning false := by
  have hmore : eligible d d.rrChan = true ∧ ((d.chan d.rrChan).left != 0) = true := by
    simp only [goesOn, Bool.and_eq_true] at h
    exact ⟨h.1.2, h.2⟩
  rw [serveAll, if_pos (by rw [hmore.1, hmore.2]; rfl)]
  obtain ⟨e, t⟩ := serve mc d.rrChan f d
  cases t <;> rfl

/-- A turn whose channel has an entry to take goes on. -/
theorem goesOn_of_takes {s : State} (ht : takes s s.dev.rrChan = true) (hturn : s.dev.inTurn = true)
    (hleft : (s.dev.chan s.dev.rrChan).left ≠ 0) : goesOn s.dev = true := by
  obtain ⟨-, hrun, hready, hheld⟩ := (takes_iff s _).mp ht
  have hstate := ((Chan.ready_iff _).mp hready).1
  have he : eligible s.dev s.dev.rrChan = true :=
    (eligible_iff ..).mpr ⟨hrun, hstate, .inr (.inr (by simp [Dev.mayFetch, hready, hheld]))⟩
  simpa [goesOn, hturn, he] using hleft

section
variable {s : State} {c : Nat} (ht : takes s c = true) (f : Fetch)
include ht

theorem serve_of_takes_ok {b : Bytes} (hf : f.entry = some b) (hok : fetchOk (s.dev.chan c) (some b) = true) :
    serve s.mc c f s.dev = takeEntry s.mc c (Desc.ofBytes b) f.env (fetched c (some []) s.dev) := by
  obtain ⟨-, -, hready, -⟩ := (takes_iff s c).mp ht
  obtain ⟨-, hheld, hlaunch, -, -⟩ := (Chan.ready_iff _).mp hready
  unfold serve
  simp only [hheld, hlaunch, hf, hok, if_true]
  rfl

theorem serve_of_takes_bad (hbad : fetchOk (s.dev.chan c) f.entry = false)
    (hagain : (s.dev.chan c).refetches < (s.dev.chan c).refetchLimit.toNat) :
    serve s.mc c f s.dev = (failedFetch c (fetched c f.entry s.dev), .busy) := by
  obtain ⟨-, -, hready, -⟩ := (takes_iff s c).mp ht
  obtain ⟨-, hheld, hlaunch, -, -⟩ := (Chan.ready_iff _).mp hready
  unfold serve
  simp only [hheld, hlaunch, if_pos hagain]
  cases hf : f.entry with
  | none => rfl
  | some b =>
    rw [hf] at hbad
    simp only [hbad, Bool.false_eq_true, if_false]

end

/-- A descriptor command whose entry passes every check does what taking that entry in a turn does. -/
theorem takeEntry_of_dispatched {i : Instr} {e : Entry} {s u : State} (h : dispatches i e s) (hu : exec i s = .next u) :
    takeEntry s.mc e.chan e.desc e.env (fetched e.chan (some []) s.dev) = (u.dev, .taken) := by
  obtain ⟨hi, hf, ht, hv⟩ := id h
  obtain ⟨hl, hrun, hready, hheld⟩ := (takes_iff s e.chan).mp ht
  obtain ⟨-, -, hlaunch, -, -⟩ := (Chan.ready_iff _).mp hready
  have hnone : ((taken s e.chan).chan e.chan).launch = none := by rw [chan_taken]; exact hlaunch
  have hverdict : verdictOf s.mc (taken s e.chan) e.chan (heldAt s e) e.env ((taken s e.chan).chan e.chan).launch = .go := by
    rw [hnone, ← hv]
    rfl
  have htaken : (takeEntry s.mc e.chan e.desc e.env (fetched e.chan (some []) s.dev)).2 = .taken := by
    rw [takeEntry, chan_fetched]
    change (offer s.mc e.chan (heldAt s e) e.env (taken s e.chan)).2 = _
    rw [offer, hverdict]
    rfl
  have hexec : exec i s = .next (withDev s (takeEntry s.mc e.chan e.desc e.env (fetched e.chan (some []) s.dev)).1) := by
    rw [exec_of_entryOf s hi]
    refine onDev_next hl ?_
    rw [hf, if_pos rfl]
    exact if_pos (by simp [hrun, Dev.mayFetch, hready, hheld])
  obtain rfl := Host.Outcome.next.inj (hexec.symm.trans hu)
  exact Prod.ext rfl htaken

/-- The host read of the entry at HEAD and the credit of its fetch, beside what the entry then is (R378, R403). -/
def chargedFetch (d : Dev) (c : Nat) (entry : Option Bytes) : Dev := chargeLink (fetched c entry d) c

theorem chargedFetch_frame (d : Dev) (c : Nat) (entry : Option Bytes) :
    ∃ a xs, chargedFetch d c entry = { d with host := { d.host with atc := a }, chans := xs } := by
  obtain ⟨a, ha⟩ := fetched_frame c entry d
  exact ⟨a, _, by rw [chargedFetch, chargeLink_frame, ha]⟩

theorem chan_chargedFetch (d : Dev) (c : Nat) (entry : Option Bytes) :
    (chargedFetch d c entry).chan c = (chargeLink d c).chan c := by
  obtain ⟨a, ha⟩ := fetched_frame c entry d
  rw [chargedFetch, ha]
  rfl

theorem chan_chargedFetch_other {d : Dev} {c k : Nat} (h : k ≠ c) (entry : Option Bytes) :
    (chargedFetch d c entry).chan k = d.chan k := by
  rw [chargedFetch, chargeLink, Dev.chan_updChan_other _ h, chan_fetched]

/-! ### Fetches that fail (R351) -/

section
variable {d : Dev} {c : Nat} (h : (d.chan c).refetches < (d.chan c).refetchLimit.toNat)
include h

theorem failedFetch_again :
    failedFetch c d = (d.updChan c fun ch => ch.event 1).updChan c fun ch => { ch with refetches := ch.refetches + 1 } := by
  unfold failedFetch
  dsimp only
  exact if_pos (by rw [Dev.chan_updChan]; exact h)

theorem failedFetch_again_frame : failedFetch c d = { d with chans := (failedFetch c d).chans } := by
  rw [failedFetch_again h]
  rfl

theorem chan_failedFetch_again :
    (failedFetch c d).chan c = { (d.chan c).event 1 with refetches := (d.chan c).refetches + 1 } := by
  rw [failedFetch_again h, Dev.chan_updChan, Dev.chan_updChan]
  rfl

theorem chan_failedFetch_again_other {k : Nat} (hk : k ≠ c) : (failedFetch c d).chan k = d.chan k := by
  rw [failedFetch_again h, Dev.chan_updChan_other _ hk, Dev.chan_updChan_other _ hk]

end

theorem failedFetch_stale {d : Dev} {c : Nat} (h : (d.chan c).refetchLimit.toNat ≤ (d.chan c).refetches) :
    failedFetch c d = takeStale c (d.updChan c fun ch => ch.event 1) := by
  unfold failedFetch
  dsimp only
  exact if_neg (by rw [Dev.chan_updChan]; exact Nat.not_lt.mpr h)

/-- The entry that a stale fetch stands for: no descriptor, of USER_TAG 0 (R351). -/
def staleDesc : Desc := { opcode := 0, cflags := 0 }

/-- What becomes of a stale entry: complete, with its status (R351). -/
def staleJob (j : Job) : Job :=
  { j with phase := .done, status := stStaleCommand, nflags := j.nflags ||| 0, links := j.links + 1,
           chainStatus := if j.chainStatus = 0 then stStaleCommand else j.chainStatus }

/-- The digital part with a stale entry passed at HEAD and entered. -/
def staleEntered (c : Nat) (d : Dev) : Dev × Job :=
  (d.fecStep.updChan c Chan.pass).addJob c (d.chan c).seqNext.toNat staleDesc {} none 0

theorem Dev.finishJob_stale (d : Dev) (id : Nat) : d.finishJob id stStaleCommand = d.updJob id staleJob := rfl

theorem takeStale_eq (c : Nat) (d : Dev) : takeStale c d =
    ((staleEntered c d).1.updJob d.nextJob staleJob).updChan c fun ch => { ch.event 0 with state := .halted } := by
  rw [← Dev.finishJob_stale]
  rfl

theorem takeStale_frame (c : Nat) (d : Dev) : ∃ xs js,
    takeStale c d = { d with chans := xs, jobs := js, nextJob := d.nextJob + 1, fecProgress := d.fecProgress + 1 } := by
  obtain ⟨e, he⟩ : ∃ e, staleEntered c d =
      ({ d with chans := e.chans, jobs := e.jobs, nextJob := d.nextJob + 1, fecProgress := d.fecProgress + 1 }, _) :=
    ⟨(staleEntered c d).1, rfl⟩
  rw [takeStale_eq, he]
  exact ⟨_, _, rfl⟩

theorem chan_takeStale (c : Nat) (d : Dev) : (takeStale c d).chan c = { (d.chan c).pass.event 0 with state := .halted } := by
  rw [takeStale_eq, Dev.chan_updChan]
  change ({ ((d.fecStep.updChan c Chan.pass).chan c).event 0 with state := .halted } : Chan) = _
  rw [Dev.chan_updChan]
  rfl

theorem chan_takeStale_other {c k : Nat} (h : k ≠ c) (d : Dev) : (takeStale c d).chan k = d.chan k := by
  rw [takeStale_eq, Dev.chan_updChan_other _ h]
  exact Dev.chan_updChan_other _ h _

theorem takeStale_completes (c : Nat) (d : Dev) : ∃ j ∈ (takeStale c d).jobs, j.id = d.nextJob ∧ j.chan = c ∧
    j.seq = (d.chan c).seqNext.toNat ∧ j.status = stStaleCommand ∧ j.chainStatus = stStaleCommand ∧ j.userTag = 0 ∧
    j.complete = true :=
  ⟨_, Dev.mem_updJob_addJob (d.fecStep.updChan c Chan.pass) c _ staleDesc {} none 0 staleJob, rfl, rfl, rfl, rfl, rfl, rfl, rfl⟩

/-- A fetch that fails ends its turn (R351, R378). -/
theorem dispatchTurn_refetch {s : State} {f : Fetch} (ht : takes s s.dev.rrChan = true) (hgo : goesOn s.dev = true)
    (hbad : fetchOk (s.dev.chan s.dev.rrChan) f.entry = false)
    (hagain : (s.dev.chan s.dev.rrChan).refetches < (s.dev.chan s.dev.rrChan).refetchLimit.toNat) :
    dispatchTurn s.mc [f] s.dev = (failedFetch s.dev.rrChan (fetched s.dev.rrChan f.entry s.dev)).turning false := by
  rw [dispatchTurn_goesOn hgo, serveAll_single hgo, serve_of_takes_bad ht f hbad hagain, if_neg nofun, goesOn_turning,
    Dev.turning_turning]

theorem staleCommand_of_stale {s : State} {c : Nat} {entry : Option Bytes} (ht : takes s c = true)
    (hbad : fetchOk (s.dev.chan c) entry = false) (hlimit : (s.dev.chan c).refetchLimit.toNat ≤ (s.dev.chan c).refetches) :
    staleCommand c entry s.dev = takeStale c ((chargedFetch s.dev c entry).updChan c fun ch => ch.event 1) := by
  obtain ⟨-, hrun, hready, hheld⟩ := (takes_iff ..).mp ht
  rw [← failedFetch_stale (by rw [chan_chargedFetch, chan_chargeLink]; exact hlimit)]
  exact if_pos (by simp [hrun, Dev.mayFetch, hready, hheld, hbad, hlimit])

/-! ### The links of chains (R357, R358) -/

section
variable {d e : Dev} (h : AskOnly d e)
include h

/-- What a device has asked of others changes nothing that it reads. -/
theorem AskOnly.readG_eq (env : Env) (a n : Nat) : e.readG env a n = d.readG env a n := by
  unfold AskOnly at h
  rw [h]
  rfl

theorem AskOnly.linkOk_eq (j : Job) (b : Bytes) : linkOk e j b = linkOk d j b := by
  unfold AskOnly at h
  rw [h]
  rfl

end

theorem Dev.id_of_job {d : Dev} {id : Nat} {j : Job} (h : d.job id = some j) : j.id = id := by
  simpa using List.find?_some h

theorem chainLinkStart_of_read {mc : Mc} {id : Nat} {env : Env} {d : Dev} {j : Job} {b : Bytes} (hj : d.job id = some j)
    (hdue : j.linkDue = true) (hheld : linkHeld d j = false) (hflush : flushDue d j = false)
    (ha : d.addrOk .read false j.desc.next.toNat 64 = true) (hb : d.readG env j.desc.next.toNat 64 = .ok b) :
    chainLinkStart mc id env d = settle mc (presentLink mc (d.askRead j.desc.next.toNat 64) j b env) := by
  have hstep : flushStep d env j = d := if_neg (by simp [hflush])
  rw [chainLinkStart]
  simp only [hj, hdue, hheld, hstep, Bool.not_true, Bool.or_self, Bool.false_eq_true, if_false, if_true]
  simp only [nextLink, ha, (askRead_askOnly ..).readG_eq, hb, Bool.not_true, Bool.false_eq_true, if_false]

section
variable {mc : Mc} {d : Dev} {j : Job} {b : Bytes} {env : Env}

theorem presentLink_of_bad (h : linkOk d j b = false) : presentLink mc d j b env = rejectLink d j.chan j.id stChainInvalid :=
  if_pos (by simp [h])

theorem presentLink_of_reject {st : Status} (h : linkOk d j b = true) (hv : descCheck mc d j.chan (Desc.ofBytes b) env = .reject st) :
    presentLink mc d j b env = rejectLink d j.chan j.id st := by
  unfold presentLink
  simp only [h, hv, Bool.not_true, Bool.false_eq_true, if_false]

theorem presentLink_of_go (h : linkOk d j b = true) (hv : descCheck mc d j.chan (Desc.ofBytes b) env = .go) :
    presentLink mc d j b env =
      startNew mc (enterLink (chargeLink d.fecStep j.chan) j (Desc.ofBytes b) env).2
        (enterLink (chargeLink d.fecStep j.chan) j (Desc.ofBytes b) env).1 := by
  unfold presentLink
  simp only [h, hv, Bool.not_true, Bool.false_eq_true, if_false]

end

theorem chan_rejectLink_status (d : Dev) (c id : Nat) (st : Status) :
    ((rejectLink d c id st).chan c).status = setBit (d.chan c).status 0 := by
  rw [rejectLink, Dev.chan_updChan, Chan.noteReject_status]
  change setBit ((chargeLink d.fecStep c).chan c).status 0 = _
  rw [chan_chargeLink]
  rfl

/-- A chain ended before a link, with its status (R357, R358). -/
def brokenOff (st : Status) (j : Job) : Job :=
  { j with desc := { j.desc with next := 0 }, chainStatus := if j.chainStatus = 0 then st else j.chainStatus }

theorem Dev.job_updChan (d : Dev) (c : Nat) (f : Chan → Chan) (id : Nat) : (d.updChan c f).job id = d.job id := rfl

theorem job_rejectLink {d : Dev} {j : Job} (hj : d.job j.id = some j) (c : Nat) (st : Status) :
    (rejectLink d c j.id st).job j.id = some (brokenOff st j) := by
  have hcharged : (chargeLink d.fecStep c).job j.id = some j := hj
  have hend : endChain (chargeLink d.fecStep c) j.id st = (chargeLink d.fecStep c).updJob j.id (brokenOff st) := rfl
  rw [rejectLink, Dev.job_updChan, hend, Dev.job_updJob (f := brokenOff st) fun _ => rfl, hcharged, Option.map_some]

end Sys2Proof.Machine

namespace Sys2Proof.Proofs
open Sys2Proof.Machine Sys2Proof.Safety

/-- Settles O25: the fold over the 64 channels moves at the first eligible one (`foldl_range_once`); a fetch in a turn is the descriptor
command of its entry, or a failed fetch. -/
theorem turnsAndStaleEntries : Obligations.TurnsAndStaleEntries := by
  refine ⟨⟨fun k s hl hturn hk hbefore => ?_, fun i e b s u h hturn hrr hleft hok hdesc hu => ?_,
    fun f s ht hturn hleft hbad hagain => ?_, fun fs s hl hturn hnone => ?_⟩, fun c entry s ht hbad hlimit => ?_⟩
  · intro c slice he hdebt
    refine onDev_next hl ?_
    have hslice : slice < 2 ^ 16 := max_lt (s.dev.chan c).slice.isLt (by decide)
    have hgo := goesOn_turnOpened (n := slice - (s.dev.chan c).debt.toNat) he (by omega) (by omega)
    have hopen := openTurn_of_next (nextTurn_first hk hbefore he hdebt)
    have hstill : goesOn s.dev = false := by simp [goesOn, hturn]
    simp only [dispatchTurn_eq, hstill, Dev.turning_self hturn, hopen, serveAll, ite_self, Bool.false_eq_true, if_false]
    exact Dev.turning_self hgo.symm
  · obtain ⟨hi, hf, ht, hv⟩ := id h
    have hgo := goesOn_of_takes (hrr ▸ ht) hturn (hrr ▸ hleft)
    have hserve : serve s.mc s.dev.rrChan ⟨some b, e.env⟩ s.dev = (u.dev, .taken) := by
      rw [hrr, serve_of_takes_ok ht ⟨some b, e.env⟩ rfl hok, hdesc, takeEntry_of_dispatched h hu]
    refine onDev_next ((takes_iff ..).mp ht).1 ?_
    rw [dispatchTurn_goesOn hgo, serveAll_single hgo, hserve]
    rfl
  · have hfetched : ∀ k, (fetched s.dev.rrChan f.entry s.dev).chan k = s.dev.chan k := fun k => chan_fetched ..
    have hlow := hagain
    rw [← hfetched] at hlow
    refine ⟨_, onDev_next ((takes_iff ..).mp ht).1 (dispatchTurn_refetch ht (goesOn_of_takes ht hturn hleft) hbad hagain), ?_,
      ?_, fun k hk => ?_⟩
    · obtain ⟨a, ha⟩ := fetched_frame s.dev.rrChan f.entry s.dev
      rw [failedFetch_again_frame hlow, ha]
      rfl
    · exact (Dev.chan_turning ..).trans (by rw [chan_failedFetch_again hlow, hfetched])
    · exact (Dev.chan_turning ..).trans (by rw [chan_failedFetch_again_other hlow hk, hfetched])
  · refine (onDev_next hl ?_).trans rfl
    have hstill : goesOn s.dev = false := by simp [goesOn, hturn]
    simp only [dispatchTurn_eq, hstill, Dev.turning_self hturn, openTurn_of_none (nextTurn_none hnone), hturn, Bool.false_eq_true, if_false]
  · intro ch
    have hchan : ((chargedFetch s.dev c.val entry).updChan c.val fun ch => ch.event 1).chan c.val =
        ((chargeLink s.dev c.val).chan c.val).event 1 := by rw [Dev.chan_updChan, chan_chargedFetch]
    obtain ⟨a, xs, hframe⟩ := chargedFetch_frame s.dev c.val entry
    obtain ⟨j, hj, hid, hc, hs, hrest⟩ := takeStale_completes c.val ((chargedFetch s.dev c.val entry).updChan c.val fun ch => ch.event 1)
    refine ⟨_, onDev_next ((takes_iff ..).mp ht).1 (staleCommand_of_stale ht hbad hlimit), ?_, fun k hk => ?_, ?_,
      j, hj, hid.trans ?_, hc, hs.trans ?_, hrest⟩
    · obtain ⟨ys, js, hstale⟩ := takeStale_frame c.val ((chargedFetch s.dev c.val entry).updChan c.val fun ch => ch.event 1)
      rw [hstale, hframe]
      rfl
    · exact (chan_takeStale_other hk _).trans ((Dev.chan_updChan_other _ hk _).trans (chan_chargedFetch_other hk entry))
    · exact (chan_takeStale ..).trans (by rw [hchan])
    · rw [hframe]
      rfl
    · rw [hchan, chan_chargeLink]
      rfl

/-- Settles O26: the link is presented with the bytes read (`chainLinkStart_of_read`), and its verdict decides. -/
theorem chainLinks : Obligations.ChainLinks := by
  intro id env s j b hl hj hdue hheld hflush ha hb asked d
  obtain rfl := Dev.id_of_job hj
  have hask : AskOnly s.dev asked := askRead_askOnly ..
  have hexec := chainLinkStart_of_read (mc := s.mc) hj hdue hheld hflush ha hb
  have hown : asked.job j.id = some j := by
    rw [hask]
    exact hj
  refine ⟨fun hbad => onDev_next hl ?_, fun st hok hv => onDev_next hl ?_, fun hok hv => ⟨onDev_next hl ?_, rfl, rfl, rfl, rfl, rfl, rfl⟩,
    fun st => ⟨job_rejectLink hown .., (chan_rejectLink_status ..).trans ?_, ?_⟩⟩
  · rw [hexec, presentLink_of_bad (by rw [hask.linkOk_eq]; exact hbad)]
  · rw [hexec, presentLink_of_reject (by rw [hask.linkOk_eq]; exact hok) hv]
  · rw [hexec, presentLink_of_go (by rw [hask.linkOk_eq]; exact hok) hv]
  · rw [hask]
    rfl
  · change asked.fecProgress + 1 = _
    rw [hask]

end Sys2Proof.Proofs
end

section
/-! SUPPORT. Work toward the host: what each write, message, record and blocked completion changes of a device. -/

namespace Sys2Proof.Machine
open Sys2Proof.Safety

/-! ### What work toward the host keeps -/

/-- Of the host link, only what is kept, withheld or stored and the translation cache differ. -/
def HostKept (h k : HostLink) : Prop :=
  k = { h with heldWrites := k.heldWrites, atc := k.atc, msixPending := k.msixPending, ucs := k.ucs, ucsHigh := k.ucsHigh }

/-- Work toward the host, its writes meeting the surroundings `env`: what differs after it is the host link, the error block, the channels,
the dispatched descriptors, the copy engines and the output. -/
structure HostWork (env : Env) (d e : Dev) : Prop where
  frame : e = { d with host := e.host, out := e.out, err := e.err, chans := e.chans, jobs := e.jobs, engines := e.engines }
  host : HostKept d.host e.host
  heldWrites : d.host.held = false → e.host.heldWrites = d.host.heldWrites
  ids : e.jobs.map (·.id) = d.jobs.map (·.id)
  progress : ∀ k, (e.chan k).progress = (d.chan k).progress
  states : ∀ k, (e.chan k).state = (d.chan k).state ∨ env.deny ≠ [] ∧ (e.chan k).state = .blocked

namespace HostWork
variable {env : Env} {d e f : Dev}

theorem refl (d : Dev) : HostWork env d d := ⟨rfl, rfl, fun _ => rfl, rfl, fun _ => rfl, fun _ => .inl rfl⟩

theorem held_eq (h : HostWork env d e) : e.host.held = d.host.held := by rw [show e.host = _ from h.host]

theorem trans (h : HostWork env d e) (k : HostWork env e f) : HostWork env d f where
  frame := by rw [k.frame, h.frame]
  host := by
    unfold HostKept
    rw [show f.host = _ from k.host, show e.host = _ from h.host]
  heldWrites hd := (k.heldWrites (h.held_eq.trans hd)).trans (h.heldWrites hd)
  ids := k.ids.trans h.ids
  progress c := (k.progress c).trans (h.progress c)
  states c := (k.states c).elim (fun hk => hk ▸ h.states c) .inr

theorem foldl {α : Type} {g : Dev → α → Dev} (h : ∀ d x, HostWork env d (g d x)) (xs : List α) (d : Dev) :
    HostWork env d (xs.foldl g d) := by
  induction xs generalizing d with
  | nil => exact refl d
  | cons x xs ih => exact (h d x).trans (ih _)

/-- Work that leaves the channels and the descriptors as they are. -/
theorem of_host (hf : e = { d with host := e.host, out := e.out, err := e.err, engines := e.engines }) (hh : HostKept d.host e.host)
    (hw : d.host.held = false → e.host.heldWrites = d.host.heldWrites) : HostWork env d e := by
  have hchan : ∀ k, e.chan k = d.chan k := fun k => by rw [hf]; rfl
  refine ⟨by rw [hf], hh, hw, by rw [hf], fun k => by rw [hchan], fun k => .inl (by rw [hchan])⟩

theorem of_updChan {c : Nat} {g : Chan → Chan} (hp : (g (d.chan c)).progress = (d.chan c).progress)
    (hs : (g (d.chan c)).state = (d.chan c).state ∨ env.deny ≠ [] ∧ (g (d.chan c)).state = .blocked) :
    HostWork env d (d.updChan c g) := by
  refine ⟨rfl, rfl, fun _ => rfl, rfl, fun k => ?_, fun k => ?_⟩
  · obtain rfl | hk := eq_or_ne k c
    · rw [Dev.chan_updChan, hp]
    · rw [Dev.chan_updChan_other _ hk]
  · obtain rfl | hk := eq_or_ne k c
    · rwa [Dev.chan_updChan]
    · exact .inl (by rw [Dev.chan_updChan_other _ hk])

theorem of_updJob {id : Nat} {g : Job → Job} (hg : ∀ j, (g j).id = j.id) : HostWork env d (d.updJob id g) := by
  refine ⟨rfl, rfl, fun _ => rfl, ?_, fun _ => rfl, fun _ => .inl rfl⟩
  rw [Dev.updJob, List.map_map]
  refine List.map_congr_left fun j _ => ?_
  change (if j.id = id then g j else j).id = j.id
  split
  · exact hg j
  · rfl

end HostWork

/-! ### Messages, records and reads -/

section
variable (env : Env) (d : Dev)

theorem Dev.toHost_work (o : HostOut) : HostWork env d (d.toHost o) := by
  refine .of_host (by rw [Dev.toHost_frame]) (by rw [Dev.toHost_host]; rfl) fun hh => ?_
  unfold Dev.toHost
  split
  · rfl
  · rw [if_neg (by simp [hh])]
    change (d.cachePages o.pages).host.heldWrites = d.host.heldWrites
    rw [d.cachePages_frame o.pages]

theorem Dev.msix_work (v : Nat) : HostWork env d (d.msix v) := by
  unfold Dev.msix
  split
  · exact .of_host rfl rfl fun _ => rfl
  · exact d.toHost_work env _

theorem Dev.errVector_work : HostWork env d d.errVector := d.msix_work env _

theorem Dev.report_work (r : ErrRec) : HostWork env d (d.report r) := by
  unfold Dev.report
  dsimp only
  split
  · split
    · refine HostWork.trans ?_ (Dev.errVector_work env _)
      exact .of_host rfl rfl fun _ => rfl
    · exact .of_host rfl rfl fun _ => rfl
  · exact .of_host rfl rfl fun _ => rfl

theorem flushReads_work (l : List (Nat × Nat)) : HostWork env d (flushReads d l) := by
  have hf := flushReads_frame l d
  exact .of_host (by rw [hf]) (by rw [hf]; rfl) fun _ => by rw [hf]

theorem ceFlush_work (e : Nat) : HostWork env d (ceFlush d e) := by
  unfold ceFlush
  split
  · exact .refl d
  · exact flushReads_work env d _

theorem emit_work (o : Out) : HostWork env d (d.emit o) := .of_host rfl rfl fun _ => rfl

theorem countAccessFault_work (c : Nat) (st : Status) : HostWork env d (d.countAccessFault c st) := by
  unfold Dev.countAccessFault
  split
  · exact .of_updChan rfl (.inl rfl)
  · exact .refl d

theorem accessFault_work (j : Job) : HostWork env d (accessFault d j) :=
  (countAccessFault_work env d j.chan _).trans (.of_updJob fun _ => rfl)

theorem noteLast_work (job a : Nat) : HostWork env d (noteLast d job a) := .of_updJob fun _ => rfl

theorem writeLog_work (j : Job) (a : Nat) (b : Bytes) : HostWork env d (writeLog d j a b) :=
  (d.toHost_work env _).trans (noteLast_work env ..)

theorem writeHost_work (job e a : Nat) (b : Bytes) (relaxed : Bool) (tc : Nat) : HostWork env d (writeHost d env job e a b relaxed tc).1 := by
  unfold writeHost
  dsimp only
  split
  · exact .refl d
  · exact (d.toHost_work env _).trans (.of_host rfl rfl fun _ => rfl)

theorem noteMoved_work (job e moved : Nat) : HostWork env d (noteMoved d job e moved) :=
  (HostWork.of_host (e := d.updEngine e fun g => { g with progress := g.progress + BitVec.ofNat 64 ((moved + 4095) / 4096) })
    rfl rfl fun _ => rfl).trans (.of_updJob fun _ => rfl)

/-! ### Records, words and blocked channels (R393, R404, R408) -/

theorem storeRecord_work (c seq : Nat) (fields : Bytes) : HostWork env d (storeRecord d c seq fields) := .of_host rfl rfl fun _ => rfl

theorem advanceWord_frame (fuel : Nat) (c : Chan) :
    advanceWord fuel c = { c with cw := (advanceWord fuel c).cw, cwDone := (advanceWord fuel c).cwDone } := by
  induction fuel generalizing c with
  | zero => rfl
  | succ fuel ih =>
    unfold advanceWord
    dsimp only
    split
    · rw [ih]
    · rfl

/-- The channel of a record written into its slot, or discarded where there is no ring (R390, R393). -/
def Chan.recorded (ch : Chan) (seq : Nat) : Chan :=
  ({ ch with cqWritten := if ch.cqLog2 = 0 then ch.cqWritten else ch.cqWritten + 1, owed := ch.owed - 1 }).noteDone seq

theorem Chan.recorded_frame (ch : Chan) (seq : Nat) : ch.recorded seq = { ch with
    cqWritten := if ch.cqLog2 = 0 then ch.cqWritten else ch.cqWritten + 1, owed := ch.owed - 1
    cw := (ch.recorded seq).cw, cwDone := (ch.recorded seq).cwDone } := advanceWord_frame ..

theorem writeRecord_eq (c seq : Nat) (fields : Bytes) (stored : Bool) : writeRecord d c seq fields stored =
    (if (d.chan c).cqLog2 = 0 then d else d.toHost (.write (d.chan c).slotAddr (recordBytes (d.chan c) fields stored))).updChan c
      fun ch => ch.recorded seq := rfl

theorem Dev.chan_toHost (o : HostOut) (c : Nat) : (d.toHost o).chan c = d.chan c := by
  rw [Dev.toHost_frame]
  rfl

theorem chan_writeRecord (c seq : Nat) (fields : Bytes) (stored : Bool) :
    (writeRecord d c seq fields stored).chan c = (d.chan c).recorded seq := by
  rw [writeRecord_eq, Dev.chan_updChan]
  split
  · rfl
  · rw [Dev.chan_toHost]

theorem writeRecord_work (c seq : Nat) (fields : Bytes) (stored : Bool) : HostWork env d (writeRecord d c seq fields stored) := by
  have hch : ∀ ch : Chan, (ch.recorded seq).progress = ch.progress ∧ (ch.recorded seq).state = ch.state := fun ch => by
    rw [Chan.recorded_frame]
    exact ⟨rfl, rfl⟩
  rw [writeRecord_eq]
  split
  · exact .of_updChan (hch _).1 (.inl (hch _).2)
  · exact (d.toHost_work env _).trans (.of_updChan (hch _).1 (.inl (hch _).2))

theorem writeWord_work (c : Nat) : HostWork env d (writeWord d c) := by
  unfold writeWord
  dsimp only
  split
  · exact .refl d
  · exact d.toHost_work env _

end

/-- A channel whose completion write failed (R404). -/
def Chan.block (ch : Chan) (kind addr : Nat) : Chan :=
  { ch with
    blocked := true
    blockKind := if ch.blocked then ch.blockKind else kind
    blockAddr := if ch.blocked then ch.blockAddr else BitVec.ofNat 64 addr
    before := if ch.state = .running ∨ ch.state = .waiting then ch.state else ch.before
    state := if ch.state = .running ∨ ch.state = .waiting then .blocked else ch.state }

/-- The error record of a blocked channel (R404). -/
def blockRecord (c kind addr seq : Nat) : ErrRec :=
  { errRec stCompletionBlocked 10 4 6 c with chan := c, addrHost := true, address := addr, descSeq := seq, detail := toLe 1 kind }

/-- The first failure is captured (R404). -/
theorem Chan.block_capture (ch : Chan) (kind addr : Nat) :
    (if ch.blocked then ch else { ch with blocked := true, blockKind := kind, blockAddr := BitVec.ofNat 64 addr }) =
      { ch with
        blocked := true, blockKind := if ch.blocked then ch.blockKind else kind
        blockAddr := if ch.blocked then ch.blockAddr else BitVec.ofNat 64 addr } := by
  cases hb : ch.blocked
  · rfl
  · rw [if_pos rfl, if_pos rfl, if_pos rfl, ← hb]

/-- A channel blocks from RUNNING and from WAITING (R404). -/
theorem Chan.block_state (ch : Chan) :
    (match ch.state with
      | .running => { ch with before := .running, state := .blocked }
      | .waiting => { ch with before := .waiting, state := .blocked }
      | _ => ch) = { ch with
        before := if ch.state = .running ∨ ch.state = .waiting then ch.state else ch.before
        state := if ch.state = .running ∨ ch.state = .waiting then .blocked else ch.state } := by
  by_cases h : ch.state = .running ∨ ch.state = .waiting
  · rw [if_pos h, if_pos h]
    obtain h | h := h <;> rw [h]
  · rw [if_neg h, if_neg h]
    split
    · exact absurd (.inl ‹_›) h
    · exact absurd (.inr ‹_›) h
    · rfl

theorem blockChannel_eq (d : Dev) (c kind addr seq : Nat) : blockChannel d c kind addr seq =
    ((d.updChan c fun ch => ch.block kind addr).report (blockRecord c kind addr seq)).errVector := by
  unfold blockChannel
  dsimp only
  rw [Dev.updChan_congr (g := fun ch => ch.block kind addr)]
  · rfl
  · rw [Chan.block_capture]
    exact Chan.block_state _

theorem denied_of_hostDenied {d : Dev} {env : Env} {a n : Nat} (h : hostDenied d env a n = true) : env.deny ≠ [] := by
  rintro hnil
  simp [hostDenied, hnil] at h

theorem hostDenied_of_nil {env : Env} (h : env.deny = []) (d : Dev) (a n : Nat) : hostDenied d env a n = false := by
  simp [hostDenied, h]

theorem blockChannel_work {env : Env} (hd : env.deny ≠ []) (d : Dev) (c kind addr seq : Nat) :
    HostWork env d (blockChannel d c kind addr seq) := by
  rw [blockChannel_eq]
  refine (HostWork.trans (HostWork.of_updChan rfl ?_) (Dev.report_work env ..)).trans (Dev.errVector_work env _)
  change (if _ then _ else _) = _ ∨ _ ∧ (if _ then _ else _) = _
  split
  · exact .inr ⟨hd, rfl⟩
  · exact .inl rfl

theorem Dev.chan_report (d : Dev) (r : ErrRec) (c : Nat) : (d.report r).chan c = d.chan c := by
  rw [Dev.report_frame]
  rfl

theorem Dev.chan_msix (d : Dev) (v c : Nat) : (d.msix v).chan c = d.chan c := by
  rw [Dev.msix_frame]
  rfl

theorem chan_blockChannel (d : Dev) (c kind addr seq : Nat) : (blockChannel d c kind addr seq).chan c = (d.chan c).block kind addr := by
  rw [blockChannel_eq]
  exact (Dev.chan_msix ..).trans (by rw [Dev.chan_report, Dev.chan_updChan])

theorem chan_blockChannel_other {c k : Nat} (h : k ≠ c) (d : Dev) (kind addr seq : Nat) :
    (blockChannel d c kind addr seq).chan k = d.chan k := by
  rw [blockChannel_eq]
  exact (Dev.chan_msix ..).trans (by rw [Dev.chan_report, Dev.chan_updChan_other _ h])

/-! ### Records delivered and signals (R394, R404, R405) -/

theorem peerSignal_work (env : Env) (d : Dev) (c seq : Nat) (cf : BitVec 16) (st : Status) :
    HostWork env d (peerSignal d env c seq cf st) := by
  unfold peerSignal
  dsimp only
  split
  · split
    · exact .of_updChan rfl (.inl rfl)
    · exact d.toHost_work env _
  · exact .refl d

theorem signals_work (env : Env) (d : Dev) (c seq : Nat) (cf : BitVec 16) (st : Status) :
    HostWork env d (signals d env c seq cf st) := by
  unfold signals
  dsimp only
  split
  · exact (d.msix_work env _).trans (peerSignal_work ..)
  · exact peerSignal_work ..

theorem deliverRecord_work (env : Env) (d : Dev) (c seq : Nat) (fields : Bytes) :
    HostWork env d (deliverRecord d env c seq fields) := by
  have hwrite := writeRecord_work env d c seq fields false
  unfold deliverRecord
  dsimp only
  split
  · exact storeRecord_work ..
  · split
    next hden =>
      obtain ⟨-, hden⟩ := (Bool.and_eq_true ..).mp hden
      exact (storeRecord_work ..).trans (blockChannel_work (denied_of_hostDenied hden) ..)
    · split
      · exact hwrite
      · split
        · exact hwrite
        · split
          next hden =>
            obtain ⟨-, hden⟩ := (Bool.and_eq_true ..).mp hden
            exact hwrite.trans (blockChannel_work (denied_of_hostDenied hden) ..)
          · exact hwrite.trans (writeWord_work ..)

theorem blockAgain_work {env : Env} (hd : env.deny ≠ []) (d : Dev) (c kind addr : Nat) : HostWork env d (blockAgain d c kind addr) :=
  (HostWork.of_updChan (g := fun ch => { ch with blocked := false }) rfl (.inl rfl)).trans (blockChannel_work hd ..)

theorem deliverStored_work (env : Env) (c : Nat) (rs : List Stored) (d : Dev) : HostWork env d (deliverStored env c rs d).1 := by
  induction rs generalizing d with
  | nil => exact .refl d
  | cons r rs ih =>
    unfold deliverStored
    dsimp only
    split
    · exact .refl d
    · refine HostWork.trans (HostWork.trans ?_ (writeRecord_work env _ c r.seq r.fields true)) (ih _)
      exact .of_host rfl rfl fun _ => rfl

/-- A failed delivery had a write that the host denied. -/
theorem denied_of_deliverStored {env : Env} {c : Nat} {rs : List Stored} {d : Dev} (h : (deliverStored env c rs d).2 = false) :
    env.deny ≠ [] := by
  induction rs generalizing d with
  | nil => exact absurd h (by simp [deliverStored])
  | cons r rs ih =>
    unfold deliverStored at h
    dsimp only at h
    split at h
    next hden => exact denied_of_hostDenied hden
    · exact ih h

theorem deliverChannel_work (env : Env) (d : Dev) (c : Nat) : HostWork env d (deliverChannel env d c).1 := by
  have hstored := deliverStored_work env c (d.storedOf c) d
  unfold deliverChannel
  dsimp only
  split
  next hfail =>
    exact hstored.trans (blockAgain_work (denied_of_deliverStored (by simpa using hfail)) ..)
  · split
    next hden =>
      obtain ⟨-, hden⟩ := (Bool.and_eq_true ..).mp hden
      exact hstored.trans (blockAgain_work (denied_of_hostDenied hden) ..)
    · exact hstored.trans (writeWord_work ..)

/-! ### A descriptor completes (R388, R394) -/

/-- A descriptor gone from the dispatched ones, as its ring entry completes. -/
def entryDropped (d : Dev) (j : Job) : Dev :=
  (d.dropJob j.id).updChan j.chan fun c => { c.noteStatus j.noted (finalStatus d j).1 with progress := c.progress + 1 }

/-- The record of a descriptor, but for what its ring position gives (R391). -/
def fieldsOf (d : Dev) (j : Job) : Bytes :=
  recordFields j.seq j.userTag (finalStatus d j).1 (finalStatus d j).2 (rflagsOf d j (finalStatus d j).1) (details d j).1 (details d j).2

theorem completeEntry_eq (d : Dev) (env : Env) (j : Job) : completeEntry d env j =
    signals (deliverRecord (entryDropped d j) env j.chan j.seq (fieldsOf d j)) env j.chan j.seq j.cflags (finalStatus d j).1 := rfl

theorem completeEntry_work (d : Dev) (env : Env) (j : Job) : HostWork env (entryDropped d j) (completeEntry d env j) := by
  rw [completeEntry_eq]
  exact (deliverRecord_work ..).trans (signals_work ..)

/-- A descriptor gone from the dispatched ones, its status given to its launch. -/
def nodeDropped (d : Dev) (j : Job) (l : Nat) : Dev :=
  (({ d with launches := d.launches.map fun (x : Launch) =>
      if x.id = l then x.noteStatus j.node j.chainStatus j.nflags else x } : Dev).dropJob j.id).updChan j.chan
    fun c => c.noteStatus j.noted j.chainStatus

theorem completeNode_eq (d : Dev) (env : Env) (j : Job) (l : Nat) : completeNode d env j l =
    signals (nodeDropped d j l) env j.chan j.seq j.cflags j.chainStatus := rfl

theorem Chan.noteStatus_kept (ch : Chan) (noted : Bool) (st : Status) :
    (ch.noteStatus noted st).progress = ch.progress ∧ (ch.noteStatus noted st).cqWritten = ch.cqWritten := by
  unfold Chan.noteStatus
  split <;> exact ⟨rfl, rfl⟩

/-- Work toward the host after a descriptor has left brings none back. -/
theorem HostWork.ids_ne {env : Env} {d e f : Dev} {id : Nat} (h : HostWork env e f) (hj : e.jobs = (d.dropJob id).jobs) :
    ∀ k ∈ f.jobs, k.id ≠ id := by
  intro k hk
  have hmem : k.id ∈ e.jobs.map (·.id) := h.ids ▸ List.mem_map_of_mem hk
  rw [hj] at hmem
  obtain ⟨m, hm, hid⟩ := List.mem_map.mp hmem
  exact hid ▸ of_decide_eq_true (List.mem_filter.mp hm).2

theorem HostWork.mem_cores {env : Env} {d e : Dev} (h : HostWork env d e) : e.mem = d.mem ∧ e.cores = d.cores := by
  rw [h.frame]
  exact ⟨rfl, rfl⟩

/-- A signal that is dropped is counted in its channel; nothing else of a channel changes (R396). -/
theorem chan_signals (d : Dev) (env : Env) (c seq : Nat) (cf : BitVec 16) (st : Status) (k : Nat) :
    ∃ n, (signals d env c seq cf st).chan k = { d.chan k with hostCnt := n } := by
  have hpeer : ∀ e : Dev, ∃ n, (peerSignal e env c seq cf st).chan k = { e.chan k with hostCnt := n } := fun e => by
    unfold peerSignal
    dsimp only
    split
    · split
      · obtain rfl | hk := eq_or_ne k c
        · exact ⟨_, Dev.chan_updChan ..⟩
        · exact ⟨_, Dev.chan_updChan_other _ hk _⟩
      · exact ⟨_, Dev.chan_toHost ..⟩
    · exact ⟨_, rfl⟩
  unfold signals
  dsimp only
  split
  · obtain ⟨n, hn⟩ := hpeer (d.msix ((d.chan c).vector c))
    exact ⟨n, hn.trans (by rw [Dev.chan_msix])⟩
  · exact hpeer d

section
variable {d : Dev} {env : Env} {j : Job} (hj : d.job j.id = some j) (hc : d.jobComplete j = true) (hheld : completionHeld d j = false)
  (hflush : flushDue d j = false)
include hj hc hheld hflush

theorem completeJob_of_entry (hl : j.launch = none) : completeJob j.id env d = recordOrKeep d env j := by
  have hstep : flushStep d env j = d := if_neg (by simp [hflush])
  unfold completeJob
  simp only [hj, hc, hheld, hstep, hl, Bool.not_false, Bool.and_self, if_true]

theorem completeJob_of_node {l : Nat} (hl : j.launch = some l) : completeJob j.id env d = completeNode d env j l := by
  have hstep : flushStep d env j = d := if_neg (by simp [hflush])
  unfold completeJob
  simp only [hj, hc, hheld, hstep, hl, Bool.not_false, Bool.and_self, if_true]

end

theorem recordOrKeep_of_room {d : Dev} {j : Job} (h : storeFull d j = false) (env : Env) :
    recordOrKeep d env j = completeEntry d env j := if_neg (by simp [h])

theorem exec_descriptorComplete {s : State} (hl : s.live = true) (id : Nat) (env : Env) :
    exec (.descriptorComplete id env) s =
      .next (withDev s (leaveDebug (settle s.mc (completeJob id env (settledEnd s.dev id))))) := onDev_live hl

/-! ### Flushes (R400) -/

/-- A descriptor whose zero-length reads have been made. -/
def flushedJob (j : Job) : Job := { j with flushDone := true, flushed := true }

theorem flushStep_of_due {d : Dev} {env : Env} {j : Job} (h : flushDue d j = true) (hn : env.deny = []) :
    flushStep d env j = (flushReads d (flushAddrs d j)).updJob j.id flushedJob := by
  have hall : (flushAddrs d j).takeWhile (fun p => !hostDenied d env p.2 1) = flushAddrs d j :=
    List.takeWhile_eq_self_iff.mpr fun p _ => by simp [hostDenied_of_nil hn]
  have hsome : (flushAddrs d j).isEmpty = false := by
    simp only [flushDue, Bool.and_eq_true, Bool.not_eq_true'] at h
    exact h.2
  unfold flushStep
  simp only [h, hall, hsome, if_true, Nat.lt_irrefl, if_false, Bool.not_false, Bool.or_true]
  rfl

/-! ### The record's place (R390, R391) -/

section
variable {d : Dev} {env : Env} {c : Nat}

theorem deliverRecord_of_ring (hh : d.host.held = false) (hb : (d.chan c).blocked = false)
    (hw : (d.chan c).cwAddr = 0) (hd : hostDenied d env (d.chan c).slotAddr 32 = false) (seq : Nat)
    (fields : Bytes) : deliverRecord d env c seq fields = writeRecord d c seq fields false := by
  have hword : ((writeRecord d c seq fields false).chan c).cwAddr = 0 := by
    rw [chan_writeRecord, Chan.recorded_frame]
    exact hw
  unfold deliverRecord
  simp only [hb, hh, hd, hw, Bool.or_self, Bool.and_false, Bool.false_eq_true, if_false]
  split
  · rfl
  · simp [writeWord, hword]

theorem deliverRecord_of_store (hr : (d.chan c).cqLog2 ≠ 0) (hb : ((d.chan c).blocked || d.host.held) = true) (seq : Nat) (fields : Bytes) :
    deliverRecord d env c seq fields = storeRecord d c seq fields := if_pos (by simpa [hb] using hr)

end

/-! ### The bytes of a record (R5, R391) -/

theorem le_toLe (n v : Nat) : le (toLe n v) = v % 256 ^ n := by
  induction n generalizing v with
  | zero => simp [toLe, le, Nat.mod_one]
  | succ n ih =>
    have hpow : 256 ^ (n + 1) = 256 * 256 ^ n := Nat.pow_succ'
    rw [toLe, le, ih, BitVec.toNat_ofNat, hpow, Nat.mod_mul]

/-- A field that lies where its bytes were put. -/
theorem field_mid (a b : Bytes) {o : Nat} (ho : a.length = o) (n v : Nat) : field (a ++ (toLe n v ++ b)) o n = v % 256 ^ n := by
  have htake : ((a ++ (toLe n v ++ b)).drop o).take n = toLe n v := by
    rw [← ho, List.drop_left, List.take_left' (length_toLe n v)]
  rw [field, slice, htake, length_toLe, Nat.sub_self, List.replicate_zero, List.append_nil, le_toLe]

theorem overlay_mid (a x b y : Bytes) {o : Nat} (ho : a.length = o) (hxy : x.length = y.length) :
    overlay (a ++ (x ++ b)) o y = a ++ (y ++ b) := by
  have hdrop : (a ++ (x ++ b)).drop (o + y.length) = b := by
    rw [← List.append_assoc]
    exact List.drop_left' (by rw [List.length_append, ho, hxy])
  rw [overlay, hdrop, List.take_left' ho, List.append_assoc]

theorem length_recordFields (seq tag : Nat) (st : Status) (nf : NFlags) (rf d0 d1 : Nat) :
    (recordFields seq tag st nf rf d0 d1).length = 28 := by
  simp [recordFields, length_toLe]

/-- RFLAGS laid over a record's bytes. -/
theorem overlay_recordFields (seq tag : Nat) (st : Status) (nf : NFlags) (rf r d0 d1 : Nat) :
    overlay (recordFields seq tag st nf rf d0 d1) 0x0F (toLe 1 r) = recordFields seq tag st nf r d0 d1 := by
  have h := overlay_mid (toLe 8 seq ++ toLe 4 tag ++ toLe 2 st.toNat ++ toLe 1 nf.toNat) (toLe 1 rf) (toLe 8 d0 ++ toLe 4 d1) (toLe 1 r)
    (o := 0x0F) (by simp [length_toLe]) (by simp [length_toLe])
  simpa [recordFields] using h

section
variable (seq tag : Nat) (st : Status) (nf : NFlags) (rf d0 d1 : Nat) (t : Bytes)

/-- What the fields of a record's first 16 bytes hold. -/
theorem field_recordFields :
    field (recordFields seq tag st nf rf d0 d1 ++ t) 0 8 = seq % 256 ^ 8 ∧
    field (recordFields seq tag st nf rf d0 d1 ++ t) 8 4 = tag % 256 ^ 4 ∧
    field (recordFields seq tag st nf rf d0 d1 ++ t) 12 2 = st.toNat % 256 ^ 2 ∧
    field (recordFields seq tag st nf rf d0 d1 ++ t) 14 1 = nf.toNat % 256 ^ 1 ∧
    field (recordFields seq tag st nf rf d0 d1 ++ t) 15 1 = rf % 256 ^ 1 := by
  refine ⟨?_, ?_, ?_, ?_, ?_⟩
  · simpa [recordFields] using field_mid [] (toLe 4 tag ++ toLe 2 st.toNat ++ toLe 1 nf.toNat ++ toLe 1 rf ++ toLe 8 d0 ++ toLe 4 d1 ++ t) rfl 8 seq
  · simpa [recordFields] using field_mid (toLe 8 seq) (toLe 2 st.toNat ++ toLe 1 nf.toNat ++ toLe 1 rf ++ toLe 8 d0 ++ toLe 4 d1 ++ t)
      (o := 8) (by simp [length_toLe]) 4 tag
  · simpa [recordFields] using field_mid (toLe 8 seq ++ toLe 4 tag) (toLe 1 nf.toNat ++ toLe 1 rf ++ toLe 8 d0 ++ toLe 4 d1 ++ t)
      (o := 12) (by simp [length_toLe]) 2 st.toNat
  · simpa [recordFields] using field_mid (toLe 8 seq ++ toLe 4 tag ++ toLe 2 st.toNat) (toLe 1 rf ++ toLe 8 d0 ++ toLe 4 d1 ++ t)
      (o := 14) (by simp [length_toLe]) 1 nf.toNat
  · simpa [recordFields] using field_mid (toLe 8 seq ++ toLe 4 tag ++ toLe 2 st.toNat ++ toLe 1 nf.toNat) (toLe 8 d0 ++ toLe 4 d1 ++ t)
      (o := 15) (by simp [length_toLe]) 1 rf

end

theorem crcBit_lt {c : Nat} (h : c < 2 ^ 32) : crcBit c < 2 ^ 32 := by
  refine Nat.xor_lt_two_pow (by omega) ?_
  have := Nat.mod_lt c (by decide : 0 < 2)
  omega

theorem crc32c_lt (b : Bytes) : crc32c b < 2 ^ 32 := by
  refine Nat.xor_lt_two_pow ?_ (by decide)
  refine List.foldlRecOn (motive := (· < 2 ^ 32)) b crcByte (by decide) fun c hc x _ => ?_
  have hx : c ^^^ x.toNat < 2 ^ 32 := Nat.xor_lt_two_pow hc (lt_trans x.isLt (by decide))
  exact crcBit_lt (crcBit_lt (crcBit_lt (crcBit_lt (crcBit_lt (crcBit_lt (crcBit_lt (crcBit_lt hx)))))))

/-- The PHASE and FROM_STORE bits that a record's place adds to its RFLAGS (R389, R391). -/
def placeFlags (c : Chan) (stored : Bool) : Nat := b2n (!bit c.cqWritten.toNat c.cqLog2.toNat) + 32 * b2n stored

theorem recordBytes_eq (c : Chan) (seq tag : Nat) (st : Status) (nf : NFlags) {rf : Nat} (hrf : rf < 32) (d0 d1 : Nat) (stored : Bool) :
    recordBytes c (recordFields seq tag st nf rf d0 d1) stored =
      recordFields seq tag st nf (rf + placeFlags c stored) d0 d1 ++
        toLe 4 (crc32c (recordFields seq tag st nf (rf + placeFlags c stored) d0 d1)) := by
  have hfield : field (recordFields seq tag st nf rf d0 d1) 0x0F 1 = rf := by
    obtain ⟨-, -, -, -, h⟩ := field_recordFields seq tag st nf rf d0 d1 []
    rwa [List.append_nil, Nat.mod_eq_of_lt (by omega)] at h
  have hflags : rf + (if bit c.cqWritten.toNat c.cqLog2.toNat then 0 else 1) + (if stored then 32 else 0) = rf + placeFlags c stored := by
    unfold placeFlags
    cases bit c.cqWritten.toNat c.cqLog2.toNat <;> cases stored <;> rfl
  rw [recordBytes, hfield, hflags, overlay_recordFields]

theorem placeFlags_le (c : Chan) (stored : Bool) : placeFlags c stored ≤ 33 := by
  unfold placeFlags
  cases bit c.cqWritten.toNat c.cqLog2.toNat <;> cases stored <;> decide

theorem toHost_of_free {d : Dev} (hf : d.fatal = false) (hh : d.host.held = false) (o : HostOut) :
    d.toHost o = (d.cachePages o.pages).emit (.host o) := by
  rw [Dev.toHost, hf, hh, if_neg Bool.false_ne_true, if_neg Bool.false_ne_true]

theorem out_toHost {d : Dev} (hf : d.fatal = false) (hh : d.host.held = false) (o : HostOut) :
    (d.toHost o).out = d.out ++ [.host o] := by
  rw [toHost_of_free hf hh, Dev.cachePages_frame]
  rfl

end Sys2Proof.Machine

namespace Sys2Proof.Proofs
open Sys2Proof.Machine Sys2Proof.Safety

/-- Settles O27: what completes is `completeEntry` or `completeNode`, of which `HostWork` says what it leaves; the record's bytes are
`recordFields` with the place's flags (`recordBytes_eq`). -/
theorem completionsWritten : Obligations.CompletionsWritten := by
  refine ⟨fun id env s j hl hj hc hheld hflush hroom => ?_, fun d env j hflush hj hn => ?_, fun d env c seq fields hf hh hb hr hw hd => ?_,
    fun d env c seq fields hr hb => ?_, fun c seq tag d0 d1 rf st nf stored hseq htag hrf heven => ?_⟩
  · obtain rfl := Dev.id_of_job hj
    intro d
    have hexec := exec_descriptorComplete hl j.id env
    refine ⟨fun hnone => ?_, fun l hsome => ?_⟩
    · have hwork := completeEntry_work d env j
      rw [completeJob_of_entry hj hc hheld hflush hnone, recordOrKeep_of_room hroom] at hexec
      obtain ⟨hmem, hcores⟩ := hwork.mem_cores
      refine ⟨hexec, hwork.ids_ne rfl, (hwork.progress _).trans ?_, hmem, hcores⟩
      rw [entryDropped, Dev.chan_updChan]
      rfl
    · have hwork := signals_work env (nodeDropped d j l) j.chan j.seq j.cflags j.chainStatus
      rw [completeJob_of_node hj hc hheld hflush hsome] at hexec
      have hchan : (nodeDropped d j l).chan j.chan = (d.chan j.chan).noteStatus j.noted j.chainStatus := Dev.chan_updChan ..
      refine ⟨hexec, hwork.ids_ne rfl, (hwork.progress _).trans ?_, ?_⟩
      · rw [hchan, (Chan.noteStatus_kept ..).1]
      · obtain ⟨n, hn⟩ := chan_signals (nodeDropped d j l) env j.chan j.seq j.cflags j.chainStatus j.chan
        rw [completeNode_eq, hn, hchan]
        exact (Chan.noteStatus_kept ..).2
  · have hframe := flushReads_frame (flushAddrs d j) d
    rw [flushStep_of_due hflush hn]
    refine ⟨?_, ?_⟩
    · change (flushReads d (flushAddrs d j)).out = _
      rw [hframe]
    · rw [Dev.job_updJob (f := flushedJob) fun _ => rfl, hframe]
      exact congrArg (Option.map _) hj
  · intro t
    have ht : t = writeRecord d c seq fields false := deliverRecord_of_ring hh hb hw hd seq fields
    rw [ht]
    refine ⟨?_, ?_, ?_, fun k hk => ?_⟩
    · rw [writeRecord_eq, if_neg hr]
      exact out_toHost hf hh _
    · rw [writeRecord_eq, if_neg hr]
      change (d.toHost _).host.ucs = _
      rw [Dev.toHost_host]
    · rw [chan_writeRecord, Chan.recorded_frame]
      exact if_neg hr
    · rw [writeRecord_eq, if_neg hr, Dev.chan_updChan_other _ hk, Dev.chan_toHost]
  · intro t
    have ht : t = storeRecord d c seq fields := deliverRecord_of_store hr hb seq fields
    rw [ht]
    exact ⟨rfl, rfl, rfl⟩
  · intro b
    have hb := recordBytes_eq c seq tag st nf hrf d0 d1 stored
    have hplace := placeFlags_le c stored
    generalize hflags : rf + placeFlags c stored = r at hb
    obtain ⟨hfseq, hftag, hfst, hfnf, hfrf⟩ := field_recordFields seq tag st nf r d0 d1 (toLe 4 (crc32c (recordFields seq tag st nf r d0 d1)))
    have hlen := length_recordFields seq tag st nf r d0 d1
    have hcrc := field_mid (recordFields seq tag st nf r d0 d1) [] hlen 4 (crc32c (recordFields seq tag st nf r d0 d1))
    rw [List.append_nil] at hcrc
    have hst := st.isLt
    have hnf := nf.isLt
    have hb' : b = _ := hb
    rw [hb']
    refine ⟨by simp [hlen, length_toLe], hfseq.trans (Nat.mod_eq_of_lt hseq), hftag.trans (Nat.mod_eq_of_lt htag),
      hfst.trans (Nat.mod_eq_of_lt hst), hfnf.trans (Nat.mod_eq_of_lt hnf), hfrf.trans ?_,
      (hcrc.trans (Nat.mod_eq_of_lt (crc32c_lt _))).trans ?_⟩
    · rw [Nat.mod_eq_of_lt (by omega), ← hflags, placeFlags, Nat.add_assoc]
    · rw [List.take_left' hlen]

end Sys2Proof.Proofs
end

section
/-! SUPPORT. Stored records and withheld results released, blocked channels, holds and reattachment. -/

namespace Sys2Proof.Machine
open Sys2Proof.Safety

/-! ### Stored records written into their slots (R405) -/

/-- Of the digital part, channel `c`, the host link and the output differ; of the channel, what a record in its slot moves. -/
structure SlotWork (c : Nat) (d e : Dev) : Prop where
  frame : e = { d with host := e.host, out := e.out, chans := e.chans }
  other : ∀ k, k ≠ c → e.chan k = d.chan k
  own : e.chan c = { d.chan c with
    cqWritten := (e.chan c).cqWritten, owed := (e.chan c).owed, cw := (e.chan c).cw, cwDone := (e.chan c).cwDone }

theorem SlotWork.refl (c : Nat) (d : Dev) : SlotWork c d d := ⟨rfl, fun _ _ => rfl, rfl⟩

theorem SlotWork.trans {c : Nat} {d e f : Dev} (h : SlotWork c d e) (k : SlotWork c e f) : SlotWork c d f where
  frame := by rw [k.frame, h.frame]
  other i hi := (k.other i hi).trans (h.other i hi)
  own := by rw [k.own, h.own]

theorem Dev.toHost_slotWork (c : Nat) (d : Dev) (o : HostOut) : SlotWork c d (d.toHost o) :=
  ⟨by rw [Dev.toHost_frame], fun k _ => Dev.chan_toHost d o k, by rw [Dev.chan_toHost]⟩

theorem Dev.ucs_toHost (d : Dev) (o : HostOut) : (d.toHost o).host.ucs = d.host.ucs := by rw [Dev.toHost_host]

theorem writeRecord_slotWork (c seq : Nat) (fields : Bytes) (stored : Bool) (d : Dev) : SlotWork c d (writeRecord d c seq fields stored) := by
  have hupd : ∀ e : Dev, SlotWork c e (e.updChan c fun ch => ch.recorded seq) := fun e =>
    ⟨rfl, fun k hk => Dev.chan_updChan_other _ hk _, by
      rw [Dev.chan_updChan, Chan.recorded_frame]⟩
  rw [writeRecord_eq]
  split
  · exact hupd d
  · exact (d.toHost_slotWork c _).trans (hupd _)

theorem ucs_writeRecord (c seq : Nat) (fields : Bytes) (stored : Bool) (d : Dev) :
    (writeRecord d c seq fields stored).host.ucs = d.host.ucs := by
  rw [writeRecord_eq]
  split
  · rfl
  · exact Dev.ucs_toHost ..

theorem writeWord_slotWork (c : Nat) (d : Dev) : SlotWork c d (writeWord d c) := by
  unfold writeWord
  dsimp only
  split
  · exact .refl c d
  · exact d.toHost_slotWork c _

theorem ucs_writeWord (c : Nat) (d : Dev) : (writeWord d c).host.ucs = d.host.ucs := by
  unfold writeWord
  dsimp only
  split
  · rfl
  · exact Dev.ucs_toHost ..

theorem replaceOnce_eq_erase (r : Stored) (l : List Stored) : deliverStored.replaceOnce r l = l.erase r := by
  induction l with
  | nil => rfl
  | cons x xs ih =>
    rw [deliverStored.replaceOnce, List.erase_cons, ih]
    simp only [beq_iff_eq]

/-- A record out of the store. -/
def unstore (d : Dev) (r : Stored) : Dev := { d with host := { d.host with ucs := d.host.ucs.erase r } }

theorem deliverStored_cons {env : Env} (hn : env.deny = []) (c : Nat) (r : Stored) (rs : List Stored) (d : Dev) :
    deliverStored env c (r :: rs) d = deliverStored env c rs (writeRecord (unstore d r) c r.seq r.fields true) := by
  rw [deliverStored]
  dsimp only
  rw [hostDenied_of_nil hn, if_neg Bool.false_ne_true, replaceOnce_eq_erase]
  rfl

/-- With no host write that fails, the stored records all go into their slots. -/
theorem deliverStored_of_free {env : Env} (hn : env.deny = []) (c : Nat) (rs : List Stored) (d : Dev) :
    ∃ e, deliverStored env c rs d = (e, true) ∧ SlotWork c d e ∧ e.host.ucs = d.host.ucs.diff rs ∧
      ((d.chan c).cqLog2 ≠ 0 → (e.chan c).cqWritten = (d.chan c).cqWritten + BitVec.ofNat 64 rs.length) := by
  induction rs generalizing d with
  | nil => exact ⟨d, rfl, .refl c d, rfl, fun _ => by simp⟩
  | cons r rs ih =>
    have hfirst : SlotWork c d (writeRecord (unstore d r) c r.seq r.fields true) :=
      (show SlotWork c d (unstore d r) from ⟨rfl, fun _ _ => rfl, rfl⟩).trans (writeRecord_slotWork ..)
    obtain ⟨e, he, hwork, hucs, hcount⟩ := ih (writeRecord (unstore d r) c r.seq r.fields true)
    refine ⟨e, (deliverStored_cons hn ..).trans he, hfirst.trans hwork, ?_, fun hr => ?_⟩
    · rw [hucs, ucs_writeRecord, List.diff_cons]
      rfl
    · have hchan := chan_writeRecord (unstore d r) c r.seq r.fields true
      have hstep : ((writeRecord (unstore d r) c r.seq r.fields true).chan c).cqWritten = (d.chan c).cqWritten + 1 := by
        rw [hchan, Chan.recorded_frame]
        exact if_neg hr
      rw [hcount (by rw [hchan, Chan.recorded_frame]; exact hr), hstep, List.length_cons, BitVec.add_assoc,
        Nat.add_comm, BitVec.ofNat_add]
      rfl

/-- No record of a channel stays when its records leave the store. -/
theorem mem_diff_filter {α : Type} [DecidableEq α] {p : α → Bool} {l : List α} {a : α} (h : a ∈ l.diff (l.filter p)) : p a = false := by
  refine Bool.eq_false_iff.mpr fun hp => ?_
  have hcount : (l.diff (l.filter p)).count a = 0 := by
    rw [List.count_diff, List.count_filter hp, Nat.sub_self]
  exact List.count_eq_zero.mp hcount h

theorem deliverChannel_of_free {env : Env} (hn : env.deny = []) (c : Nat) (d : Dev) :
    ∃ e, deliverChannel env d c = (e, true) ∧ SlotWork c d e ∧ (∀ r ∈ e.host.ucs, r.chan ≠ c) ∧
      ((d.chan c).cqLog2 ≠ 0 →
        (e.chan c).cqWritten = (d.chan c).cqWritten + BitVec.ofNat 64 (d.host.ucs.filter fun r : Stored => r.chan = c).length) := by
  obtain ⟨e, he, hwork, hucs, hcount⟩ := deliverStored_of_free hn c (d.storedOf c) d
  have hword := writeWord_slotWork c e
  refine ⟨writeWord e c, ?_, hwork.trans hword, fun r hr => ?_, fun hlog => ?_⟩
  · simp only [deliverChannel, he, hostDenied_of_nil hn, Bool.not_true, Bool.and_false, Bool.false_eq_true, if_false]
  · rw [ucs_writeWord, hucs] at hr
    exact of_decide_eq_false (mem_diff_filter (p := fun r : Stored => decide (r.chan = c)) hr)
  · rw [← Dev.storedOf, ← hcount hlog]
    unfold writeWord
    dsimp only
    split
    · rfl
    · rw [Dev.chan_toHost]

/-! ### Withheld results released (R375, R405, R411) -/

/-- What releasing the withheld results of channel `c` changes of a device, its writes meeting the surroundings `env`: memory, the other
channels and the stored records stand. -/
structure ReleaseWork (env : Env) (c : Nat) (d e : Dev) : Prop where
  frame : e = { d with host := e.host, out := e.out, err := e.err, chans := e.chans, jobs := e.jobs, cores := e.cores, feeds := e.feeds,
                       plots := e.plots, ports := e.ports, detected := e.detected }
  host : HostKept d.host e.host
  heldWrites : d.host.held = false → e.host.heldWrites = d.host.heldWrites
  ucs : e.host.ucs = d.host.ucs
  other : ∀ k, k ≠ c → e.chan k = d.chan k
  own : env.deny = [] → e.chan c = { d.chan c with outTail := (e.chan c).outTail }
  state : (e.chan c).state = (d.chan c).state ∨ env.deny ≠ [] ∧ (e.chan c).state = .blocked

namespace ReleaseWork
variable {env : Env} {c : Nat} {d e f : Dev}

theorem held_eq (h : ReleaseWork env c d e) : e.host.held = d.host.held := by rw [show e.host = _ from h.host]

theorem trans (h : ReleaseWork env c d e) (k : ReleaseWork env c e f) : ReleaseWork env c d f where
  frame := by rw [k.frame, h.frame]
  host := by
    unfold HostKept
    rw [show f.host = _ from k.host, show e.host = _ from h.host]
  heldWrites hd := (k.heldWrites (h.held_eq.trans hd)).trans (h.heldWrites hd)
  ucs := k.ucs.trans h.ucs
  other i hi := (k.other i hi).trans (h.other i hi)
  own hn := by rw [k.own hn, h.own hn]
  state := k.state.elim (fun hk => hk ▸ h.state) .inr

/-- Work that leaves the host link and the channels as they are. -/
theorem of_quiet (h : e = { d with out := e.out, err := e.err, jobs := e.jobs, cores := e.cores, feeds := e.feeds, plots := e.plots,
                                   ports := e.ports, detected := e.detected }) : ReleaseWork env c d e := by
  have hhost : e.host = d.host := by rw [h]
  have hchan : ∀ k, e.chan k = d.chan k := fun k => by rw [h]; rfl
  exact ⟨by rw [h], by rw [hhost]; rfl, fun _ => by rw [hhost], by rw [hhost], fun k _ => hchan k, fun _ => by rw [hchan],
    .inl (by rw [hchan])⟩

theorem refl (d : Dev) : ReleaseWork env c d d := of_quiet rfl

/-- Work toward the host that leaves the channels and the stored records as they are. -/
theorem of_hostWork (h : HostWork env d e) (hj : e.engines = d.engines) (hu : e.host.ucs = d.host.ucs)
    (hc : ∀ k, e.chan k = d.chan k) : ReleaseWork env c d e :=
  ⟨by rw [h.frame, hj], h.host, h.heldWrites, hu, fun k _ => hc k, fun _ => by rw [hc], .inl (by rw [hc])⟩

theorem of_updChan {g : Chan → Chan} (hs : (g (d.chan c)).state = (d.chan c).state ∨ env.deny ≠ [] ∧ (g (d.chan c)).state = .blocked)
    (ho : env.deny = [] → g (d.chan c) = { d.chan c with outTail := (g (d.chan c)).outTail }) : ReleaseWork env c d (d.updChan c g) :=
  ⟨rfl, rfl, fun _ => rfl, rfl, fun _ hk => Dev.chan_updChan_other _ hk _, fun hn => by rw [Dev.chan_updChan]; exact ho hn,
    by rwa [Dev.chan_updChan]⟩

end ReleaseWork

section
variable (env : Env) (c : Nat) (d : Dev)

theorem Dev.toHost_release (o : HostOut) : ReleaseWork env c d (d.toHost o) :=
  .of_hostWork (d.toHost_work env o) (by rw [Dev.toHost_frame]) (d.ucs_toHost o) (d.chan_toHost o)

theorem Dev.ucs_msix (v : Nat) : (d.msix v).host.ucs = d.host.ucs := by rw [Dev.msix_host]

theorem Dev.msix_release (v : Nat) : ReleaseWork env c d (d.msix v) :=
  .of_hostWork (d.msix_work env v) (by rw [Dev.msix_frame]) (d.ucs_msix v) (d.chan_msix v)

theorem Dev.ucs_report (r : ErrRec) : (d.report r).host.ucs = d.host.ucs := by rw [Dev.report_host]

theorem Dev.report_release (r : ErrRec) : ReleaseWork env c d (d.report r) :=
  .of_hostWork (d.report_work env r) (by rw [Dev.report_frame]) (d.ucs_report r) (d.chan_report r)

variable {env}

theorem blockChannel_release (hd : env.deny ≠ []) (kind addr seq : Nat) : ReleaseWork env c d (blockChannel d c kind addr seq) := by
  rw [blockChannel_eq]
  refine (ReleaseWork.trans (.of_updChan ?_ fun hn => absurd hn hd) (Dev.report_release env c _ _)).trans (Dev.msix_release env c _ _)
  change (if _ then _ else _) = _ ∨ _ ∧ (if _ then _ else _) = _
  split
  · exact .inr ⟨hd, rfl⟩
  · exact .inl rfl

variable (env)

theorem noteLast_release (job a : Nat) : ReleaseWork env c d (noteLast d job a) := .of_quiet rfl

/-- The host address of a channel's next result slot (R375). -/
def Chan.outAddr (ch : Chan) : Nat := ch.outBase.toNat + ch.outTail.toNat % 2 ^ ch.outLog2.toNat * ch.outSlot.toNat

/-- A result written into the next slot of a channel's result ring (R375). -/
def slotSent (d : Dev) (c job : Nat) (b : Bytes) : Dev :=
  let ch := d.chan c
  noteLast ((d.toHost (.write ch.outAddr (slotBytes b ch.outSlot.toNat))).updChan c fun ch => { ch with outTail := ch.outTail + 1 }) job
    (ch.outAddr + ch.outSlot.toNat - 1)

theorem ringResult_eq (job : Nat) (b : Bytes) : ringResult d env c job b =
    let ch := d.chan c
    let w := ch.outProducer.toNat
    if hostDenied d env ch.outAddr ch.outSlot.toNat then (blockChannel d c 2 ch.outAddr 0, false)
    else if w = 0 then (slotSent d c job b, true)
    else if hostDenied (slotSent d c job b) env w 8 then (blockChannel (slotSent d c job b) c 3 w 0, true)
    else (noteLast ((slotSent d c job b).toHost (.write w (toLe 8 (ch.outTail + 1).toNat))) job (w + 7), true) := rfl

theorem slotSent_release (job : Nat) (b : Bytes) : ReleaseWork env c d (slotSent d c job b) :=
  ((d.toHost_release env c _).trans (.of_updChan (g := fun ch => { ch with outTail := ch.outTail + 1 }) (.inl rfl) fun _ => rfl)).trans
    (noteLast_release ..)

theorem ringResult_release (job : Nat) (b : Bytes) : ReleaseWork env c d (ringResult d env c job b).1 := by
  have hsent := slotSent_release env c d job b
  rw [ringResult_eq]
  dsimp only
  split
  next hden => exact blockChannel_release c d (denied_of_hostDenied hden) ..
  · split
    · exact hsent
    · split
      next hden => exact hsent.trans (blockChannel_release c _ (denied_of_hostDenied hden) ..)
      · exact hsent.trans ((Dev.toHost_release ..).trans (noteLast_release ..))

theorem sendAcceptUnit_linkOnly (dst plot stream seq : Nat) : LinkOnly d (sendAcceptUnit d dst plot stream seq) := by
  unfold sendAcceptUnit
  dsimp only
  split
  · rfl
  · split
    · refine LinkOnly.trans ?_ (pump_frame _ _)
      rfl
    · exact sendUnit_frame ..

theorem acceptRecord_release (pid : Nat) (p : Plot) (src : Src) (stream seq : Nat) (st : Status) (nf : NFlags) :
    ReleaseWork env c d (acceptRecord d pid p src stream seq st nf) := by
  unfold acceptRecord
  dsimp only
  have hcount : ReleaseWork env c d (countAccepted d src st nf) := .of_quiet rfl
  split
  · refine hcount.trans ?_
    unfold Dev.updPlot
    split
    · exact .refl _
    · exact .of_quiet rfl
  · refine hcount.trans (.of_quiet ?_)
    rw [sendAccept, show sendAcceptUnit _ _ _ _ _ = _ from sendAcceptUnit_linkOnly ..]

theorem acceptResult_release (n pid : Nat) (p : Plot) (x : Ctx) : ReleaseWork env c d (acceptResult d n pid p x) :=
  ReleaseWork.trans (e := d.updCore n fun c => c.accepted x.row) (.of_quiet rfl) (acceptRecord_release ..)

theorem ownRing_iff (x : Ctx) : ownRing d c x = true ↔
    ∃ f, d.feed x.src = some f ∧ f.dstKind = 1 ∧ f.chan = c ∧ ringRoom d c = true := by
  simp [ownRing, Option.any_eq_true, and_assoc]

theorem deliverResult_release (n pid : Nat) (p : Plot) (x : Ctx) (b : Bytes) (h : ownRing d c x = true) :
    ReleaseWork env c d (deliverResult d env n pid p x b) := by
  obtain ⟨f, hf, hkind, rfl, -⟩ := (ownRing_iff ..).mp h
  have hring := ringResult_release env f.chan d f.src.jobId b
  unfold deliverResult
  simp only [hf, hkind]
  split
  · exact hring.trans (acceptResult_release ..)
  · exact hring

theorem releaseTail_release (n fuel : Nat) : ReleaseWork env c d (releaseTail env c n fuel d) := by
  induction fuel generalizing d with
  | zero => exact .refl d
  | succ fuel ih =>
    unfold releaseTail
    split
    · exact .refl d
    · split
      · exact .refl d
      · split
        · exact .refl d
        next x hx =>
          obtain ⟨-, ⟨-, hroom, -⟩, -⟩ := deliverable_of_pickResult hx
          refine ReleaseWork.trans ?_ (ih _)
          split
          · exact deliverResult_release env c d n _ _ x _ hroom
          · exact .of_quiet rfl

theorem releaseResults_release : ReleaseWork env c d (releaseResults env c d) :=
  List.foldlRecOn (motive := ReleaseWork env c d) _ _ (.refl d) fun _ he _ _ => he.trans (releaseTail_release ..)

/-- With no feed of the channel that goes to its ring, nothing is withheld for it. -/
theorem releaseResults_of_none (h : ∀ f ∈ d.feeds, f.chan = c → f.dstKind ≠ 1) : releaseResults env c d = d := by
  have hpick : ∀ ctxs, pickResult (ownRing d c) [] ctxs = none := fun ctxs => by
    refine Option.eq_none_iff_forall_ne_some.mpr fun x hx => ?_
    obtain ⟨-, ⟨-, hroom, -⟩, -⟩ := deliverable_of_pickResult hx
    obtain ⟨f, hf, hkind, hchan, -⟩ := (ownRing_iff ..).mp hroom
    exact h f (List.mem_of_find?_eq_some hf) hchan hkind
  have htail : ∀ n fuel, releaseTail env c n fuel d = d := fun n fuel => by
    cases fuel with
    | zero => rfl
    | succ fuel =>
      unfold releaseTail
      split
      · rfl
      · simp only [hpick, ite_self]
  exact List.foldlRecOn (motive := (· = d)) _ _ rfl fun e he n _ => by rw [he, htail]

end

/-! ### COMPLETION_BLOCKED (R404, R408) -/

theorem completionBlocked_idle {c kind job : Nat} {d : Dev} (h : d.host.ats = false ∨ d.host.held = true ∨
    (d.chan c).state = .disabled ∨ (d.chan c).blockAddrOf kind = 0) : completionBlocked c kind job d = d := by
  unfold completionBlocked
  exact if_pos (by obtain h | h | h | h := h <;> simp [h])

section
variable {c kind job : Nat} {d : Dev} (ha : d.host.ats = true) (hh : d.host.held = false) (hs : (d.chan c).state ≠ .disabled)
  (haddr : (d.chan c).blockAddrOf kind ≠ 0)
include ha hh hs haddr

/-- A failed word, result slot or producer word blocks its channel alone. -/
theorem completionBlocked_of_word (hk : kind ≠ 0) (ho : kind = 1 ∨ (d.chan c).outLog2 ≠ 0) :
    completionBlocked c kind job d = blockChannel d c kind ((d.chan c).blockAddrOf kind) 0 := by
  unfold completionBlocked
  dsimp only
  rw [if_neg (by simp [ha, hh, hs, haddr])]
  split
  · exact absurd rfl hk
  · rfl
  · exact if_pos (ho.resolve_left (by assumption))

end

/-- The surroundings in which a channel's next completion slot is denied. -/
def slotDenied (ch : Chan) : Env := { deny := [(ch.slotAddr, 32)] }

theorem hostDenied_slotDenied {d : Dev} (h : d.host.ats = true) (ch : Chan) : hostDenied d (slotDenied ch) ch.slotAddr 32 = true := by
  simp [hostDenied, slotDenied, overlaps, h]

section
variable {c : Nat} {j : Job} {d : Dev} (ha : d.host.ats = true) (hh : d.host.held = false) (hs : (d.chan c).state ≠ .disabled)
  (haddr : (d.chan c).slotAddr ≠ 0) (hr : (d.chan c).cqLog2 ≠ 0) (hj : d.job j.id = some j) (hc : j.chan = c) (hl : j.launch = none)
  (hcomp : d.jobComplete j = true) (hheld : completionHeld d j = false) (hflush : flushDue d j = false)
include ha hh hs haddr hr hj hc hl hcomp hheld hflush

/-- A failed record is that of a completed descriptor (R404). -/
theorem completionBlocked_of_record : completionBlocked c 0 j.id d = recordOrKeep d (slotDenied (d.chan c)) j := by
  have hgo : (decide (j.chan = c) && j.launch.isNone && decide ((d.chan c).cqLog2 ≠ 0) && d.jobComplete j && !completionHeld d j) = true := by
    simpa [hc, hl, hcomp, hheld] using hr
  unfold completionBlocked
  dsimp only
  rw [if_neg (by simp [ha, hh, hs, Chan.blockAddrOf, haddr])]
  simp only [hj]
  rw [if_pos hgo]
  exact completeJob_of_entry hj hcomp hheld hflush hl

end

theorem recordOrKeep_of_full {d : Dev} {j : Job} (h : storeFull d j = true) (ha : d.host.ats = true) :
    recordOrKeep d (slotDenied (d.chan j.chan)) j = blockChannel d j.chan 0 (d.chan j.chan).slotAddr j.seq :=
  if_pos (by rw [h, hostDenied_slotDenied ha]; rfl)

theorem ucs_blockChannel (d : Dev) (c kind addr seq : Nat) : (blockChannel d c kind addr seq).host.ucs = d.host.ucs := by
  rw [blockChannel_eq]
  exact (Dev.ucs_msix ..).trans (Dev.ucs_report ..)

theorem ucs_signals (d : Dev) (env : Env) (c seq : Nat) (cf : BitVec 16) (st : Status) :
    (signals d env c seq cf st).host.ucs = d.host.ucs := by
  have hpeer : ∀ e : Dev, (peerSignal e env c seq cf st).host.ucs = e.host.ucs := fun e => by
    unfold peerSignal
    dsimp only
    split
    · split
      · rfl
      · exact Dev.ucs_toHost ..
    · rfl
  unfold signals
  dsimp only
  rw [hpeer]
  split
  · exact Dev.ucs_msix ..
  · rfl

/-- A record that the host refuses, or whose channel takes none, is stored, and its channel is blocked (R404). -/
theorem deliverRecord_refused {d : Dev} {env : Env} {c : Nat} (hr : (d.chan c).cqLog2 ≠ 0)
    (hd : hostDenied d env (d.chan c).slotAddr 32 = true) (hh : d.host.held = false) (seq : Nat) (fields : Bytes) :
    (deliverRecord d env c seq fields).host.ucs = d.host.ucs ++ [⟨c, seq, fields, 0⟩] ∧
      ((deliverRecord d env c seq fields).chan c).blocked = true := by
  by_cases hb : (d.chan c).blocked = true
  · rw [deliverRecord_of_store hr (by simp [hb])]
    exact ⟨rfl, hb⟩
  · have hblock : deliverRecord d env c seq fields = blockChannel (storeRecord d c seq fields) c 0 (d.chan c).slotAddr seq := by
      unfold deliverRecord
      dsimp only
      rw [if_neg (by simp [hb, hh]), if_pos (by simpa [hd] using hr)]
    rw [hblock, ucs_blockChannel, chan_blockChannel]
    exact ⟨rfl, rfl⟩

/-- A channel that completes a descriptor keeps its completion ring. -/
theorem chan_entryDropped (d : Dev) (j : Job) : ∃ f p, (entryDropped d j).chan j.chan = { d.chan j.chan with faulted := f, progress := p } := by
  rw [entryDropped, Dev.chan_updChan]
  change ∃ f p, ({ (d.chan j.chan).noteStatus j.noted (finalStatus d j).1 with progress := (d.chan j.chan).progress + 1 } : Chan) = _
  unfold Chan.noteStatus
  split <;> exact ⟨_, _, rfl⟩

/-- A completed descriptor whose record is refused is completed all the same (R404). -/
theorem completeEntry_refused {d : Dev} {j : Job} (ha : d.host.ats = true) (hh : d.host.held = false) (hr : (d.chan j.chan).cqLog2 ≠ 0) :
    (completeEntry d (slotDenied (d.chan j.chan)) j).host.ucs = d.host.ucs ++ [⟨j.chan, j.seq, fieldsOf d j, 0⟩] ∧
      ((completeEntry d (slotDenied (d.chan j.chan)) j).chan j.chan).blocked = true := by
  obtain ⟨f, p, hchan⟩ := chan_entryDropped d j
  have hslot : ((entryDropped d j).chan j.chan).slotAddr = (d.chan j.chan).slotAddr := by
    rw [hchan]
    rfl
  have hdenied : hostDenied (entryDropped d j) (slotDenied (d.chan j.chan)) ((entryDropped d j).chan j.chan).slotAddr 32 = true := by
    rw [hslot]
    exact hostDenied_slotDenied (d := entryDropped d j) ha _
  obtain ⟨hucs, hblocked⟩ := deliverRecord_refused (d := entryDropped d j) (by rw [hchan]; exact hr) hdenied hh j.seq (fieldsOf d j)
  obtain ⟨n, hn⟩ := chan_signals (deliverRecord (entryDropped d j) (slotDenied (d.chan j.chan)) j.chan j.seq (fieldsOf d j))
    (slotDenied (d.chan j.chan)) j.chan j.seq j.cflags (finalStatus d j).1 j.chan
  rw [completeEntry_eq, ucs_signals, hn]
  exact ⟨hucs, hblocked⟩

/-! ### What blocking reports (R404, R438) -/

theorem Dev.seqNext_report (d : Dev) (r : ErrRec) : (d.report r).err.seqNext = d.err.seqNext + 1 := by
  unfold Dev.report Dev.errVector
  dsimp only
  split
  · split
    · rw [Dev.msix_frame]
    · rfl
  · rfl

theorem Dev.queue_report {d : Dev} (h : d.err.queue.length < 64) (r : ErrRec) :
    (d.report r).err.queue = d.err.queue ++ [{ r with seq := d.err.seqNext.toNat }] := by
  unfold Dev.report Dev.errVector
  dsimp only
  rw [if_pos h]
  split
  · rw [Dev.msix_frame]
  · rfl

theorem blockChannel_frame (d : Dev) (c kind addr seq : Nat) :
    let t := blockChannel d c kind addr seq
    t = { d with chans := t.chans, err := t.err, host := t.host, out := t.out } := by
  dsimp only
  rw [blockChannel_eq, Dev.errVector, Dev.msix_frame, Dev.report_frame]
  rfl

theorem err_blockChannel (d : Dev) (c kind addr seq : Nat) :
    (blockChannel d c kind addr seq).err = ((d.updChan c fun ch => ch.block kind addr).report (blockRecord c kind addr seq)).err := by
  rw [blockChannel_eq, Dev.errVector, Dev.msix_frame]

/-! ### RESUME_COMPLETION (R382, R405) -/

theorem producerWord_slotWork {env : Env} (hn : env.deny = []) (c : Nat) (d : Dev) :
    SlotWork c d (producerWord env c d) ∧ (producerWord env c d).host.ucs = d.host.ucs ∧ ∀ k, (producerWord env c d).chan k = d.chan k := by
  unfold producerWord
  dsimp only
  split
  · exact ⟨.refl c d, rfl, fun _ => rfl⟩
  · rw [hostDenied_of_nil hn, if_neg Bool.false_ne_true]
    exact ⟨d.toHost_slotWork c _, d.ucs_toHost _, d.chan_toHost _⟩

/-- The results of a channel that is blocked no longer are released, and its producer word is written again (R405). -/
def unblocked (env : Env) (c : Nat) (d : Dev) : Dev :=
  let tail := (d.chan c).outTail
  let d := releaseResults env c (d.updChan c fun ch => { ch with blocked := false })
  if (d.chan c).blocked || (d.chan c).outTail ≠ tail then d else producerWord env c d

/-- A channel back in the state it was blocked in (R405). -/
def Chan.resumed (ch : Chan) : Chan := { ch with state := ch.before }

section
variable {c : Nat} {env : Env} {d e : Dev} (hs : (d.chan c).state = .blocked) (hh : d.host.held = false) (hf : d.fatal = false)
include hs hh hf

theorem resumeCompletion_of_delivered (he : deliverChannel env d c = (e, true)) (hb : ((unblocked env c e).chan c).blocked = false) :
    resumeCompletion c env d = (unblocked env c e).updChan c Chan.resumed := by
  unfold resumeCompletion
  rw [if_neg (by simp [hs]), if_neg (by simp [hh, hf]), he]
  exact if_neg (Bool.eq_false_iff.mp hb)

theorem resumeCompletion_of_failed (he : deliverChannel env d c = (e, false)) : resumeCompletion c env d = e := by
  unfold resumeCompletion
  rw [if_neg (by simp [hs]), if_neg (by simp [hh, hf]), he]
  rfl

end

section
variable {env : Env} (hn : env.deny = []) (c : Nat) (d : Dev)
include hn

/-- With no host write that fails, releasing a channel's results leaves it unblocked, and moves its result ring alone. -/
theorem chan_unblocked : (unblocked env c d).chan c =
    { d.chan c with blocked := false, outTail := ((unblocked env c d).chan c).outTail } := by
  have hrel := (releaseResults_release env c (d.updChan c fun ch => { ch with blocked := false })).own hn
  rw [Dev.chan_updChan] at hrel
  unfold unblocked
  dsimp only
  split
  · exact hrel
  · rw [(producerWord_slotWork hn c _).2.2]
    exact hrel

theorem chan_unblocked_other {k : Nat} (hk : k ≠ c) : (unblocked env c d).chan k = d.chan k := by
  have hrel := (releaseResults_release env c (d.updChan c fun ch => { ch with blocked := false })).other k hk
  rw [Dev.chan_updChan_other _ hk] at hrel
  unfold unblocked
  dsimp only
  split
  · exact hrel
  · rw [(producerWord_slotWork hn c _).2.2]
    exact hrel

theorem mem_unblocked : (unblocked env c d).mem = d.mem ∧ (unblocked env c d).host.ucs = d.host.ucs := by
  have hrel := releaseResults_release env c (d.updChan c fun ch => { ch with blocked := false })
  have hmem : (releaseResults env c (d.updChan c fun ch => { ch with blocked := false })).mem = d.mem := by
    rw [hrel.frame]
    rfl
  unfold unblocked
  dsimp only
  split
  · exact ⟨hmem, hrel.ucs⟩
  · obtain ⟨hslot, hucs, -⟩ := producerWord_slotWork hn c (releaseResults env c (d.updChan c fun ch => { ch with blocked := false }))
    exact ⟨by rw [hslot.frame]; exact hmem, hucs.trans hrel.ucs⟩

/-- With no results for the channel's ring, only the channel and what is sent to the host differ. -/
theorem unblocked_frame (h : ∀ f ∈ d.feeds, f.chan = c → f.dstKind ≠ 1) :
    unblocked env c d = { d with host := (unblocked env c d).host, out := (unblocked env c d).out, chans := (unblocked env c d).chans } := by
  have hnone : releaseResults env c (d.updChan c fun ch => { ch with blocked := false }) = d.updChan c fun ch => { ch with blocked := false } :=
    releaseResults_of_none env c _ h
  unfold unblocked
  dsimp only
  rw [hnone]
  split
  · rfl
  · rw [(producerWord_slotWork hn c _).1.frame]
    rfl

end

theorem deliverChannel_denied {env : Env} {d : Dev} {c : Nat} (h : ∃ r ∈ d.host.ucs, r.chan = c)
    (hd : hostDenied d env (d.chan c).slotAddr 32 = true) :
    deliverChannel env d c = (blockAgain d c 0 (d.chan c).slotAddr, false) := by
  have hstored : d.storedOf c ≠ [] := by
    obtain ⟨r, hr, hc⟩ := h
    exact List.ne_nil_of_mem (List.mem_filter.mpr ⟨hr, decide_eq_true hc⟩)
  obtain ⟨r, rs, hcons⟩ := List.exists_cons_of_ne_nil hstored
  have hfail : deliverStored env c (d.storedOf c) d = (d, false) := by
    rw [hcons, deliverStored]
    exact if_pos hd
  simp only [deliverChannel, hfail, Bool.not_false, if_true]

end Sys2Proof.Machine

namespace Sys2Proof.Proofs
open Sys2Proof.Machine Sys2Proof.Safety

/-- Settles O33: a refused record is stored by `deliverRecord`, the other failures block the channel; a resumed channel's stored records,
word, results and producer word are written in turn. -/
theorem completionsBlockedAndResumed : Obligations.CompletionsBlockedAndResumed := by
  refine ⟨⟨fun c id j s hl ha hh hs haddr hr hj hc hnone hcomp hheld hflush hroom => ?_,
      fun c id j s hl ha hh hs haddr hb hj hc hcomp hflush hfull => ?_, fun c kind id s hl ha hh hs hk haddr ho => ?_,
      fun c kind id s h => onDev_same (completionBlocked_idle h), fun d c kind addr seq => ?_⟩, fun c env s hl hs hh hr hn => ?_,
    fun c env s hl hs hh hstored hd => ?_⟩
  · obtain rfl := Dev.id_of_job hj
    have hexec := onDev_next hl ((completionBlocked_of_record ha hh hs haddr hr hj hc hnone hcomp hheld hflush).trans
      (recordOrKeep_of_room hroom _))
    obtain ⟨hucs, hblocked⟩ := completeEntry_refused (j := j) ha hh (hc ▸ hr)
    have hwork := completeEntry_work s.dev (slotDenied (s.dev.chan c.val)) j
    obtain ⟨hmem, hcores⟩ := hwork.mem_cores
    rw [hc] at hucs hblocked
    refine ⟨_, _, hexec, hucs, hblocked, (hwork.progress _).trans ?_, hwork.ids_ne rfl, hmem, hcores⟩
    rw [entryDropped, hc, Dev.chan_updChan]
    rfl
  · obtain rfl := Dev.id_of_job hj
    have hfull' := hfull
    simp only [storeFull, Bool.and_eq_true, Option.isNone_iff_eq_none, bne_iff_ne, ne_eq] at hfull'
    obtain ⟨⟨hnone, hr⟩, -⟩ := hfull'
    have hheld : completionHeld s.dev j = false := by
      simp [completionHeld, keepsCompletion, hh, hc, hb, State.fatal_of_live hl]
    refine onDev_next hl ((completionBlocked_of_record ha hh hs haddr (hc ▸ hr) hj hc hnone hcomp hheld hflush).trans ?_)
    rw [← hc]
    exact recordOrKeep_of_full hfull ha
  · exact onDev_next hl (completionBlocked_of_word ha hh hs haddr (fun h => hk (Fin.ext h)) (ho.imp_left (congrArg Fin.val)))
  · refine ⟨blockChannel_frame .., fun k hk => chan_blockChannel_other hk .., chan_blockChannel .., ?_, fun hlen => ?_⟩
    · rw [err_blockChannel, Dev.seqNext_report]
      rfl
    · rw [err_blockChannel]
      exact ⟨_, Dev.queue_report (d := d.updChan c fun ch => ch.block kind addr) hlen _, rfl, rfl, rfl, rfl⟩
  · obtain ⟨e, he, hslot, hucs, hcount⟩ := deliverChannel_of_free hn c.val s.dev
    have hown := chan_unblocked hn c.val e
    rw [hslot.own] at hown
    have hchan : ((unblocked env c.val e).updChan c.val Chan.resumed).chan c.val = _ := (Dev.chan_updChan ..).trans (congrArg _ hown)
    obtain ⟨hmem, hstored⟩ := mem_unblocked hn c.val e
    refine ⟨_, onDev_next hl (resumeCompletion_of_delivered hs hh (State.fatal_of_live hl) he (by rw [hown])), fun hnone => ?_, ?_,
      by rw [hchan]; rfl, by rw [hchan]; rfl, ?_, ?_, fun k hk => ?_⟩
    · have hfeeds : e.feeds = s.dev.feeds := by rw [hslot.frame]
      have hframe := unblocked_frame hn c.val e (by rw [hfeeds]; exact hnone)
      rw [hframe, hslot.frame]
      rfl
    · change (unblocked env c.val e).mem = _
      rw [hmem, hslot.frame]
    · change ∀ r ∈ (unblocked env c.val e).host.ucs, _
      rw [hstored]
      exact hucs
    · rw [hchan]
      exact hcount hr
    · exact (Dev.chan_updChan_other _ hk _).trans ((chan_unblocked_other hn c.val e hk).trans (hslot.other k hk))
  · exact onDev_next hl (resumeCompletion_of_failed hs hh (State.fatal_of_live hl) (deliverChannel_denied hstored hd))

end Sys2Proof.Proofs
end

section
/-! SUPPORT. Holds of the host link, and reattachment. -/

namespace Sys2Proof.Machine
open Sys2Proof.Safety

/-! ### A hold begins (R409) -/

theorem Chan.detach_eq (ch : Chan) : ch.detach =
    if ch.state = .running ∨ ch.state = .waiting ∨ ch.state = .halted then { ch with state := .detached, wait := .none } else ch := by
  unfold Chan.detach
  cases ch.state <;> rfl

theorem Chan.detach_detach (ch : Chan) : ch.detach.detach = ch.detach := by
  rw [ch.detach_eq]
  split
  · rfl
  · rw [ch.detach_eq, if_neg ‹_›]

theorem Tbl.get_of_not_mem {α : Type} {d : α} {k : Nat} {t : Tbl α} (h : k ∉ t.map (·.1)) : Tbl.get d k t = d := by
  induction t with
  | nil => rfl
  | cons p t ih =>
    obtain ⟨hne, hmem⟩ := List.ne_and_not_mem_of_not_mem_cons h
    rw [Tbl.get, if_neg hne, ih hmem]

/-- A channel that is in no entry of the table stands as after reset. -/
theorem Dev.chan_of_not_mem {d : Dev} {c : Nat} (h : c ∉ d.chans.map (·.1)) : d.chan c = {} := Tbl.get_of_not_mem h

/-- A fold that changes each listed channel by an operation which does nothing more the second time. -/
theorem chan_foldl_updChan {f : Chan → Chan} (hf : ∀ ch, f (f ch) = f ch) (c : Nat) (l : List Nat) (d : Dev) :
    (l.foldl (fun d i => d.updChan i f) d).chan c = if c ∈ l then f (d.chan c) else d.chan c := by
  induction l generalizing d with
  | nil => rfl
  | cons i l ih =>
    rw [List.foldl_cons, ih]
    obtain rfl | hne := eq_or_ne c i
    · rw [Dev.chan_updChan, hf, ite_self, if_pos List.mem_cons_self]
    · simp only [Dev.chan_updChan_other _ hne, List.mem_cons, hne, false_or]

theorem chan_mapChans {f : Chan → Chan} (hf : ∀ ch, f (f ch) = f ch) (h0 : f {} = {}) (d : Dev) (c : Nat) :
    (d.mapChans f).chan c = f (d.chan c) := by
  rw [Dev.mapChans, chan_foldl_updChan hf]
  split
  · rfl
  · rw [Dev.chan_of_not_mem ‹_›, h0]

theorem mapChans_frame (d : Dev) (f : Chan → Chan) : d.mapChans f = { d with chans := (d.mapChans f).chans } :=
  List.foldlRecOn (motive := fun e : Dev => e = { d with chans := e.chans }) _ _ rfl fun e he _ _ => by
    rw [he]
    rfl

/-! ### Reattachment (R411) -/

/-- What reattachment may change of a device: memory and the token stand, and a channel that was not DETACHED stays in its state, or is
blocked by a write that the host denies. -/
structure LinkBack (env : Env) (d e : Dev) : Prop where
  frame : e = { d with host := e.host, out := e.out, err := e.err, chans := e.chans, jobs := e.jobs, engines := e.engines,
                       cores := e.cores, feeds := e.feeds, plots := e.plots, ports := e.ports, detected := e.detected }
  host : HostKept d.host e.host
  heldWrites : d.host.held = false → e.host.heldWrites = d.host.heldWrites
  attached : ∀ k, (d.chan k).state ≠ .detached →
    (e.chan k).state = (d.chan k).state ∨ env.deny ≠ [] ∧ (e.chan k).state = .blocked

namespace LinkBack
variable {env : Env} {d e f : Dev}

theorem held_eq (h : LinkBack env d e) : e.host.held = d.host.held := by rw [show e.host = _ from h.host]

theorem not_detached (h : LinkBack env d e) {k : Nat} (hk : (d.chan k).state ≠ .detached) : (e.chan k).state ≠ .detached := by
  obtain he | ⟨-, he⟩ := h.attached k hk
  · rwa [he]
  · rw [he]
    exact nofun

theorem trans (h : LinkBack env d e) (k : LinkBack env e f) : LinkBack env d f where
  frame := by rw [k.frame, h.frame]
  host := by
    unfold HostKept
    rw [show f.host = _ from k.host, show e.host = _ from h.host]
  heldWrites hd := (k.heldWrites (h.held_eq.trans hd)).trans (h.heldWrites hd)
  attached c hc := (k.attached c (h.not_detached hc)).elim (fun hk => hk ▸ h.attached c hc) .inr

theorem refl (d : Dev) : LinkBack env d d := ⟨rfl, rfl, fun _ => rfl, fun _ _ => .inl rfl⟩

theorem of_hostWork (h : HostWork env d e) : LinkBack env d e := ⟨by rw [h.frame], h.host, h.heldWrites, fun k _ => h.states k⟩

theorem of_releaseWork {c : Nat} (h : ReleaseWork env c d e) : LinkBack env d e := by
  refine ⟨by rw [h.frame], h.host, h.heldWrites, fun k _ => ?_⟩
  obtain rfl | hk := eq_or_ne k c
  · exact h.state
  · exact .inl (by rw [h.other k hk])

theorem foldl {α : Type} {g : Dev → α → Dev} (h : ∀ d x, LinkBack env d (g d x)) (xs : List α) (d : Dev) :
    LinkBack env d (xs.foldl g d) :=
  List.foldlRecOn (motive := LinkBack env d) _ _ (.refl d) fun e he x _ => he.trans (h e x)

end LinkBack

theorem Chan.reattach_not_detached (ch : Chan) (halt : Bool) : (ch.reattach halt).state ≠ .detached := by
  unfold Chan.reattach
  dsimp only
  split
  · assumption
  · split
    · exact nofun
    · cases halt <;> exact nofun

/-- What a channel owes, delivered as it leaves DETACHED unless it is blocked (R411). -/
def owedDelivered (env : Env) (d : Dev) (c : Nat) : Dev := if (d.chan c).blocked then d else (deliverChannel env d c).1

theorem owedDelivered_work (env : Env) (d : Dev) (c : Nat) : HostWork env d (owedDelivered env d c) := by
  unfold owedDelivered
  split
  · exact .refl d
  · exact deliverChannel_work ..

theorem reattachChan_eq (env : Env) (halt : Bool) (d : Dev) (c : Nat) : reattachChan env halt d c =
    if (d.chan c).state ≠ .detached then d else (owedDelivered env d c).updChan c fun ch => ch.reattach halt := rfl

theorem reattachChan_linkBack (env : Env) (halt : Bool) (d : Dev) (c : Nat) : LinkBack env d (reattachChan env halt d c) := by
  have hwork := owedDelivered_work env d c
  rw [reattachChan_eq]
  split
  · exact .refl d
  next hdet =>
    refine ⟨by rw [hwork.frame]; rfl, hwork.host, hwork.heldWrites, fun k hk => ?_⟩
    have hkc : k ≠ c := fun h => hk (not_not.mp (h ▸ hdet))
    rw [Dev.chan_updChan_other _ hkc]
    exact hwork.states k

theorem reattachChan_self (env : Env) (halt : Bool) (d : Dev) (c : Nat) : ((reattachChan env halt d c).chan c).state ≠ .detached := by
  rw [reattachChan_eq]
  split
  · assumption
  · rw [Dev.chan_updChan]
    exact Chan.reattach_not_detached _ _

theorem reattachChan_cores_feeds (env : Env) (halt : Bool) (d : Dev) (c : Nat) :
    (reattachChan env halt d c).cores = d.cores ∧ (reattachChan env halt d c).feeds = d.feeds := by
  rw [reattachChan_eq]
  split
  · exact ⟨rfl, rfl⟩
  · change (owedDelivered env d c).cores = _ ∧ (owedDelivered env d c).feeds = _
    rw [(owedDelivered_work env d c).frame]
    exact ⟨rfl, rfl⟩

/-- Every channel of a list reattached. -/
def reattachAll (env : Env) (halt : Bool) (l : List Nat) (d : Dev) : Dev := l.foldl (reattachChan env halt) d

theorem reattachAll_linkBack (env : Env) (halt : Bool) (l : List Nat) (d : Dev) : LinkBack env d (reattachAll env halt l d) :=
  .foldl (reattachChan_linkBack env halt) l d

theorem reattachAll_cores_feeds (env : Env) (halt : Bool) (l : List Nat) (d : Dev) :
    (reattachAll env halt l d).cores = d.cores ∧ (reattachAll env halt l d).feeds = d.feeds :=
  List.foldlRecOn (motive := fun e : Dev => e.cores = d.cores ∧ e.feeds = d.feeds) _ _ ⟨rfl, rfl⟩ fun e he c _ => by
    obtain ⟨hcores, hfeeds⟩ := reattachChan_cores_feeds env halt e c
    exact ⟨hcores.trans he.1, hfeeds.trans he.2⟩

/-- With every channel of the table reattached none is DETACHED any more. -/
theorem reattachAll_not_detached (env : Env) (halt : Bool) (d : Dev) (c : Nat) :
    ((reattachAll env halt (d.chans.map (·.1)) d).chan c).state ≠ .detached := by
  by_cases hc : c ∈ d.chans.map (·.1)
  · exact foldl_of_mem (P := fun e : Dev => (e.chan c).state ≠ .detached) hc (fun e => reattachChan_self env halt e c)
      (fun e m he => (reattachChan_linkBack env halt e m).not_detached he) d
  · refine (reattachAll_linkBack env halt _ d).not_detached ?_
    rw [Dev.chan_of_not_mem hc]
    exact nofun

/-! ### Held host writes released (R409, R411) -/

theorem releaseCopy_work (env : Env) (d : Dev) (j : Job) (e a : Nat) (b : Bytes) (relaxed : Bool) (tc : Nat) :
    HostWork env d (releaseCopy env d j e a b relaxed tc) := by
  have hmoved : ∀ n, HostWork env d (noteMoved (writeHost d env j.id e a b relaxed tc).1 j.id e n) := fun n =>
    (writeHost_work ..).trans (noteMoved_work ..)
  unfold releaseCopy
  dsimp only
  split
  · exact hmoved _
  · exact (hmoved _).trans (accessFault_work ..)

theorem releaseLog_work (env : Env) (d : Dev) (j : Job) (b : Bytes) : HostWork env d (releaseLog env d j b) := by
  unfold releaseLog
  dsimp only
  split
  · exact accessFault_work ..
  · exact writeLog_work ..

theorem releaseHeld_work (env : Env) (d : Dev) (o : HostOut) : HostWork env d (releaseHeld env d o) := by
  unfold releaseHeld
  split
  · split
    · exact d.toHost_work env _
    · split
      · exact releaseCopy_work ..
      · exact releaseLog_work ..
  · split
    · exact .of_updChan rfl (.inl rfl)
    · exact d.toHost_work env _
  · exact d.toHost_work env _
  · exact d.msix_work env _
  · exact (ceFlush_work env d _).trans (emit_work ..)

/-- The held writes taken from the host link, to be released. -/
def Dev.dropHeld (d : Dev) : Dev := { d with host := { d.host with heldWrites := [] } }

theorem releaseWrites_work (env : Env) (d : Dev) : HostWork env d.dropHeld (releaseWrites env d) := by
  have hfold : HostWork env d.dropHeld (d.host.heldWrites.foldl (releaseHeld env) d.dropHeld) := .foldl (releaseHeld_work env) _ _
  refine hfold.trans ⟨rfl, rfl, fun _ => rfl, ?_, fun _ => rfl, fun _ => .inl rfl⟩
  exact List.map_map ..

/-! ### The steps of a reattachment in order (R411) -/

/-- The hold over, Bus Master Enable set. -/
def Dev.linkFree (d : Dev) : Dev := { d with host := { d.host with busMaster := true, held := false } }

/-- The channels' withheld results released, in the order of the table. -/
def releaseAll (env : Env) (d : Dev) : Dev := (d.chans.map (·.1)).foldl (fun d c => releaseResults env c d) d

theorem reattach_of_token {v : Nat} {env : Env} {d : Dev} (hh : d.host.held = true) (hv : bit v 32 = true)
    (ht : v % 2 ^ 32 = d.host.token.toNat) (hne : d.host.token ≠ 0) : reattach v true env d =
    (releaseAll env (releaseWrites env (reattachAll env (bit v 33) (d.chans.map (·.1)) d.linkFree))).errVector := by
  unfold reattach
  rw [if_neg (by simp [hh, hv]), if_neg (by rw [ht]; simpa [HostLink.armed] using hne)]
  rfl

theorem releaseAll_linkBack (env : Env) (d : Dev) : LinkBack env d (releaseAll env d) :=
  .foldl (fun e c => .of_releaseWork (releaseResults_release env c e)) _ d

theorem releaseAll_of_none (env : Env) {d : Dev} (h : ∀ f ∈ d.feeds, f.dstKind ≠ 1) : releaseAll env d = d :=
  List.foldlRecOn (motive := (· = d)) _ _ rfl fun e he c _ => by
    rw [he]
    exact releaseResults_of_none env c d fun f hf _ => h f hf

section
variable (env : Env) (halt : Bool) (d : Dev)

/-- The digital part as the channels are attached again and what was held is about to go out. -/
def attachedAgain : Dev := (reattachAll env halt (d.chans.map (·.1)) d.linkFree).dropHeld

/-- The digital part after a reattachment, before its queued work goes on. -/
def reattached : Dev :=
  (releaseAll env (releaseWrites env (reattachAll env halt (d.chans.map (·.1)) d.linkFree))).errVector

theorem reattached_linkBack : LinkBack env (attachedAgain env halt d) (reattached env halt d) :=
  ((LinkBack.of_hostWork (releaseWrites_work ..)).trans (releaseAll_linkBack ..)).trans (.of_hostWork (Dev.errVector_work env _))

theorem host_attachedAgain : HostKept { d.host with busMaster := true, held := false } (attachedAgain env halt d).host := by
  have hhost := (reattachAll_linkBack env halt (d.chans.map (·.1)) d.linkFree).host
  change HostKept _ { (reattachAll env halt (d.chans.map (·.1)) d.linkFree).host with heldWrites := [] }
  unfold HostKept at hhost ⊢
  rw [hhost]
  rfl

theorem reattached_keeps : (reattached env halt d).mem = d.mem ∧ (reattached env halt d).host.held = false ∧
    (reattached env halt d).host.busMaster = true ∧ (reattached env halt d).host.heldWrites = [] ∧
    (reattached env halt d).host.token = d.host.token := by
  have hback := reattached_linkBack env halt d
  have hhost := host_attachedAgain env halt d
  have hheld : (attachedAgain env halt d).host.held = false := by rw [show (attachedAgain env halt d).host = _ from hhost]
  refine ⟨?_, hback.held_eq.trans hheld, ?_, (hback.heldWrites hheld).trans rfl, ?_⟩
  · rw [hback.frame]
    change (reattachAll env halt (d.chans.map (·.1)) d.linkFree).mem = d.mem
    rw [(reattachAll_linkBack env halt (d.chans.map (·.1)) d.linkFree).frame]
    rfl
  · rw [show (reattached env halt d).host = _ from hback.host, show (attachedAgain env halt d).host = _ from hhost]
  · rw [show (reattached env halt d).host = _ from hback.host, show (attachedAgain env halt d).host = _ from hhost]

theorem reattached_not_detached (c : Nat) : ((reattached env halt d).chan c).state ≠ .detached :=
  (reattached_linkBack env halt d).not_detached (reattachAll_not_detached env halt d.linkFree c)

theorem reattached_state {c : Nat} (hn : env.deny = []) (hc : (d.chan c).state ≠ .detached) :
    ((reattached env halt d).chan c).state = (d.chan c).state := by
  have hfirst := (reattachAll_linkBack env halt (d.chans.map (·.1)) d.linkFree).attached c hc
  have hstay : ((attachedAgain env halt d).chan c).state = (d.chan c).state := hfirst.resolve_right fun h => h.1 hn
  have hlast := (reattached_linkBack env halt d).attached c (by rw [hstay]; exact hc)
  exact (hlast.resolve_right fun h => h.1 hn).trans hstay

theorem reattached_cores (h : ∀ f ∈ d.feeds, f.dstKind ≠ 1) : (reattached env halt d).cores = d.cores := by
  obtain ⟨hcores, hfeeds⟩ := reattachAll_cores_feeds env halt (d.chans.map (·.1)) d.linkFree
  have hwork := releaseWrites_work env (reattachAll env halt (d.chans.map (·.1)) d.linkFree)
  have hnone : releaseAll env (releaseWrites env (reattachAll env halt (d.chans.map (·.1)) d.linkFree)) =
      releaseWrites env (reattachAll env halt (d.chans.map (·.1)) d.linkFree) := by
    refine releaseAll_of_none env ?_
    rw [hwork.frame]
    change ∀ f ∈ (reattachAll env halt (d.chans.map (·.1)) d.linkFree).feeds, _
    rw [hfeeds]
    exact h
  rw [reattached, hnone, (Dev.errVector_work env _).mem_cores.2, hwork.mem_cores.2]
  exact hcores

end

theorem exec_reattach_go {s : State} (hl : s.live = true) {v : BitVec 64} (hd : bit v.toNat 34 = false) (bme : Bool) (env : Env) :
    exec (.reattach v bme env) s = .next (withDev s (settle s.mc (reattach v.toNat bme env s.dev))) := by
  change Host.Outcome.next (reattachWrite v.toNat bme env s) = _
  rw [reattachWrite, hl, hd, Bool.and_false, Bool.not_true, if_neg Bool.false_ne_true, if_neg Bool.false_ne_true]

end Sys2Proof.Machine

namespace Sys2Proof.Proofs
open Sys2Proof.Machine Sys2Proof.Safety

/-- Settles O31: a hold detaches every channel of the table; a reattachment attaches every channel of it again and releases what the
hold kept, and no step of it changes memory or the token (`LinkBack`). -/
theorem holdAndReattachment : Obligations.HoldAndReattachment := by
  refine ⟨⟨fun flr failed s hon hhold htok hfatal => ?_, fun flr failed s h => ?_, fun failed s => ⟨fun hl hh => ?_, fun hh => ?_⟩⟩,
    fun v env s hl hh hv hd ht hne => ?_, fun v bme env s hl hh hv hd hbad => ?_, fun v bme env s hl hh hd => ?_⟩
  · have hchan := chan_mapChans Chan.detach_detach rfl
    refine ⟨withDev s (beginHold s.dev), ?_, ?_, ?_, fun c => ?_⟩
    · change Host.Outcome.next (hostLinkDown failed s) = _
      rw [hostLinkDown, if_pos (by simpa [hhold, hfatal, HostLink.armed] using htok), if_pos hon]
    · change withDev s (beginHold s.dev) = withDev s _
      rw [beginHold, mapChans_frame]
    · change (beginHold s.dev).host = _
      rw [beginHold, mapChans_frame]
      rfl
    · refine (hchan _ c).trans ?_
      rw [Chan.detach_eq]
      rfl
  · change Host.Outcome.next (hostLinkDown failed s) = .next (resetDevice failed s)
    rw [hostLinkDown, if_neg]
    rintro hgo
    obtain h | h | h := h <;> simp [h, HostLink.armed] at hgo
  · exact congrArg Host.Outcome.next (if_pos (by simp [hl, hh]))
  · exact congrArg Host.Outcome.next (if_neg (by simp [hh]))
  · have hexec := exec_reattach_go hl hd true env
    rw [reattach_of_token hh hv ht hne] at hexec
    obtain ⟨hmem, hheld, hbus, hwrites, htoken⟩ := reattached_keeps env (bit v.toNat 33) s.dev
    exact ⟨_, hexec, hheld, hbus, hwrites, reattached_not_detached env (bit v.toNat 33) s.dev,
      fun hn c hc => reattached_state env (bit v.toNat 33) s.dev hn hc, hmem, htoken,
      fun h => reattached_cores env (bit v.toNat 33) s.dev h⟩
  · rw [exec_reattach_go hl hd]
    refine congrArg (fun d => Host.Outcome.next (withDev s (settle s.mc d))) ?_
    unfold reattach
    rw [if_neg (by simp [hh, hv]), if_pos]
    obtain h | h | h := hbad
    · simp only [Bool.or_eq_true, decide_eq_true_eq]
      exact .inl (.inl h)
    · simp [h, HostLink.armed]
    · simp [h]
  · refine congrArg Host.Outcome.next ?_
    rw [reattachWrite, if_neg (by simp [hl]), if_pos (by simp [hh, hd])]

end Sys2Proof.Proofs
end

section
/-! SUPPORT. The error ring and the device-fatal state (R438 to R443), and scans of the rake (R421 to R424). -/

namespace Sys2Proof.Machine
open Sys2Proof.Safety

/-! ### The error ring (R440, R443) -/

/-- The device with the size of its error ring set. -/
def withErrLog2 (n : Nat) (d : Dev) : Dev := { d with err := { d.err with ringLog2 := BitVec.ofNat 5 n } }

theorem setErrLog2_eq (n : Nat) (env : Env) (d : Dev) : setErrLog2 n env d =
    if d.err.ringLog2 ≠ 0 || n < 4 || 16 < n then d
    else (List.range (withErrLog2 n d).err.queue.length).foldl (fun d _ => errorRecordWrite env d) (withErrLog2 n d) := rfl

theorem setErrLog2_of_empty {d : Dev} (hr : d.err.ringLog2 = 0) (hq : d.err.queue = []) {n : Nat} (h4 : 4 ≤ n) (h16 : n ≤ 16) (env : Env) :
    setErrLog2 n env d = withErrLog2 n d := by
  have hqueue : (withErrLog2 n d).err.queue = [] := hq
  rw [setErrLog2_eq, if_neg (by simp [hr]; omega), hqueue]
  rfl

theorem setErrBase_of_none {d : Dev} (hr : d.err.ringLog2 = 0) (v : Nat) :
    setErrBase v d = { d with err := { d.err with ringBase := BitVec.ofNat 64 (v / 4096 * 4096) } } :=
  if_neg fun h => h hr

/-- A ring that is set up stays as it is (R443). -/
theorem errorRingConfigure_of_ring {d : Dev} (hr : d.err.ringLog2 ≠ 0) (base n : Nat) (env : Env) :
    setErrLog2 n env (setErrBase base d) = d := by
  rw [setErrBase, if_pos hr, setErrLog2_eq, if_pos (by simp only [Bool.or_eq_true, decide_eq_true_eq]; exact .inl (.inl hr))]

/-- The device with the queue of error records replaced. -/
def withErrQueue (d : Dev) (q : List ErrRec) : Dev := { d with err := { d.err with queue := q } }

theorem errorRecordWrite_of_room {d : Dev} {env : Env} {r : ErrRec} {rest : List ErrRec} (hq : d.err.queue = r :: rest)
    (hroom : d.errRoom = true) : errorRecordWrite env d =
      if hostDenied d env d.err.slot 64 then { withErrQueue d rest with err := (withErrQueue d rest).err.drop }
      else (writeErr (withErrQueue d rest) r).errVector := by
  unfold errorRecordWrite
  rw [hq]
  dsimp only
  rw [hroom]
  rfl

theorem Dev.held_of_errRoom {d : Dev} (h : d.errRoom = true) : d.host.held = false := by
  simp only [errRoom, Bool.and_eq_true, Bool.not_eq_true'] at h
  exact h.2

/-- The device with the count of error records written one higher. -/
def countWritten (d : Dev) : Dev := { d with err := { d.err with written := d.err.written + 1 } }

theorem writeErr_eq (d : Dev) (r : ErrRec) : writeErr d r = (countWritten d).toHost
    (.write d.err.slot (r.bytes (if bit d.err.written.toNat d.err.ringLog2.toNat then 0 else 1))) := rfl

/-- A record written counts as written; beyond that the host link and the output change. -/
theorem writeErr_frame (d : Dev) (r : ErrRec) : writeErr d r = { d with
    err := { d.err with written := d.err.written + 1 }, host := (writeErr d r).host, out := (writeErr d r).out } := by
  rw [writeErr_eq, Dev.toHost_frame]
  rfl

/-- An unmasked vector's message goes out at once where no hold keeps it (R395). -/
theorem msix_of_free {d : Dev} (hf : d.fatal = false) (hh : d.host.held = false) {v : Nat} (hm : d.host.masked.getLsbD v = false) :
    d.msix v = { d with out := d.out ++ [.host (d.msixMsg v)] } := by
  rw [Dev.msix, hm, if_neg Bool.false_ne_true, toHost_msixMsg hf hh]

/-- The record goes out, and the message on the error vector after it (R440). -/
theorem errVector_writeErr {d : Dev} (hf : d.fatal = false) (hh : d.host.held = false)
    (hm : d.host.masked.getLsbD d.host.errorVector.toNat = false) (r : ErrRec) :
    (writeErr d r).errVector = { writeErr d r with out := d.out ++
      [.host (.write d.err.slot (r.bytes (if bit d.err.written.toNat d.err.ringLog2.toNat then 0 else 1))),
       .host (d.msixMsg d.host.errorVector.toNat)] } := by
  have hhost : (writeErr d r).host = { d.host with
      heldWrites := (writeErr d r).host.heldWrites, atc := (writeErr d r).host.atc } := Dev.toHost_host (countWritten d) _
  have hfatal : (writeErr d r).fatal = false := by
    rw [writeErr_frame]
    exact hf
  have hout : (writeErr d r).out = d.out ++
      [.host (.write d.err.slot (r.bytes (if bit d.err.written.toNat d.err.ringLog2.toNat then 0 else 1)))] :=
    out_toHost (d := countWritten d) hf hh _
  have hvector : (writeErr d r).host.errorVector = d.host.errorVector := by rw [hhost]
  have hmsg : (writeErr d r).msixMsg d.host.errorVector.toNat = d.msixMsg d.host.errorVector.toNat := by
    unfold Dev.msixMsg
    rw [hhost]
  rw [Dev.errVector, hvector, msix_of_free hfatal (by rw [hhost]; exact hh) (by rw [hhost]; exact hm), hmsg, hout, List.append_assoc]
  rfl

/-! ### Device-fatal (R441) -/

/-- The last writes of the queue change the error block, the host link and the output; the sequence number stands. -/
theorem writeLast_frame (rs : List ErrRec) (d : Dev) : writeLast rs d = { d with
    err := { (writeLast rs d).err with seqNext := d.err.seqNext }, host := (writeLast rs d).host, out := (writeLast rs d).out } := by
  induction rs generalizing d with
  | nil => rfl
  | cons r rs ih =>
    rw [writeLast]
    split
    · have hw := writeErr_frame { d with err := { d.err with queue := d.err.queue.drop 1 } } r
      generalize writeErr _ r = e at hw ⊢
      rw [ih e]
      generalize writeLast rs e = f
      rw [hw]
    · rfl

/-- What the fault leaves before its message: its record in the sequence, the queue's records written or cut at 64. -/
def lastWritten (r : ErrRec) (d : Dev) : Dev :=
  let q := d.err.queue ++ [r]
  let d := writeLast q { d with err := { d.err with seqNext := d.err.seqNext + 1, queue := q } }
  if 64 < d.err.queue.length then { d with err := { d.err.drop with queue := d.err.queue.take 64 } } else d

theorem lastWritten_frame (r : ErrRec) (d : Dev) : lastWritten r d = { d with
    err := { (lastWritten r d).err with seqNext := d.err.seqNext + 1 }, host := (lastWritten r d).host, out := (lastWritten r d).out } := by
  have hw := writeLast_frame (d.err.queue ++ [r]) { d with err := { d.err with seqNext := d.err.seqNext + 1, queue := d.err.queue ++ [r] } }
  unfold lastWritten
  dsimp only
  generalize writeLast _ _ = e at hw ⊢
  split
  · rw [hw]; rfl
  · exact hw

theorem lastWritten_queue (r : ErrRec) (d : Dev) : (lastWritten r d).err.queue.length ≤ 64 := by
  unfold lastWritten
  dsimp only
  split
  · exact List.length_take_le _ _
  · omega

/-- The record of the fault that makes the device fatal. -/
def fatalRecord (st : Status) (source kind unit : Nat) (detail : Bytes) (d : Dev) : ErrRec :=
  { errRec st source 5 kind unit with seq := d.err.seqNext.toNat, detail := detail }

theorem goFatal_eq {d : Dev} (hf : d.fatal = false) (st : Status) (source kind unit : Nat) (detail : Bytes) :
    goFatal st source kind unit detail d =
      let e := lastWritten (fatalRecord st source kind unit detail d) d
      let e := if e.host.held then e else e.errVector
      { e with err := { e.err with fatalState := 2, fatalCause := st } } := by
  unfold goFatal
  rw [hf]
  rfl

theorem goFatal_result {d : Dev} (hf : d.fatal = false) (st : Status) (source kind unit : Nat) (detail : Bytes) :
    let e := goFatal st source kind unit detail d
    e = { d with err := e.err, host := e.host, out := e.out } ∧ e.fatal = true ∧ e.err.fatalCause = st ∧
      e.err.seqNext = d.err.seqNext + 1 ∧ e.err.queue.length ≤ 64 := by
  have hframe := lastWritten_frame (fatalRecord st source kind unit detail d) d
  have hqueue := lastWritten_queue (fatalRecord st source kind unit detail d) d
  rw [goFatal_eq hf]
  dsimp only
  generalize lastWritten _ d = e at hframe hqueue ⊢
  have hvector : ∀ f, f = (if e.host.held = true then e else e.errVector) → f = { e with host := f.host, out := f.out } := by
    rintro f rfl
    split
    · rfl
    · exact Dev.msix_frame ..
  specialize hvector _ rfl
  generalize (if e.host.held = true then e else e.errVector) = f at hvector ⊢
  refine ⟨?_, rfl, rfl, ?_, ?_⟩
  · rw [hvector, hframe]
  · rw [hvector, hframe]
  · rw [hvector]
    exact hqueue

/-! ### Scans of the rake (R421 to R425) -/

theorem endScans_of_none {d : Dev} (h : ∀ j ∈ d.jobs, j.desc.code ≠ 3) (verdicts still : Nat) : endScans d verdicts still = d := by
  have hnone : d.jobs.filter (fun j => j.desc.code == 0x03 && j.phase != .done) = [] :=
    List.filter_eq_nil_iff.mpr fun j hj => by simp [h j hj]
  rw [endScans, hnone]
  rfl

theorem noScan_of_codes {d : Dev} (h : ∀ j ∈ d.jobs, j.desc.code ≠ 3) :
    (d.jobs.any fun j => j.desc.code == 0x03 && j.phase != .done) = false :=
  List.any_eq_false.mpr fun j hj => by simp [h j hj]

/-- An engine with no work pending holds no count, whether or not a scan came before (R422). -/
theorem scanEntry_of_idle {d : Dev} {i : Nat} (h : pendingOf d (engineOf i) = false) (edges : List (Nat × Nat)) (first : Bool) :
    scanEntry d edges first i = ⟨progressOf d (engineOf i), 0, 0⟩ := by
  unfold scanEntry
  dsimp only
  rw [if_pos (by simp [h])]

theorem scanEntry_of_moved {d : Dev} {i : Nat} (h : progressOf d (engineOf i) ≠ (Tbl.get {} i d.rake : RakeEntry).last)
    (edges : List (Nat × Nat)) (first : Bool) : scanEntry d edges first i = ⟨progressOf d (engineOf i), 0, 0⟩ := by
  unfold scanEntry
  dsimp only
  rw [if_pos (by simp [h])]

theorem scanEntry_of_still {d : Dev} {i : Nat} (hp : pendingOf d (engineOf i) = true)
    (hv : progressOf d (engineOf i) = (Tbl.get {} i d.rake : RakeEntry).last) (edges : List (Nat × Nat)) :
    scanEntry d edges false i =
      let e : RakeEntry := Tbl.get {} i d.rake
      if blockedOn d edges i || hostWait d (engineOf i) then { e with still := e.still + 1 }
      else { last := progressOf d (engineOf i), count := e.count + 1, still := e.still + 1 } := by
  unfold scanEntry
  dsimp only
  rw [if_neg (by simp [hp, hv])]

theorem chainOf_ne_nil {edges : List (Nat × Nat)} {home n i : Nat} {l : List Nat} (h : chainOf edges home n i = some l) : l ≠ [] := by
  cases n with
  | zero => exact nomatch h
  | succ n =>
    unfold chainOf at h
    split at h
    · exact nomatch h
    · split at h
      · injection h with h
        exact h ▸ List.cons_ne_nil _ _
      · obtain ⟨m, -, rfl⟩ := Option.map_eq_some_iff.mp h
        exact List.cons_ne_nil _ _

theorem at'_tab {α : Type} {e : α} {n i : Nat} (h : i < n) (f : Nat → α) : at' e (tab n f) i = f i := by
  simp [at', tab, h]

theorem at'_tab_of_ge {α : Type} {e : α} {n i : Nat} (h : n ≤ i) (f : Nat → α) : at' e (tab n f) i = e := by
  simp [at', tab, h]

theorem ne_nil_of_mem_cycles {edges : List (Nat × Nat)} {l : List Nat} (h : l ∈ cycles edges) : l ≠ [] := by
  obtain ⟨i, -, hi⟩ := List.mem_filterMap.mp h
  obtain ⟨m, hm, hl⟩ := Option.bind_eq_some_iff.mp hi
  split at hl
  · injection hl with hl
    exact hl ▸ chainOf_ne_nil hm
  · exact nomatch hl

/-- A cycle has an engine, so none stands still for the limit where no entry does. -/
theorem no_loops {edges : List (Nat × Nat)} {still : Nat → Nat} {lim : Nat} (h : ∀ i, still i < lim) (wait : Nat → Bool) :
    (cycles edges).filter (fun l => l.all fun i => decide (lim ≤ still i) && wait i) = [] :=
  List.filter_eq_nil_iff.mpr fun l hl hall => by
    obtain ⟨i, hi⟩ := List.exists_mem_of_ne_nil l (ne_nil_of_mem_cycles hl)
    have hle := (Bool.and_eq_true_iff.mp (List.all_eq_true.mp hall i hi)).1
    exact absurd (of_decide_eq_true hle) (Nat.not_le_of_lt (h i))

/-- The device with one scan more counted and its entries replaced. -/
def scanned (entry : Nat → RakeEntry) (d : Dev) : Dev :=
  { d with err := { d.err with rakeScans := d.err.rakeScans + 1 }
           rake := (List.range engineCount).foldl (fun t i => Tbl.set {} i (entry i) t) d.rake }

theorem get_scanned (entry : Nat → RakeEntry) (d : Dev) {i : Nat} (h : i < engineCount) :
    Tbl.get {} i (scanned entry d).rake = entry i := by
  unfold scanned
  generalize engineCount = n at h
  exact Tbl.get_foldl_set {} entry h d.rake

theorem scanned_frame (entry : Nat → RakeEntry) (d : Dev) : scanned entry d = { d with
    rake := (scanned entry d).rake, err := { d.err with rakeScans := d.err.rakeScans + 1 } } := by
  unfold scanned
  generalize List.foldl _ _ _ = rake
  rfl

/-- A scan with nothing pending counts itself and sets every engine's entry to its progress (R421, R422). -/
theorem rakeScan_of_idle {d : Dev} (hi : d.err.rakeInterval ≠ 0) (hp : ∀ i, i < engineCount → pendingOf d (engineOf i) = false)
    (hj : ∀ j ∈ d.jobs, j.desc.code ≠ 3) (edges : List (Nat × Nat)) :
    rakeScan edges d = scanned (fun i => ⟨progressOf d (engineOf i), 0, 0⟩) d := by
  have hentry : ∀ i, i < engineCount → at' {} (tab engineCount (scanEntry d (edges ++ heldEdges d) (d.err.rakeScans == 0))) i =
      ⟨progressOf d (engineOf i), 0, 0⟩ := fun i hi => by
    rw [at'_tab hi, scanEntry_of_idle (hp i hi)]
  have hbeyond : ∀ i, ¬i < engineCount →
      at' {} (tab engineCount (scanEntry d (edges ++ heldEdges d) (d.err.rakeScans == 0))) i = {} :=
    fun i hi => at'_tab_of_ge (Nat.le_of_not_lt hi) _
  have hlim : 0 < d.err.limit := Nat.lt_of_lt_of_le Nat.one_pos (le_max_left ..)
  unfold rakeScan
  rw [if_neg (by simp only [Bool.and_eq_true, decide_eq_true_eq]; exact fun h => hi h.1)]
  dsimp only
  generalize tab engineCount _ = entries at hentry hbeyond ⊢
  have hstill : ∀ i, (at' {} entries i : RakeEntry).still < d.err.limit := fun i => by
    by_cases hi : i < engineCount
    · rw [hentry i hi]
      exact hlim
    · rw [hbeyond i hi]
      exact hlim
  have hstalled : (List.range engineCount).filter (fun i => decide (d.err.limit ≤ (at' {} entries i : RakeEntry).count)) = [] :=
    List.filter_eq_nil_iff.mpr fun i hi => by
      rw [hentry i (List.mem_range.mp hi), decide_eq_true_eq]
      exact Nat.not_le_of_lt hlim
  have hset : (List.range engineCount).foldl (fun t i => Tbl.set {} i (at' {} entries i) t) d.rake =
      (List.range engineCount).foldl (fun t i => Tbl.set {} i ⟨progressOf d (engineOf i), 0, 0⟩ t) d.rake :=
    List.foldl_ext _ _ _ fun t i hi => by rw [hentry i (List.mem_range.mp hi)]
  rw [hstalled, no_loops hstill, hset, List.foldl_nil, List.foldl_nil]
  exact endScans_of_none (d := scanned _ d) hj _ _

end Sys2Proof.Machine

namespace Sys2Proof.Proofs
open Sys2Proof.Machine Sys2Proof.Safety

/-- Settles O35: a record is one write and one message (`errVector_writeErr`), and of what the fatal fault leaves only the error block,
the host link and the output differ (`goFatal_result`). -/
theorem errorsAndFatalState : Obligations.ErrorsAndFatalState := by
  refine ⟨⟨fun base n env s hl hr h4 h16 hq => ?_, fun base n env s hr => ?_, fun env r rest s hl hq hroom hm => ⟨fun hd => ?_, fun hd => ?_⟩⟩,
    fun i st s hi hl => ?_⟩
  · change onDev (fun d => setErrLog2 n.toNat env (setErrBase base.toNat d)) s = _
    refine onDev_next hl ?_
    have hbase := setErrBase_of_none hr base.toNat
    have hring := setErrLog2_of_empty (d := setErrBase base.toNat s.dev) (by rw [hbase]; exact hr) (by rw [hbase]; exact hq) h4 h16 env
    rw [hring, hbase, withErrLog2, BitVec.ofNat_toNat, BitVec.setWidth_eq]
  · change onDev (fun d => setErrLog2 n.toNat env (setErrBase base.toNat d)) s = _
    exact onDev_same (errorRingConfigure_of_ring hr base.toNat n.toNat env)
  · have hexec : exec (.errorRecordWrite env) s = .next (withDev s (writeErr (withErrQueue s.dev rest) r).errVector) :=
      onDev_next hl (by rw [errorRecordWrite_of_room hq hroom, hd]; rfl)
    refine ⟨_, hexec, ?_, ?_⟩
    · have hv := Dev.msix_frame (writeErr (withErrQueue s.dev rest) r) (writeErr (withErrQueue s.dev rest) r).host.errorVector.toNat
      have hw := writeErr_frame (withErrQueue s.dev rest) r
      rw [Dev.errVector]
      generalize Dev.msix _ _ = e at hv ⊢
      generalize writeErr _ _ = f at hw hv
      rw [hv, hw]
      rfl
    · change (writeErr (withErrQueue s.dev rest) r).errVector.out = _
      rw [errVector_writeErr (d := withErrQueue s.dev rest) (State.fatal_of_live hl) (Dev.held_of_errRoom hroom) hm]
      rfl
  · refine onDev_next hl ?_
    rw [errorRecordWrite_of_room hq hroom, if_pos hd]
    rfl
  · have hf := State.fatal_of_live hl
    have hgo : ∀ source kind unit detail, ∃ t, onDev (goFatal st source kind unit detail) s = .next t ∧
        t = { s with dev := { s.dev with err := t.dev.err, host := t.dev.host, out := t.dev.out } } ∧
        t.dev.fatal = true ∧ t.dev.err.fatalCause = st ∧ t.dev.err.seqNext = s.dev.err.seqNext + 1 ∧ t.dev.err.queue.length ≤ 64 :=
      fun source kind unit detail => by
        obtain ⟨hframe, hrest⟩ := goFatal_result hf st source kind unit detail
        exact ⟨_, onDev_next hl rfl, congrArg (withDev s) hframe, hrest⟩
    obtain ⟨rfl, rfl⟩ | ⟨⟨crossing, rfl⟩, rfl⟩ := hi
    · exact hgo 9 8 0xFFFF []
    · cases crossing
      · exact hgo 4 5 0xFFFF (toLe 1 7)
      · exact hgo 1 5 0xFFFF []

/-- Settles O36: with nothing pending every entry is the engine's progress (`rakeScan_of_idle`), and an entry's three cases are
`scanEntry`'s branches. -/
theorem rakeScans : Obligations.RakeScans := by
  refine ⟨fun edges s hi hj => ?_, fun edges s hl hi hp _ hj => ?_, fun d edges i => ⟨fun h => ?_, fun hp hv hb hw => ?_, fun hp hv hw => ?_⟩⟩
  · refine onDev_same (if_pos ?_)
    rw [noScan_of_codes hj, hi]
    rfl
  · refine ⟨_, onDev_next hl (rakeScan_of_idle hi hp hj edges), congrArg (withDev s) (scanned_frame _ s.dev), fun i hi => ?_⟩
    exact get_scanned _ s.dev hi
  · rcases h with h | h
    · rw [scanEntry_of_idle h]
    · rw [scanEntry_of_moved h]
  · rw [scanEntry_of_still hp hv]
    dsimp only
    rw [if_neg (by simp [hb, hw])]
  · rw [scanEntry_of_still hp hv]
    dsimp only
    rw [if_pos hw]

end Sys2Proof.Proofs
end

section
/-! SUPPORT. The BAR4 window, debug mode, and reads of the debug window (R511, R514, R515, R520, R521). -/

namespace Sys2Proof.Machine
open Sys2Proof.Safety

/-! ### Writes through BAR4 (R366, R515) -/

/-- The first `n` bytes of a write that are stored. -/
def bar4Stored (o : Nat) (b : Bytes) (n : Nat) (d : Dev) : Dev :=
  (List.range n).foldl (fun d i => if bar4Stores (o + i) then d.setLocalByte (o + i) (at' 0 b i) else d) d

theorem bar4Stored_succ (o : Nat) (b : Bytes) (n : Nat) (d : Dev) : bar4Stored o b (n + 1) d =
    if bar4Stores (o + n) then (bar4Stored o b n d).setLocalByte (o + n) (at' 0 b n) else bar4Stored o b n d := by
  simp only [bar4Stored, List.range_succ, List.foldl_append, List.foldl_cons, List.foldl_nil]

theorem bar4Stored_frame (o : Nat) (b : Bytes) (n : Nat) (d : Dev) :
    bar4Stored o b n d = { d with mem := (bar4Stored o b n d).mem } := by
  induction n with
  | zero => rfl
  | succ n ih =>
    rw [bar4Stored_succ]
    split
    · exact Dev.setMem_trans ih (Dev.setLocalByte_frame ..)
    · exact ih

/-- HBM outside the device regions is what a write through BAR4 stores. -/
theorem bar4Stores_iff (o : Nat) : bar4Stores o = true ↔ ∃ c r, regionOf o = (.hbm c, r) ∧ inDeviceRegion r = false := by
  unfold bar4Stores
  split
  case h_1 c r h => simp [h]
  case h_2 h =>
    simp only [Bool.false_eq_true, false_iff]
    rintro ⟨c, r, hr, -⟩
    exact h c r hr

/-- There a byte reads as the memory holds it. -/
theorem localByte_of_bar4Stores {o : Nat} (h : bar4Stores o = true) (d : Dev) : d.localByte o = Tbl.get unlistedByte o d.mem := by
  obtain ⟨c, r, hr, hd⟩ := (bar4Stores_iff o).mp h
  simp [Dev.localByte, hr, hd]

theorem mem_setLocalByte_of_bar4Stores {o : Nat} (h : bar4Stores o = true) (d : Dev) (b : Byte) :
    (d.setLocalByte o b).mem = Tbl.set unlistedByte o b d.mem := by
  obtain ⟨c, r, hr, hd⟩ := (bar4Stores_iff o).mp h
  simp [Dev.setLocalByte, hr, hd]

theorem get_bar4Stored (o : Nat) (b : Bytes) (n : Nat) (d : Dev) (x : Nat) : Tbl.get unlistedByte x (bar4Stored o b n d).mem =
    if o ≤ x ∧ x < o + n ∧ bar4Stores x = true then at' 0 b (x - o) else Tbl.get unlistedByte x d.mem := by
  induction n with
  | zero => rw [if_neg (by omega)]; rfl
  | succ n ih =>
    rw [bar4Stored_succ]
    obtain rfl | hx := eq_or_ne x (o + n)
    · rw [if_neg (by omega)] at ih
      by_cases hs : bar4Stores (o + n) = true
      · rw [if_pos hs, mem_setLocalByte_of_bar4Stores hs, Tbl.get_set_self, if_pos ⟨by omega, by omega, hs⟩, Nat.add_sub_cancel_left]
      · rw [if_neg hs, if_neg fun h => hs h.2.2, ih]
    · have hiff : (o ≤ x ∧ x < o + (n + 1) ∧ bar4Stores x = true) ↔ (o ≤ x ∧ x < o + n ∧ bar4Stores x = true) := by
        constructor <;> rintro ⟨h1, h2, h3⟩ <;> exact ⟨h1, by omega, h3⟩
      rw [if_congr hiff rfl rfl, ← ih]
      split
      · exact Dev.get_setLocalByte _ hx
      · rfl

theorem localByte_bar4Stored_of_stored {o : Nat} {b : Bytes} {i : Nat} (hi : i < b.length) (hs : bar4Stores (o + i) = true) (d : Dev) :
    (bar4Stored o b b.length d).localByte (o + i) = at' 0 b i := by
  rw [localByte_of_bar4Stores hs, get_bar4Stored, if_pos ⟨by omega, by omega, hs⟩, Nat.add_sub_cancel_left]

theorem localByte_bar4Stored_of_other {o a : Nat} {b : Bytes} (h : a < o ∨ o + b.length ≤ a ∨ bar4Stores a = false) (d : Dev) :
    (bar4Stored o b b.length d).localByte a = d.localByte a := by
  rw [bar4Stored_frame]
  refine Dev.localByte_congr ?_
  rw [get_bar4Stored, if_neg ?_]
  rintro ⟨h1, h2, h3⟩
  rcases h with h | h | h
  · omega
  · omega
  · exact absurd (h3.symm.trans h) (by decide)

/-- A write counted: once in the window's counter where it reaches graph memory, and once as a bad access where it reaches anything
else that is not stored. -/
def bar4Counted (o n : Nat) (d : Dev) : Dev :=
  let d := if (tab n fun i => o + i).any inGraphMem then { d with windowWrites := d.windowWrites + 1 } else d
  if (tab n fun i => o + i).any fun o => !bar4Stores o && !inGraphMem o then { d with badAccess := laneAdd32 d.badAccess 1 1 } else d

theorem bar4Counted_frame (o n : Nat) (d : Dev) : bar4Counted o n d =
    { d with windowWrites := (bar4Counted o n d).windowWrites, badAccess := (bar4Counted o n d).badAccess } := by
  unfold bar4Counted
  split <;> split <;> rfl

theorem any_tab (n : Nat) (f : Nat → Nat) (p : Nat → Bool) : (tab n f).any p = true ↔ ∃ i, i < n ∧ p (f i) = true := by
  simp [tab]

theorem windowWrites_bar4Counted (o n : Nat) (d : Dev) : (bar4Counted o n d).windowWrites =
    d.windowWrites + (if ∃ i, i < n ∧ inGraphMem (o + i) = true then 1 else 0) := by
  have hbad : ∀ e : Dev, (if (tab n fun i => o + i).any fun o => !bar4Stores o && !inGraphMem o then
      { e with badAccess := laneAdd32 e.badAccess 1 1 } else e).windowWrites = e.windowWrites := fun e => by split <;> rfl
  rw [bar4Counted, hbad]
  by_cases h : ∃ i, i < n ∧ inGraphMem (o + i) = true
  · rw [if_pos h, if_pos ((any_tab ..).mpr h)]
  · rw [if_neg h, if_neg fun h' => h ((any_tab ..).mp h')]
    exact (BitVec.add_zero _).symm

theorem badAccess_bar4Counted {o n : Nat} (h : ∀ i, i < n → bar4Stores (o + i) = true ∨ inGraphMem (o + i) = true) (d : Dev) :
    (bar4Counted o n d).badAccess = d.badAccess := by
  unfold bar4Counted
  rw [if_neg]
  · split <;> rfl
  · rw [any_tab]
    rintro ⟨i, hi, hb⟩
    rcases h i hi with h | h <;> simp [h] at hb

theorem bar4Write_of_fits {x : Nat} {b : Bytes} {d : Dev} (h : x + b.length ≤ 2 ^ d.host.bar4Log2) :
    bar4Write x b d = bar4Counted (d.bar4Local x) b.length (bar4Stored (d.bar4Local x) b b.length d) :=
  if_neg (Nat.not_lt.mpr h)

/-! ### Reads through BAR4 (R515) -/

theorem bar4Byte_of_stores {o : Nat} (h : bar4Stores o = true) (d : Dev) : bar4Byte d o = d.localByte o := by
  obtain ⟨c, r, hr, hd⟩ := (bar4Stores_iff o).mp h
  simp [bar4Byte, hr, hd]

/-- Outside debug mode the device regions, and all that is neither HBM nor in the hub, read zero. -/
theorem bar4Byte_of_other {o : Nat} {d : Dev} (h : bar4Stores o = false) (hd : d.debugOn = false) (hh : ∀ r, regionOf o ≠ (.hub, r)) :
    bar4Byte d o = 0 := by
  unfold bar4Byte
  split
  case h_1 c r hr => simp_all [bar4Stores]
  case h_2 r hr => exact absurd hr (hh r)
  case h_3 => rw [hd]; rfl
  case h_4 => rw [hd]; rfl
  case h_5 => rfl

/-! ### Debug mode (R520) -/

theorem leaveDebug_of_idle {d : Dev} (he : d.debugEnable = false) (h : ∀ j ∈ d.jobs, j.desc.code = 0xF0 → j.ended = true) :
    leaveDebug d = { d with debugOn := false } := by
  have hnone : (d.jobs.any fun j => j.desc.code == 0xF0 && !j.ended) = false := List.any_eq_false.mpr fun j hj => by
    by_cases hc : j.desc.code = 0xF0 <;> simp [hc, h j hj]
  rw [leaveDebug, he, hnone]
  rfl

theorem leaveDebug_of_reading {d : Dev} (h : ∃ j ∈ d.jobs, j.desc.code = 0xF0 ∧ j.ended = false) : leaveDebug d = d := by
  obtain ⟨j, hj, hc, he⟩ := h
  have hany : (d.jobs.any fun j => j.desc.code == 0xF0 && !j.ended) = true := List.any_eq_true.mpr ⟨j, hj, by simp [hc, he]⟩
  rw [leaveDebug, hany, if_neg (by simp)]

/-! ### The debug window (R511, R521) -/

/-- An effect on a core's registers alone. -/
theorem windowEffect_frame (d : Dev) (o : Nat) : windowEffect d o = { d with cores := (windowEffect d o).cores } ∧
    ∀ n, (windowEffect d o).core n = { d.core n with regs := ((windowEffect d o).core n).regs } := by
  have hregs : ∀ f : Core → Core, (∀ c, f c = { c with regs := (f c).regs }) → ∀ n k,
      (d.updCore n f).core k = { d.core k with regs := ((d.updCore n f).core k).regs } := fun f hf n k => by
    obtain rfl | hk := eq_or_ne k n
    · rw [Dev.core_updCore]
      exact hf _
    · rw [Dev.core_updCore_other _ hk]
  unfold windowEffect
  dsimp only
  split
  · exact ⟨rfl, fun _ => rfl⟩
  · split
    · exact ⟨rfl, hregs _ (fun _ => rfl) _⟩
    · exact ⟨rfl, hregs _ (fun _ => rfl) _⟩

theorem regRead_window (mc : Mc) (d : Dev) {o : Nat} (ho : o < 0x10000) (h8 : o % 8 = 0) :
    regRead mc d (0xC10000 + o) = some (windowWord d o) := by
  unfold regRead
  rw [if_neg (by omega), if_neg (by omega), if_neg (by omega), if_neg (by simp; omega), if_neg (by omega), if_neg (by simp; omega),
    if_neg (by simp; omega), if_neg (by simp; omega), if_neg (by simp; omega), if_neg (by simp; omega), if_neg (by simp; omega),
    if_neg (by simp; omega), if_neg (by omega), if_pos (by simp; omega), Nat.add_sub_cancel_left]

theorem flushReg_window (o : Nat) : flushReg (0xC10000 + o) = none := if_neg (by simp; omega)

theorem regReadFx_window (mc : Mc) (d : Dev) {o : Nat} (ho : o < 0x10000) (h8 : o % 8 = 0) :
    regReadFx mc d (0xC10000 + o) = (windowEffect d o, windowWord d o) := by
  rw [regReadFx, regRead_window mc d ho h8, flushReg_window]
  dsimp only
  rw [if_pos (by simp; omega), Nat.add_sub_cancel_left]

theorem bar0Read_of_8 (mc : Mc) {a : Nat} (h : a % 8 = 0) (d : Dev) :
    bar0Read mc a 8 d = (regReadFx mc d a).1.emit (.readValue (toLe 8 (regReadFx mc d a).2)) := if_pos (by simp [h])

theorem bar0Read_of_4 (mc : Mc) {a : Nat} (h : a % 4 = 0) (d : Dev) :
    bar0Read mc a 4 d = (regReadFx mc d (a / 8 * 8)).1.emit (.readValue (slice (toLe 8 (regReadFx mc d (a / 8 * 8)).2) (a % 8) 4)) :=
  (if_neg (by simp)).trans (if_pos (by simp [h]))

theorem bar0Read_of_bad (mc : Mc) {a n : Nat} (h8 : ¬(n = 8 ∧ a % 8 = 0)) (h4 : ¬(n = 4 ∧ a % 4 = 0)) (d : Dev) :
    bar0Read mc a n d = (badBar0 d).emit (.readValue (List.replicate n 0#8)) :=
  (if_neg (by simpa using h8)).trans (if_neg (by simpa using h4))

theorem exec_debugWindowRead {s : State} (hp : s.mc.pwr.state = .on) {o : Nat} (ho : o < 0x10000) (n : Nat) :
    exec (.debugWindowRead o n) s = .next (withDev s (bar0Read s.mc (0xC10000 + o) n s.dev)) := by
  change execDebugWindowRead o n s = _
  rw [execDebugWindowRead, onAny_on hp, if_neg (by omega)]

/-- What a read of the window leaves: the selected core's registers, and the value put out. -/
theorem emit_windowEffect (d : Dev) (o : Nat) (v : Out) : (windowEffect d o).emit v = { d with
    cores := ((windowEffect d o).emit v).cores, out := d.out ++ [v] } := by
  have h := (windowEffect_frame d o).1
  generalize windowEffect d o = e at h ⊢
  rw [h]
  rfl

end Sys2Proof.Machine

namespace Sys2Proof.Proofs
open Sys2Proof.Machine Sys2Proof.Safety

/-- Settles O38: a write through BAR4 is `bar4Stored` and then `bar4Counted`; a read of the debug window puts out `windowWord`
(`regRead_window`) and touches one core's registers (`windowEffect_frame`). -/
theorem windowsAndDebugMode : Obligations.WindowsAndDebugMode := by
  refine ⟨⟨fun x b s hl hx => ?write, fun x n s hl hx => ?read, fun n s hl => ?resize⟩, fun s hl hp hd => ?permitted,
    fun s hl hp hd => ?barred, fun s hl hd => ?again, fun s hl hj => ?left, fun s hl hj => ?reading,
    fun o s hp ho h8 => ?window8, fun o s hp ho h4 => ?window4, fun o n s hp ho h8 h4 => ?bad⟩
  case write =>
    intro o
    have hexec : exec (.bar4Write x b) s = .next (withDev s (bar4Counted o b.length (bar4Stored o b b.length s.dev))) :=
      onDev_next hl (bar4Write_of_fits hx)
    have hstored := bar4Stored_frame o b b.length s.dev
    have hcounted := bar4Counted_frame o b.length (bar4Stored o b b.length s.dev)
    have hbyte : ∀ a, (bar4Counted o b.length (bar4Stored o b b.length s.dev)).localByte a = (bar4Stored o b b.length s.dev).localByte a :=
      fun a => by
        rw [hcounted]
        rfl
    refine ⟨_, hexec, congrArg (withDev s) ?_, fun i hi hs => (hbyte _).trans (localByte_bar4Stored_of_stored hi hs s.dev),
      fun a _ ha => (hbyte a).trans (localByte_bar4Stored_of_other ha s.dev), ?_, fun h => ?_⟩
    · generalize bar4Stored o b b.length s.dev = e at hstored hcounted ⊢
      rw [hcounted, hstored]
    · refine (windowWrites_bar4Counted ..).trans ?_
      rw [hstored]
    · refine (badAccess_bar4Counted h _).trans ?_
      rw [hstored]
  case read =>
    intro o
    refine ⟨tab n fun i => bar4Byte s.dev (o + i), onDev_next hl (if_neg (Nat.not_lt.mpr hx)), by simp [tab], fun i hi => ?_⟩
    rw [at'_tab hi]
    exact ⟨fun hs => bar4Byte_of_stores hs s.dev, fun hs _ hd hh => bar4Byte_of_other hs hd hh⟩
  case resize =>
    refine onDev_next hl ?_
    by_cases h : 30 ≤ n ∧ n ≤ 40
    · rw [if_pos h, bar4Resize, if_neg (by simp; omega)]
    · rw [if_neg h, bar4Resize, if_pos (by simp; omega)]
  case permitted => exact onDev_next hl ((if_neg (by simp)).trans ((if_neg (by simp [hd])).trans (if_pos hp)))
  case barred => exact onDev_next hl ((if_neg (by simp)).trans ((if_neg (by simp [hd])).trans (if_neg (by simp [hp]))))
  case again => exact onDev_next hl ((if_neg (by simp)).trans (if_pos hd))
  case left => exact onDev_next hl (leaveDebug_of_idle (d := { s.dev with debugEnable := false }) rfl hj)
  case reading => exact onDev_next hl (leaveDebug_of_reading (d := { s.dev with debugEnable := false }) hj)
  case window8 =>
    have hread := exec_debugWindowRead hp ho 8
    rw [bar0Read_of_8 _ (by omega), regReadFx_window _ _ ho h8] at hread
    exact ⟨_, _, hread, regRead_window s.mc s.dev ho h8, congrArg (withDev s) (emit_windowEffect ..), (windowEffect_frame s.dev o).2⟩
  case window4 =>
    have hword : (0xC10000 + o) / 8 * 8 = 0xC10000 + o / 8 * 8 := by omega
    have hhalf : (0xC10000 + o) % 8 = o % 8 := by omega
    have hread := exec_debugWindowRead hp ho 4
    rw [bar0Read_of_4 _ (by omega), hword, hhalf, regReadFx_window _ _ (by omega) (by omega)] at hread
    exact ⟨_, _, hread, regRead_window s.mc s.dev (by omega) (by omega), congrArg (withDev s) (emit_windowEffect ..),
      (windowEffect_frame s.dev _).2⟩
  case bad =>
    rw [exec_debugWindowRead hp ho, bar0Read_of_bad _ (by omega) (by omega)]
    rfl

end Sys2Proof.Proofs
end

section
/-! SUPPORT. A port's links: coming up, HELLO, sending within credits, frames received and sent again (R464 to R473). -/

namespace Sys2Proof.Machine
open Sys2Proof.Safety
variable {d e f : Dev} {pn : Nat}

theorem mode_toNat_ne {m : BitVec 2} {n : Nat} (h : n < 4) : m.toNat ≠ n ↔ m ≠ BitVec.ofNat 2 n := by
  rw [not_iff_not]
  constructor
  · rintro rfl
    simp
  · rintro rfl
    simpa using h

theorem Dev.updPort_congr {d : Dev} {pn : Nat} {g h : Port → Port} (hgh : g (d.port pn) = h (d.port pn)) : d.updPort pn g = d.updPort pn h := by
  unfold updPort
  rw [hgh]

theorem Dev.port_emit (d : Dev) (o : Out) (k : Nat) : (d.emit o).port k = d.port k := rfl

theorem port_updPort_twice (g h : Port → Port) : ((d.updPort pn g).updPort pn h).port pn = h (g (d.port pn)) := by
  rw [Dev.port_updPort, Dev.port_updPort]

theorem port_updPort_twice_other {k : Nat} (hk : k ≠ pn) (g h : Port → Port) : ((d.updPort pn g).updPort pn h).port k = d.port k := by
  rw [Dev.port_updPort_other _ hk, Dev.port_updPort_other _ hk]

/-! ### Sending within credits (R470, R471) -/

theorem length_takeUnits (u : TxUnit) (room : Nat) (q : List TxUnit) :
    ((takeUnits u room q).1.map (·.bytes)).flatten.length ≤ room := by
  induction q generalizing room with
  | nil => exact Nat.zero_le _
  | cons v vs ih =>
    unfold takeUnits
    split
    · exact ih room
    · split
      next h =>
        have hv : v.bytes.length ≤ room := by simp at h; exact h.2
        have hrest := ih (room - v.bytes.length)
        simp only [List.map_cons, List.flatten_cons, List.length_append]
        omega
      · exact Nat.zero_le _

/-- A port that has sent a frame of a class. -/
def Port.sent (p : Port) (f : TxFrame) (rest : List TxUnit) : Port :=
  { p with txq := rest, unacked := p.unacked ++ [f], nextSeq := p.nextSeq + 1,
           credits := setAt p.credits f.cls (at' 0 p.credits f.cls - f.blocks), progress := p.progress + 1 }

/-- A frame that a port may send now: its class and its number, and no more blocks than the class holds. -/
structure Port.MaySend (p : Port) (f : TxFrame) : Prop where
  seq : f.seq = p.nextSeq.toNat
  blocks : f.blocks = frameBlocks f.units.length
  credit : f.blocks ≤ at' 0 p.credits f.cls
  length : f.units.length ≤ 8192

/-- An attempt to send does nothing, or sends one frame that may be sent (R470). -/
theorem sendClass_cases (pn : Nat) (d : Dev) (cls : Nat) : sendClass pn d cls = d ∨
    ∃ f rest, f.cls = cls ∧ (d.port pn).state = .up ∧ (d.port pn).MaySend f ∧
      sendClass pn d cls = (d.updPort pn fun _ => (d.port pn).sent f rest).emit (.frame pn lcpType ((d.port pn).dataFrame f)) := by
  unfold sendClass
  dsimp only
  split
  · exact .inl rfl
  next u _ =>
    split
    · exact .inl rfl
    next hfree =>
      simp only [Bool.or_eq_true, decide_eq_true_eq, not_or, Nat.not_lt, ne_eq, not_not] at hfree
      obtain ⟨⟨⟨hup, -⟩, hcredit⟩, -⟩ := hfree
      exact .inr ⟨_, _, rfl, hup, ⟨rfl, rfl, hcredit, length_takeUnits ..⟩, rfl⟩

/-! ### What work at a port keeps -/

/-- Of a port, only what waits, what is sent, and the credits and counts of it differ. -/
def PortKept (p q : Port) : Prop :=
  q = { p with txq := q.txq, unacked := q.unacked, nextSeq := q.nextSeq, credits := q.credits, progress := q.progress,
               freed := q.freed, rx := q.rx }

theorem PortKept.refl (p : Port) : PortKept p p := rfl

theorem PortKept.trans {p q r : Port} (h : PortKept p q) (k : PortKept q r) : PortKept p r := by
  unfold PortKept at *
  rw [k, h]

/-- Work at the links of the ports `P`: the other ports stand, and beyond the ports only cores, descriptors and the output differ. -/
structure LinkWork (P : Nat → Prop) (d e : Dev) : Prop where
  frame : e = { d with ports := e.ports, cores := e.cores, jobs := e.jobs, out := e.out }
  others : ∀ k, ¬P k → e.port k = d.port k
  kept : ∀ k, PortKept (d.port k) (e.port k)

namespace LinkWork
variable {P : Nat → Prop}

theorem refl (d : Dev) : LinkWork P d d := ⟨rfl, fun _ _ => rfl, fun _ => rfl⟩

theorem trans (h : LinkWork P d e) (k : LinkWork P e f) : LinkWork P d f where
  frame := by rw [k.frame, h.frame]
  others n hn := (k.others n hn).trans (h.others n hn)
  kept n := (h.kept n).trans (k.kept n)

theorem foldl {α : Type} {g : Dev → α → Dev} (h : ∀ d x, LinkWork P d (g d x)) (xs : List α) (d : Dev) : LinkWork P d (xs.foldl g d) := by
  induction xs generalizing d with
  | nil => exact refl d
  | cons x xs ih => exact (h d x).trans (ih _)

theorem of_samePorts (hf : e = { d with cores := e.cores, jobs := e.jobs, out := e.out }) : LinkWork P d e := by
  have hport : ∀ k, e.port k = d.port k := fun k => by rw [hf]; rfl
  exact ⟨by rw [hf], fun k _ => hport k, fun k => hport k ▸ .refl _⟩

theorem of_updPort {g : Port → Port} (hn : P pn) (hg : PortKept (d.port pn) (g (d.port pn))) : LinkWork P d (d.updPort pn g) where
  frame := rfl
  others k hk := Dev.port_updPort_other d (fun h => hk (by rw [h]; exact hn)) g
  kept k := by
    obtain rfl | hk := eq_or_ne k pn
    · rw [Dev.port_updPort]
      exact hg
    · rw [Dev.port_updPort_other d hk]
      exact .refl _

end LinkWork

theorem Port.take_kept (p : Port) (u : RxUnit) : PortKept p (p.take u) := by
  unfold Port.take
  dsimp only
  split <;> rfl

section
variable {P : Nat → Prop} (hn : P pn)
include hn

theorem sendClass_linkWork (d : Dev) (cls : Nat) : LinkWork P d (sendClass pn d cls) := by
  rcases sendClass_cases pn d cls with h | ⟨f, rest, -, -, -, h⟩
  · rw [h]
    exact .refl d
  · rw [h]
    exact (LinkWork.of_updPort hn (by exact rfl)).trans (.of_samePorts rfl)

theorem pump_linkWork (d : Dev) : LinkWork P d (pump d pn) :=
  .foldl (fun d _ => .foldl (sendClass_linkWork hn) _ d) _ d

theorem sendReport_linkWork (d : Dev) (type : Nat) : LinkWork P d (sendReport d pn type) := by
  unfold sendReport
  dsimp only
  split
  · exact .refl d
  · exact (LinkWork.of_updPort hn (by exact rfl)).trans (.of_samePorts rfl)

theorem takeUnit_linkWork (d : Dev) (u : RxUnit) : LinkWork P d (d.takeUnit pn u) := by
  have htake : LinkWork P d (d.updPort pn fun p => p.take u) := .of_updPort hn (Port.take_kept ..)
  unfold Dev.takeUnit
  dsimp only
  split
  · exact htake
  · exact htake.trans (sendReport_linkWork hn ..)

theorem deliverChain_linkWork (us : List RxUnit) (stopped : List Nat) (d : Dev) : LinkWork P d (deliverChain pn us stopped d) := by
  induction us generalizing stopped d with
  | nil => exact .refl d
  | cons u us ih =>
    unfold deliverChain
    dsimp only
    generalize 2 * u.plot + _ = lane
    split
    · exact ih ..
    · split
      · exact ih ..
      · split
        · exact ih ..
        · split
          · exact ((takeUnit_linkWork hn d u).trans (.of_samePorts rfl)).trans (ih ..)
          · exact ih ..

end

/-- Nothing waits to be sent, so nothing is. -/
theorem pump_of_empty (h : (d.port pn).txq = []) : pump d pn = d := by
  have hclass : ∀ cls, sendClassAll pn d cls = d := fun cls => by
    unfold sendClassAll
    rw [h]
    rfl
  simp only [pump, List.foldl_cons, List.foldl_nil, hclass]

/-! ### Coming up (R464, R465, R472) -/

theorem portEnable_of_configured (hs : (d.port pn).state = .disabled) (hm : (d.port pn).mode = 1 ∨ (d.port pn).mode = 2)
    (hsplit : pn % 2 = 0 ∨ (d.port (pn - pn % 2)).split = true) :
    portEnable pn d = d.updPort pn fun x => { x with state := .training, dgramSeq := 0 } := by
  refine if_neg ?_
  rcases hm with hm | hm <;> rcases hsplit with h | h <;> simp [hs, hm, h, Dev.isSplit]

theorem portEnable_of_refused (h : (d.port pn).state ≠ .disabled ∨ (d.port pn).mode = 0 ∨ (d.port pn).mode = 3) : portEnable pn d = d := by
  refine if_pos ?_
  rcases h with h | h | h <;> simp [h]

theorem pcsAlignment_of_record (hs : (d.port pn).state = .training ∨ (d.port pn).state = .lost) (hm : (d.port pn).mode ≠ 1) :
    pcsAlignment pn d = d.updPort pn fun x => { x with state := .up } := by
  have hmode : ¬(d.port pn).mode.toNat = 1 := (mode_toNat_ne (by decide)).mpr hm
  exact (if_neg (by rcases hs with h | h <;> simp [h])).trans (if_neg hmode)

/-- A port in training. -/
def Port.trained (p : Port) : Port := { p with state := .training }

/-- A port that has sent or heard a HELLO. -/
def Port.heard (p : Port) : Port := { p with progress := p.progress + 1 }

/-- The body of the HELLO that a port sends. -/
def helloBody (d : Dev) (pn : Nat) : Bytes :=
  toLe 2 d.deviceId ++ toLe 1 pn ++ toLe 5 0 ++ toLe 2 (d.port pn).session.toNat ++
    (tab 4 fun _ => toLe 2 (d.classBlocks pn)).flatten ++ toLe 14 0

theorem sendHello_eq (d : Dev) (pn : Nat) : sendHello d pn = (d.updPort pn Port.heard).emit
    (.frame pn lcpType (lcpFrame 3 0 0 0 0 d.deviceId 0xFFFF [] (d.port pn).session.toNat (helloBody d pn))) := rfl

theorem pcsAlignment_of_link (hs : (d.port pn).state = .training ∨ (d.port pn).state = .lost) (hm : (d.port pn).mode = 1) :
    pcsAlignment pn d = sendHello (d.updPort pn Port.trained) pn :=
  (if_neg (by rcases hs with h | h <;> simp [h])).trans (if_pos (by simp [hm]))

theorem deviceId_helloBody (d : Dev) (pn : Nat) : field (helloBody d pn) 0 2 = d.deviceId % 2 ^ 16 := by
  simp only [helloBody, List.append_assoc]
  exact field_mid [] _ rfl 2 _

theorem session_helloBody (d : Dev) (pn : Nat) : field (helloBody d pn) 8 2 = (d.port pn).session.toNat := by
  have hlen : (toLe 2 d.deviceId ++ (toLe 1 pn ++ toLe 5 0)).length = 8 := by simp [length_toLe]
  have hfield := field_mid _ ((tab 4 fun _ => toLe 2 (d.classBlocks pn)).flatten ++ toLe 14 0) hlen 2 (d.port pn).session.toNat
  rw [Nat.mod_eq_of_lt (by exact (d.port pn).session.isLt)] at hfield
  simpa only [helloBody, List.append_assoc] using hfield

/-! ### A HELLO (R472) -/

/-- A port whose session begins by a HELLO. -/
def Port.greeted (f : Bytes) (p : Port) : Port :=
  { p.begin ((max p.session.toNat (field f 0x28 2) + 1) % 65536) (tab 4 fun i => field f (0x2A + 2 * i) 2) with
    peer := BitVec.ofNat 16 (field f 0x20 2) }

/-- A port whose HELLO names another device than the expected one. -/
def Port.mismatched (f : Bytes) (p : Port) : Port := { p with peer := BitVec.ofNat 16 (field f 0x20 2), status := setBit p.status 2 }

theorem hello_eq {f : Bytes} (hm : (d.port pn).mode = 1) (hs : (d.port pn).state = .training) (hok : lcpOk f = true)
    (h0 : field f 0 1 = 1) (h1 : field f 1 1 = 3) : hello pn f d =
      if !(d.port pn).expectAny && field f 0x20 2 ≠ (d.port pn).expectDevice.toNat
      then (d.updPort pn Port.heard).updPort pn (Port.mismatched f)
      else ((d.updPort pn Port.heard).updPort pn (Port.greeted f)).settleRoutes (·.down) := by
  have hsame : ((d.updPort pn Port.heard).updPort pn fun p =>
      { p.begin ((max (d.port pn).session.toNat (field f 0x28 2) + 1) % 65536) (tab 4 fun i => field f (0x2A + 2 * i) 2) with
        peer := BitVec.ofNat 16 (field f 0x20 2) }) = (d.updPort pn Port.heard).updPort pn (Port.greeted f) := by
    refine Dev.updPort_congr ?_
    rw [Dev.port_updPort]
    rfl
  unfold hello
  dsimp only
  rw [if_neg (by simp [hm, hs, hok, h0, h1]), ← hsame]
  rfl

theorem settleRoutes_frame (d : Dev) (g : Route → Bool) : d.settleRoutes g = { d with routes := (d.settleRoutes g).routes } := rfl

/-- A port changed twice: of the device, only its ports differ. -/
theorem updPort_twice_frame (g h : Port → Port) : (d.updPort pn g).updPort pn h = { d with ports := ((d.updPort pn g).updPort pn h).ports } := rfl

end Sys2Proof.Machine

namespace Sys2Proof.Proofs
open Sys2Proof.Machine Sys2Proof.Safety

/-- Settles O39: each command is one branch of `portEnable`, `pcsAlignment` or `hello` (`hello_eq`). -/
theorem linksComeUp : Obligations.LinksComeUp := by
  refine ⟨fun p s hl => ?_, fun p e f s hl hm hs he hok h0 h1 => ?_⟩
  · intro q
    refine ⟨fun hs hm hsplit => onDev_next hl (portEnable_of_configured hs hm hsplit), fun h => onDev_same (portEnable_of_refused h),
      fun hs hm => onDev_next hl (pcsAlignment_of_record hs hm), fun hs hm => ?_⟩
    have hport : (s.dev.updPort p.val Port.trained).port p.val = q.trained := Dev.port_updPort ..
    have hexec : exec (.pcsAlignment p) s = .next (withDev s (sendHello (s.dev.updPort p.val Port.trained) p.val)) :=
      onDev_next hl (pcsAlignment_of_link hs hm)
    have hframe := updPort_twice_frame (d := s.dev) (pn := p.val) Port.trained Port.heard
    have hbusy := port_updPort_twice (d := s.dev) (pn := p.val) Port.trained Port.heard
    have hother := fun k (hk : k ≠ p.val) => port_updPort_twice_other (d := s.dev) hk Port.trained Port.heard
    have hid := deviceId_helloBody (s.dev.updPort p.val Port.trained) p.val
    have hsession := session_helloBody (s.dev.updPort p.val Port.trained) p.val
    rw [sendHello_eq, hport] at hexec
    rw [hport] at hsession
    generalize helloBody _ _ = body at hexec hid hsession
    generalize Dev.updPort (Dev.updPort _ _ _) _ _ = e at hexec hbusy hother hframe
    refine ⟨_, body, hexec, congrArg (withDev s) ?_, hbusy, hid, hsession, hother⟩
    rw [hframe]
    rfl
  · intro q
    have hexec : exec (.hello p e) s = .next (withDev s (hello p.val f s.dev)) := by
      change onDev (fun d => (lcpPayload e).elim d fun f => hello p.val f d) s = _
      exact onDev_next hl (by rw [he]; rfl)
    rw [hello_eq hm hs hok h0 h1] at hexec
    by_cases hp : q.expectAny = true ∨ field f 0x20 2 = q.expectDevice.toNat
    · rw [if_neg (by rcases hp with h | h <;> simp [q] at h <;> simp [h])] at hexec
      have hport := port_updPort_twice (d := s.dev) (pn := p.val) Port.heard (Port.greeted f)
      refine ⟨_, hexec, congrArg (withDev s) ?_, fun k hk => port_updPort_twice_other hk .., fun _ => ?_, fun hany hne => ?_⟩
      · have hframe := updPort_twice_frame (d := s.dev) (pn := p.val) Port.heard (Port.greeted f)
        generalize Dev.updPort _ _ _ = e at hframe ⊢
        have hsettled := settleRoutes_frame e (·.down)
        generalize Dev.settleRoutes _ _ = r at hsettled ⊢
        rw [hsettled, hframe]
      · intro r
        have hr : r = ((s.dev.port p.val).heard).greeted f := hport
        rw [hr]
        refine ⟨rfl, ?_, rfl, rfl, rfl, rfl, rfl, rfl⟩
        exact BitVec.eq_of_toNat_eq (by simp [Port.greeted, Port.begin, Port.heard, q])
      · rcases hp with h | h
        · exact absurd (h.symm.trans hany) (by decide)
        · exact absurd h hne
    · rw [not_or, Bool.not_eq_true] at hp
      rw [if_pos (by simp only [Bool.and_eq_true, Bool.not_eq_true', decide_eq_true_eq]; exact hp)] at hexec
      have hport := port_updPort_twice (d := s.dev) (pn := p.val) Port.heard (Port.mismatched f)
      have hother := fun k (hk : k ≠ p.val) => port_updPort_twice_other (d := s.dev) hk Port.heard (Port.mismatched f)
      have hframe := updPort_twice_frame (d := s.dev) (pn := p.val) Port.heard (Port.mismatched f)
      generalize Dev.updPort _ _ _ = e at hexec hport hother hframe
      refine ⟨_, hexec, congrArg (withDev s) (by rw [hframe]), hother, fun h => ?_, fun _ _ => ⟨hport, by rw [hframe]⟩⟩
      rcases h with h | h
      · exact absurd (h.symm.trans hp.1) (by decide)
      · exact absurd h hp.2

/-- Settles O40: an attempt that sends is one frame within the class's credits (`sendClass_cases`). -/
theorem creditsBoundSending : Obligations.CreditsBoundSending := by
  intro pn cls d hcls t q
  rcases sendClass_cases pn d cls with h | ⟨f, rest, rfl, -, ⟨hseq, hblocks, hcredit, hlen⟩, h⟩
  · exact .inl h
  · have ht : t = (d.updPort pn fun _ => q.sent f rest).emit (.frame pn lcpType (q.dataFrame f)) := h
    have hport : t.port pn = q.sent f rest := by
      rw [ht, Dev.port_emit, Dev.port_updPort]
    have hset : at' 0 (q.sent f rest).credits f.cls = at' 0 q.credits f.cls - f.blocks := by
      simp [Port.sent, setAt, at', q, hcls]
    refine .inr ⟨f, rfl, hseq, hblocks, hcredit, ?_, ?_, ?_, ?_, fun k hk => ?_, hlen⟩
    · rw [hport, hset]
      exact Nat.sub_add_cancel hcredit
    · rw [hport]
      rfl
    · rw [hport]
      rfl
    · rw [ht]
      rfl
    · rw [ht, Dev.port_emit, Dev.port_updPort_other _ hk]

end Sys2Proof.Proofs
end

section
/-! SUPPORT. Frames received on a chain link, and frames sent again (R468, R470, R471). -/

namespace Sys2Proof.Machine
open Sys2Proof.Safety
variable {d e : Dev} {pn : Nat} {f : Bytes}

/-! ### An acknowledgement (R470, R471) -/

/-- Only cores and descriptors differ. -/
def SenderTold (d e : Dev) : Prop := e = { d with cores := e.cores, jobs := e.jobs }

theorem SenderTold.trans {a b c : Dev} (h : SenderTold a b) (k : SenderTold b c) : SenderTold a c := by
  unfold SenderTold at *
  rw [k, h]

theorem SenderTold.port_eq (h : SenderTold d e) (k : Nat) : e.port k = d.port k := by
  rw [show e = _ from h]
  rfl

theorem senderAcked_told (d : Dev) (x : TxSender) : SenderTold d (senderAcked d x) := by
  cases x <;> rfl

theorem senderAcked_foldl_told (xs : List TxSender) (d : Dev) : SenderTold d (xs.foldl senderAcked d) :=
  List.foldlRecOn (motive := SenderTold d) _ _ rfl fun _ he x _ => he.trans (senderAcked_told _ x)

/-- The port takes the ACK and the CREDITS; beyond it only the senders' cores and descriptors learn of it. -/
theorem acknowledge_told (d : Dev) (pn : Nat) (f : Bytes) : SenderTold (d.updPort pn fun p => p.acknowledge f) (d.acknowledge pn f) :=
  senderAcked_foldl_told ..

theorem port_acknowledge (d : Dev) (pn : Nat) (f : Bytes) : (d.acknowledge pn f).port pn = (d.port pn).acknowledge f := by
  rw [(acknowledge_told d pn f).port_eq, Dev.port_updPort]

theorem port_acknowledge_other {k : Nat} (hk : k ≠ pn) (d : Dev) (f : Bytes) : (d.acknowledge pn f).port k = d.port k := by
  rw [(acknowledge_told d pn f).port_eq, Dev.port_updPort_other _ hk]

theorem acknowledge_frame (d : Dev) (pn : Nat) (f : Bytes) : d.acknowledge pn f =
    { d with ports := (d.acknowledge pn f).ports, cores := (d.acknowledge pn f).cores, jobs := (d.acknowledge pn f).jobs } := by
  have h := acknowledge_told d pn f
  generalize d.acknowledge pn f = e at h ⊢
  rw [show e = _ from h]
  rfl

/-! ### A DATA frame (R467, R470, R471) -/

theorem Port.accept_kept (p : Port) (f : Bytes) : p.accept f =
    { p with cnt := (p.accept f).cnt, freed := (p.accept f).freed, rx := (p.accept f).rx } := by
  unfold Port.accept
  dsimp only
  split <;> rfl

/-- A port that has taken the next DATA frame in sequence. -/
def Port.next (p : Port) : Port := { p with expectSeq := p.expectSeq + 1, nakSent := false }

/-- A frame of this device put into its port's receive buffer. -/
def acceptedAt (pn : Nat) (f : Bytes) (d : Dev) : Dev :=
  ((d.acknowledge pn f).updPort pn Port.next).updPort pn fun p => p.accept f

theorem acceptedAt_frame (d : Dev) : acceptedAt pn f d =
    { d with ports := (acceptedAt pn f d).ports, cores := (acceptedAt pn f d).cores, jobs := (acceptedAt pn f d).jobs } := by
  have h := acknowledge_frame d pn f
  unfold acceptedAt
  generalize d.acknowledge pn f = e at h ⊢
  have hports := updPort_twice_frame (d := e) (pn := pn) Port.next fun p => p.accept f
  generalize Dev.updPort (Dev.updPort _ _ _) _ _ = g at hports ⊢
  rw [hports, h]

theorem port_acceptedAt (d : Dev) : (acceptedAt pn f d).port pn = ((d.port pn).acknowledge f).next.accept f := by
  rw [acceptedAt, port_updPort_twice, port_acknowledge]

theorem port_acceptedAt_other {k : Nat} (hk : k ≠ pn) (d : Dev) : (acceptedAt pn f d).port k = d.port k := by
  rw [acceptedAt, port_updPort_twice_other hk, port_acknowledge_other hk]

theorem lcpData_of_next (hc : (d.port pn).current f = true) (hok : lcpOk f = true) (h1 : field f 1 1 = 0)
    (hseq : field f 4 4 = (d.port pn).expectSeq.toNat) (hdst : field f 0xE 2 = d.deviceId) :
    lcpData pn f true d = pump (sendReport ((acceptedAt pn f d).deliverPort pn) pn 1) pn := by
  have hid : ((d.acknowledge pn f).updPort pn Port.next).deviceId = d.deviceId := by
    rw [acknowledge_frame]
    rfl
  unfold lcpData
  dsimp only
  rw [if_neg (by simp [hc, hok, h1, hseq])]
  exact congrArg (fun e => pump (sendReport e pn 1) pn) (if_pos (hdst.trans hid.symm))

/-- A frame out of sequence, damaged or of another session is answered with a NAK (R471). -/
theorem lcpData_of_other {ok : Bool} (h : ok = false ∨ lcpOk f = false ∨ (d.port pn).current f = false ∨
    field f 4 4 ≠ (d.port pn).expectSeq.toNat) : lcpData pn f ok d = sendNak d pn := by
  refine if_pos ?_
  rcases h with h | h | h | h <;> simp [h]

theorem sendNak_of_quiet (h : (d.port pn).nakSent = true ∨ (d.port pn).state ≠ .up ∨ (d.port pn).mode ≠ 1) : sendNak d pn = d := by
  refine if_pos ?_
  rcases h with h | h | h
  · simp [h]
  · simp [h]
  · simp [(mode_toNat_ne (n := 1) (by decide)).mpr h]

/-- A port whose NAK is sent. -/
def Port.nakked (p : Port) : Port := { p with nakSent := true }

theorem sendNak_of_up (hn : (d.port pn).nakSent = false) (hs : (d.port pn).state = .up) (hm : (d.port pn).mode = 1) :
    sendNak d pn = ((d.updPort pn Port.nakked).updPort pn Port.heard).emit (.frame pn lcpType (lcpFrame 2 0 0 0
      (d.port pn).expectSeq.toNat d.deviceId (d.port pn).peer.toNat (d.port pn).freed (d.port pn).session.toNat [])) := by
  have hport : (d.updPort pn Port.nakked).port pn = (d.port pn).nakked := Dev.port_updPort ..
  have hreport : sendReport (d.updPort pn Port.nakked) pn 2 = ((d.updPort pn Port.nakked).updPort pn Port.heard).emit
      (.frame pn lcpType (lcpFrame 2 0 0 0 ((d.updPort pn Port.nakked).port pn).expectSeq.toNat d.deviceId
        ((d.updPort pn Port.nakked).port pn).peer.toNat ((d.updPort pn Port.nakked).port pn).freed
        ((d.updPort pn Port.nakked).port pn).session.toNat [])) :=
    if_neg (by rw [hport]; simpa [Port.nakked] using hs)
  rw [hport] at hreport
  exact (if_neg (by simp [hn, hs, hm])).trans hreport

/-! ### Frames sent again (R471) -/

/-- A port that has sent one frame again. -/
def Port.resent (p : Port) : Port := { p with status := setBit p.status 1, cnt := laneBump p.cnt 1, progress := p.progress + 1 }

/-- One unacknowledged frame sent again. -/
def resend (pn : Nat) (d : Dev) (f : TxFrame) : Dev :=
  (d.updPort pn Port.resent).emit (.frame pn lcpType (((d.updPort pn Port.resent).port pn).dataFrame f))

theorem retransmit_eq (d : Dev) (pn : Nat) : retransmit d pn = (d.port pn).unacked.foldl (resend pn) d := rfl

theorem resend_eq (d : Dev) (f : TxFrame) :
    resend pn d f = (d.updPort pn Port.resent).emit (.frame pn lcpType ((d.port pn).dataFrame f)) := by
  rw [resend, Dev.port_updPort]
  rfl

/-- After frames are sent again: each is put out in its order as the port sends it now, and of the port only its counts differ. -/
structure Resent (pn : Nat) (fs : List TxFrame) (d e : Dev) : Prop where
  frame : e = { d with ports := e.ports, out := d.out ++ fs.map fun f => .frame pn lcpType ((d.port pn).dataFrame f) }
  port : e.port pn = { d.port pn with status := (e.port pn).status, cnt := (e.port pn).cnt, progress := (e.port pn).progress }
  others : ∀ k, k ≠ pn → e.port k = d.port k

theorem resend_foldl (pn : Nat) (fs : List TxFrame) (d : Dev) : Resent pn fs d (fs.foldl (resend pn) d) := by
  induction fs generalizing d with
  | nil => exact ⟨by simp, rfl, fun _ _ => rfl⟩
  | cons f fs ih =>
    obtain ⟨hframe, hport, hothers⟩ := ih (resend pn d f)
    have hstep : (resend pn d f).port pn = (d.port pn).resent := by rw [resend_eq, Dev.port_emit, Dev.port_updPort]
    have hone : resend pn d f = { d with
        ports := (resend pn d f).ports, out := d.out ++ [.frame pn lcpType ((d.port pn).dataFrame f)] } := by
      rw [resend_eq]
      rfl
    have hsame : ∀ g, ((resend pn d f).port pn).dataFrame g = (d.port pn).dataFrame g := fun g => by
      rw [hstep]
      rfl
    rw [List.foldl_cons]
    generalize fs.foldl (resend pn) (resend pn d f) = e at hframe hport hothers ⊢
    refine ⟨?_, ?_, fun k hk => ?_⟩
    · simp only [hsame] at hframe
      generalize resend pn d f = g at hframe hone
      rw [hframe, hone, List.map_cons, List.append_assoc]
      rfl
    · rw [hport, hstep]
      rfl
    · rw [hothers k hk, resend_eq, Dev.port_emit, Dev.port_updPort_other _ hk]

/-! ### CONTROL, NAK and the timer -/

/-- A CONTROL frame for a port with nothing waiting applies its ACK and CREDITS (R470). -/
theorem lcpReport_of_control (hc : (d.port pn).current f = true) (hok : lcpOk f = true) (hq : (d.port pn).txq = [])
    (h1 : field f 1 1 = 1) : lcpReport pn f false d = d.acknowledge pn f := by
  have hempty : ((d.acknowledge pn f).port pn).txq = [] := by
    rw [port_acknowledge]
    exact hq
  exact (if_neg (by simp [hc, hok, h1])).trans (pump_of_empty hempty)

/-- A NAK for a port with nothing waiting has the frames that it does not acknowledge sent again (R471). -/
theorem lcpReport_of_nak (hc : (d.port pn).current f = true) (hok : lcpOk f = true) (hq : (d.port pn).txq = [])
    (h1 : field f 1 1 = 2) : lcpReport pn f true d = retransmit (d.acknowledge pn f) pn := by
  have hport : ((retransmit (d.acknowledge pn f) pn).port pn).txq = [] := by
    rw [retransmit_eq, (resend_foldl pn _ _).port, port_acknowledge]
    exact hq
  exact (if_neg (by simp [hc, hok, h1])).trans (pump_of_empty hport)

/-- A port whose retransmission timer has expired once more. -/
def Port.retried (p : Port) : Port := { p with retries := p.retries + 1 }

theorem retransmitTimer_of_limit (hs : (d.port pn).state = .up) (hm : (d.port pn).mode = 1) (hu : (d.port pn).unacked ≠ [])
    (h : max 1 (d.port pn).retryLimit.toNat ≤ (d.port pn).retries + 1) : retransmitTimer pn d = loseLink d pn :=
  (if_neg (by simp [hs, hm, hu])).trans (if_pos h)

theorem retransmitTimer_of_retry (hs : (d.port pn).state = .up) (hm : (d.port pn).mode = 1) (hu : (d.port pn).unacked ≠ [])
    (h : (d.port pn).retries + 1 < max 1 (d.port pn).retryLimit.toNat) :
    retransmitTimer pn d = retransmit (d.updPort pn Port.retried) pn :=
  (if_neg (by simp [hs, hm, hu])).trans (if_neg (Nat.not_le_of_lt h))

end Sys2Proof.Machine

namespace Sys2Proof.Proofs
open Sys2Proof.Machine Sys2Proof.Safety

/-- Settles O41: the next DATA frame is `acceptedAt` and then work at its link (`LinkWork`); a NAK and the timer send again what is
unacknowledged (`resend_foldl`). -/
theorem framesReceived : Obligations.FramesReceived := by
  have hdata : ∀ (p : Fin 16) (e f : Bytes) (ok : Bool) (s : State), s.live = true → lcpPayload e = some f →
      exec (.lcpData p e ok) s = .next (withDev s (lcpData p.val f ok s.dev)) := fun p e f ok s hl he => by
    change onDev (lcpReceived p.val e ok) s = _
    exact onDev_next hl (by rw [lcpReceived, he])
  have hreport : ∀ (p : Fin 16) (e f : Bytes) (nak : Bool) (s : State), s.live = true → lcpPayload e = some f →
      onDev (fun d => (lcpPayload e).elim d fun f => lcpReport p.val f nak d) s = .next (withDev s (lcpReport p.val f nak s.dev)) :=
    fun p e f nak s hl he => onDev_next hl (by rw [he]; rfl)
  refine ⟨fun p e f s hl he hc hok h1 hseq hdst => ?accepted, fun p e f ok s hl he hbad => ⟨fun hq => ?quiet, fun hn hs hm => ?nak⟩,
    fun p e f s hl he hc hok hq => ?report, fun i p e s hi he => ?none, fun p s hl hs hm hu => ?timer⟩
  case accepted =>
    have hexec := hdata p e f true s hl he
    rw [lcpData_of_next hc hok h1 hseq hdst] at hexec
    have hframe := acceptedAt_frame (pn := p.val) (f := f) s.dev
    have hport := port_acceptedAt (pn := p.val) (f := f) s.dev
    have hother := fun k (hk : k ≠ p.val) => port_acceptedAt_other (f := f) hk s.dev
    generalize acceptedAt p.val f s.dev = a at hexec hframe hport hother
    have hwork : LinkWork (· = p.val) a (pump (sendReport (a.deliverPort p.val) p.val 1) p.val) :=
      ((deliverChain_linkWork (P := (· = p.val)) rfl ..).trans (sendReport_linkWork (P := (· = p.val)) rfl ..)).trans
        (pump_linkWork (P := (· = p.val)) rfl _)
    generalize pump _ _ = b at hexec hwork
    have hkept : PortKept (a.port p.val) (b.port p.val) := hwork.kept _
    unfold PortKept at hkept
    rw [hport, Port.accept_kept] at hkept
    refine ⟨_, hexec, congrArg (withDev s) (by rw [hwork.frame, hframe]), ?_, ?_, fun k hk => (hwork.others k hk).trans (hother k hk)⟩
    · exact congrArg Port.expectSeq hkept
    · exact congrArg Port.nakSent hkept
  case quiet =>
    change onDev (lcpReceived p.val e ok) s = _
    exact onDev_same (by rw [lcpReceived, he]; exact (lcpData_of_other hbad).trans (sendNak_of_quiet hq))
  case nak =>
    intro q
    have hexec := hdata p e f ok s hl he
    rw [lcpData_of_other hbad, sendNak_of_up hn hs hm] at hexec
    have hframe := updPort_twice_frame (d := s.dev) (pn := p.val) Port.nakked Port.heard
    have hport := port_updPort_twice (d := s.dev) (pn := p.val) Port.nakked Port.heard
    have hother := fun k (hk : k ≠ p.val) => port_updPort_twice_other (d := s.dev) hk Port.nakked Port.heard
    generalize Dev.updPort (Dev.updPort _ _ _) _ _ = a at hexec hframe hport hother
    refine ⟨_, hexec, congrArg (withDev s) ?_, hport, hother⟩
    rw [hframe]
    rfl
  case report =>
    intro q
    refine ⟨rfl, fun h1 => (hreport p e f false s hl he).trans (by rw [lcpReport_of_control hc hok hq h1]), fun h1 => ?_⟩
    have hexec := hreport p e f true s hl he
    rw [lcpReport_of_nak hc hok hq h1, retransmit_eq] at hexec
    have hresent := resend_foldl p.val ((s.dev.acknowledge p.val f).port p.val).unacked (s.dev.acknowledge p.val f)
    rw [port_acknowledge] at hexec hresent
    have hframe := acknowledge_frame s.dev p.val f
    have hack := port_acknowledge s.dev p.val f
    have hother := fun k (hk : k ≠ p.val) => port_acknowledge_other (f := f) hk s.dev
    generalize s.dev.acknowledge p.val f = a at hexec hresent hframe hack hother
    generalize List.foldl _ _ _ = b at hexec hresent
    obtain ⟨hb, hport, hothers⟩ := hresent
    refine ⟨_, hexec, congrArg (withDev s) ?_, ?_, fun k hk => (hothers k hk).trans (hother k hk)⟩
    · rw [hack] at hb
      rw [hb, hframe]
      rfl
    · rw [hack] at hport
      have hunacked := congrArg Port.unacked hport
      exact hunacked
  case none =>
    simp only [List.mem_cons, List.not_mem_nil, or_false] at hi
    rcases hi with rfl | rfl | rfl | rfl
    · change onDev (fun d => (lcpPayload e).elim d fun f => hello p.val f d) s = _
      exact onDev_same (by rw [he]; rfl)
    · change onDev (lcpReceived p.val e true) s = _
      exact onDev_same (by rw [lcpReceived, he]; rfl)
    · change onDev (fun d => (lcpPayload e).elim d fun f => lcpReport p.val f true d) s = _
      exact onDev_same (by rw [he]; rfl)
    · change onDev (fun d => (lcpPayload e).elim d fun f => lcpReport p.val f false d) s = _
      exact onDev_same (by rw [he]; rfl)
  case timer =>
    intro q
    refine ⟨fun hr => ?_, fun hr => ?_⟩
    · have hexec : exec (.lcpRetransmitTimer p) s = .next (withDev s (retransmit (s.dev.updPort p.val Port.retried) p.val)) :=
        onDev_next hl (retransmitTimer_of_retry hs hm hu hr)
      have hport : (s.dev.updPort p.val Port.retried).port p.val = q.retried := Dev.port_updPort ..
      rw [retransmit_eq] at hexec
      have hresent := resend_foldl p.val ((s.dev.updPort p.val Port.retried).port p.val).unacked (s.dev.updPort p.val Port.retried)
      rw [hport] at hexec hresent
      have hframe : s.dev.updPort p.val Port.retried = { s.dev with ports := (s.dev.updPort p.val Port.retried).ports } := rfl
      generalize s.dev.updPort p.val Port.retried = a at hexec hresent hport hframe
      generalize List.foldl _ _ _ = b at hexec hresent
      obtain ⟨hb, hlast, -⟩ := hresent
      rw [hport] at hb hlast
      have hretries := congrArg Port.retries hlast
      have hunacked := congrArg Port.unacked hlast
      refine ⟨_, hexec, congrArg (withDev s) ?_, hretries, hunacked⟩
      rw [hb, hframe]
      rfl
    · have hexec : exec (.lcpRetransmitTimer p) s = .next (withDev s (loseLink s.dev p.val)) :=
        onDev_next hl (retransmitTimer_of_limit hs hm hu hr)
      have hlost : exec (.linkLost p) s = .next (withDev s (loseLink s.dev p.val)) := by
        change onDev (fun d => loseLink d p.val) s = _
        exact onDev_next hl rfl
      rw [hexec, hlost]

end Sys2Proof.Proofs
end

section
/-! SUPPORT. Lost links, port resets and the routing table (R424, R466, R473, R474, R485). -/

namespace Sys2Proof.Machine
open Sys2Proof.Safety
variable {d e f : Dev} {pn : Nat}

/-! ### Requests answered because their link is lost (R457, R474) -/

/-- What a lost link's answers change of a device, beside its pending requests and the results that waited for them. -/
def LossOnly (d e : Dev) : Prop :=
  e = { d with jobs := e.jobs, surv := e.surv, err := e.err, host := e.host, out := e.out, feeds := e.feeds, restartWait := e.restartWait }

theorem LossOnly.trans (h : LossOnly d e) (k : LossOnly e f) : LossOnly d f := by
  unfold LossOnly at *
  rw [k, h]

theorem LossOnly.foldl {α : Type} {g : Dev → α → Dev} (h : ∀ d x, LossOnly d (g d x)) (xs : List α) (d : Dev) : LossOnly d (xs.foldl g d) :=
  List.foldlRecOn (motive := LossOnly d) _ _ rfl fun _ he x _ => he.trans (h _ x)

theorem report_lossOnly (d : Dev) (r : ErrRec) : LossOnly d (d.report r) := by
  unfold LossOnly
  rw [Dev.report_frame]

theorem surv_lossOnly (d : Dev) (x : Survive) : LossOnly d { d with surv := x } := rfl

/-- The device whose mirror copy is lost. -/
def copyLost (d : Dev) : Dev := { d with surv := { d.surv with valid := false, lost := true } }

theorem mirrorFails_lossOnly (d : Dev) (plot : Nat) : LossOnly d (d.mirrorFails plot) := by
  unfold Dev.mirrorFails
  dsimp only
  split
  · exact LossOnly.trans (e := copyLost d) rfl (report_lossOnly ..)
  · rfl

theorem updJob_lossOnly (d : Dev) (id : Nat) (g : Job → Job) : LossOnly d (d.updJob id g) := rfl

theorem countLost_lossOnly (d : Dev) : LossOnly d d.countLost := surv_lossOnly d _

theorem markLost_lossOnly (d : Dev) (j : Job) : LossOnly d (markLost d j) :=
  ((mirrorFails_lossOnly d (j.desc.op 0x28 2)).trans (countLost_lossOnly _)).trans (updJob_lossOnly ..)

theorem recordLost_lossOnly (d : Dev) (j : Job) : LossOnly d (recordLost d j) := by
  have h := mirrorFails_lossOnly d (updateOps j.desc).plot
  unfold recordLost
  dsimp only
  generalize d.mirrorFails _ = e at h ⊢
  split
  · exact h
  · exact (h.trans (countLost_lossOnly e)).trans (updJob_lossOnly ..)

/-- A mark whose request failed is lost, unless it is done already (R457). -/
theorem markAnswered_lossOnly {st : Status} (hst : st ≠ 0) (d : Dev) (id kind : Nat) : LossOnly d (markAnswered d id kind st) := by
  unfold markAnswered
  split
  · rfl
  next j _ =>
    split
    · rfl
    · exact (markLost_lossOnly d j).trans (updJob_lossOnly ..)

/-- The device with a request no longer pending. -/
def withoutTag (d : Dev) (tag : Nat) : Dev := { d with pendings := d.pendings.filter fun q => q.tag ≠ tag }

/-- A request that fails leaves the pending list; the rest is its descriptor's and the mirror's (R457, R474). -/
theorem answered_lossOnly {st : Status} (hst : st ≠ 0) (d : Dev) (p : Pending) : LossOnly (withoutTag d p.tag) (answered d p st) := by
  have hfirst : LossOnly (withoutTag d p.tag)
      ((withoutTag d p.tag).updJob p.job fun j => { j with wait := j.wait.filter (· ≠ p.tag) }) := updJob_lossOnly ..
  unfold answered
  dsimp only
  rw [withoutTag] at hfirst ⊢
  generalize Dev.updJob _ _ _ = e at hfirst ⊢
  split
  · split
    · exact hfirst.trans (mirrorFails_lossOnly ..)
    · exact hfirst
  · split
    · exact hfirst.trans (markAnswered_lossOnly hst ..)
    · split
      · exact hfirst.trans (recordLost_lossOnly ..)
      · exact hfirst.trans (updJob_lossOnly ..)

theorem lost_ne_zero (p : Pending) : p.lost ≠ 0 := by
  unfold Pending.lost
  split <;> decide

/-! ### Results accepted because their write's link is lost (R232) -/

/-- What a link's loss leaves of the rest: memory stands, no request comes to be pending, no port's state or registers change. -/
structure LossWork (d e : Dev) : Prop where
  mem : e.mem = d.mem
  pendings : ∀ q ∈ e.pendings, q ∈ d.pendings
  kept : ∀ k, PortKept (d.port k) (e.port k)

namespace LossWork

theorem refl (d : Dev) : LossWork d d := ⟨rfl, fun _ h => h, fun _ => rfl⟩

theorem trans (h : LossWork d e) (k : LossWork e f) : LossWork d f :=
  ⟨k.mem.trans h.mem, fun q hq => h.pendings q (k.pendings q hq), fun n => (h.kept n).trans (k.kept n)⟩

theorem foldl {α : Type} {g : Dev → α → Dev} (h : ∀ d x, LossWork d (g d x)) (xs : List α) (d : Dev) : LossWork d (xs.foldl g d) :=
  List.foldlRecOn (motive := LossWork d) _ _ (refl d) fun _ he x _ => he.trans (h _ x)

theorem of_samePorts (hm : e.mem = d.mem) (hq : e.pendings = d.pendings) (hp : e.ports = d.ports) : LossWork d e :=
  ⟨hm, fun q h => hq ▸ h, fun k => by rw [Dev.port, Dev.port, hp]; rfl⟩

theorem of_lossOnly (h : LossOnly d e) : LossWork d e := of_samePorts (by rw [h]) (by rw [h]) (by rw [h])

theorem of_linkWork {P : Nat → Prop} (h : LinkWork P d e) : LossWork d e :=
  ⟨by rw [h.frame], fun q hq => by rw [h.frame] at hq; exact hq, h.kept⟩

end LossWork

theorem sendUnit_linkWork (d : Dev) (dst kind plot : Nat) (body : Bytes) (sender : TxSender) :
    LinkWork (fun _ => True) d (sendUnit d dst kind plot body sender) := by
  unfold sendUnit
  split
  · exact .refl d
  · exact LinkWork.trans (.of_updPort trivial (by exact rfl)) (pump_linkWork trivial _)

theorem sendAcceptUnit_linkWork (d : Dev) (dst plot stream seq : Nat) : LinkWork (fun _ => True) d (sendAcceptUnit d dst plot stream seq) := by
  unfold sendAcceptUnit
  dsimp only
  split
  · exact .refl d
  · split
    · exact LinkWork.trans (.of_updPort trivial (by exact rfl)) (pump_linkWork trivial _)
    · exact sendUnit_linkWork ..

theorem acceptRecord_lossWork (d : Dev) (pid : Nat) (p : Plot) (src : Src) (stream seq : Nat) (st : Status) (nf : NFlags) :
    LossWork d (acceptRecord d pid p src stream seq st nf) := by
  have hcount : LossWork d (countAccepted d src st nf) := .of_samePorts rfl rfl rfl
  unfold acceptRecord
  dsimp only
  split
  · refine hcount.trans ?_
    unfold Dev.updPlot
    split
    · exact .refl _
    · exact .of_samePorts rfl rfl rfl
  · exact hcount.trans (.of_linkWork (sendAcceptUnit_linkWork ..))

theorem acceptPacked_lossWork (d : Dev) (t : TxResult) : LossWork d (acceptPacked d t) := by
  have hcore : LossWork d (if t.core < 256 then d.updCore t.core fun c => c.accepted t.row else d) := by
    split
    · exact .of_samePorts rfl rfl rfl
    · exact .refl d
  unfold acceptPacked
  dsimp only
  generalize (if t.core < 256 then d.updCore t.core fun c => c.accepted t.row else d) = e at hcore ⊢
  split
  · exact hcore.trans (acceptRecord_lossWork ..)
  · exact hcore.trans (.of_samePorts rfl rfl rfl)

/-- The results that wait outside their cores, one tag answered. -/
def resultsWithout (d : Dev) (tag : Nat) : List (List Nat × TxResult) := d.remoteResults.map fun r => (r.1.filter (· ≠ tag), r.2)

/-- The device with only those results waiting that still await an answer. -/
def stillWaiting (d : Dev) (tag : Nat) : Dev := { d with remoteResults := (resultsWithout d tag).filter fun r => !r.1.isEmpty }

theorem resultAnswered_eq (d : Dev) (tag : Nat) : resultAnswered d tag =
    (((resultsWithout d tag).filter fun r => r.1.isEmpty).map (·.2)).foldl acceptPacked (stillWaiting d tag) := rfl

theorem resultAnswered_lossWork (d : Dev) (tag : Nat) : LossWork d (resultAnswered d tag) := by
  rw [resultAnswered_eq]
  exact LossWork.trans (e := stillWaiting d tag) (.of_samePorts rfl rfl rfl) (LossWork.foldl acceptPacked_lossWork _ _)

/-- A lost request is answered with its status, and the results that waited for it alone are accepted. -/
def loseRequest (d : Dev) (p : Pending) : Dev := resultAnswered (answered d p p.lost) p.tag

theorem loseRequest_lossWork (d : Dev) (p : Pending) : LossWork d (loseRequest d p) := by
  have hwithout : LossWork d (withoutTag d p.tag) := ⟨rfl, fun q h => List.mem_of_mem_filter h, fun _ => rfl⟩
  exact (hwithout.trans (.of_lossOnly (answered_lossOnly (lost_ne_zero p) d p))).trans (resultAnswered_lossWork ..)

theorem tag_ne_of_loseRequest {p q : Pending} (h : q ∈ (loseRequest d p).pendings) : q.tag ≠ p.tag := by
  have hq := (resultAnswered_lossWork (answered d p p.lost) p.tag).pendings q h
  rw [answered_lossOnly (lost_ne_zero p) d p] at hq
  simpa using (List.mem_filter.mp hq).2

/-- Of all that are lost none stays pending. -/
theorem tag_ne_of_loseRequests {ps : List Pending} {q : Pending} (h : q ∈ (ps.foldl loseRequest d).pendings) :
    ∀ p ∈ ps, q.tag ≠ p.tag := by
  induction ps generalizing d with
  | nil => exact fun _ hp => nomatch hp
  | cons p ps ih =>
    rw [List.foldl_cons] at h
    have hrest := (LossWork.foldl loseRequest_lossWork ps (loseRequest d p)).pendings q h
    rintro x (_ | ⟨_, hx⟩)
    · exact tag_ne_of_loseRequest hrest
    · exact ih h x hx

/-- Where no result waits, the lost requests touch neither cores nor ports. -/
theorem loseRequests_of_none (h : d.remoteResults = []) (ps : List Pending) :
    LossOnly { d with pendings := (ps.foldl loseRequest d).pendings } (ps.foldl loseRequest d) := by
  induction ps generalizing d with
  | nil => rfl
  | cons p ps ih =>
    have hanswer := answered_lossOnly (lost_ne_zero p) d p
    have hnone : (answered d p p.lost).remoteResults = [] := by
      rw [hanswer]
      exact h
    rw [List.foldl_cons, loseRequest, resultAnswered_of_none _ hnone]
    have hrest := ih hnone
    generalize answered d p p.lost = e at hanswer hrest
    generalize List.foldl _ _ _ = g at hrest ⊢
    unfold LossOnly at hanswer hrest ⊢
    rw [hrest, hanswer]
    rfl

/-! ### A chain link lost (R473, R474) -/

/-- A port whose link is lost: what waited in it is gone. -/
def Port.lose (p : Port) : Port :=
  { p with state := .lost, status := setBit p.status 0, cnt := laneBump p.cnt 0, unacked := [], txq := [], nakSent := false, retries := 0 }

/-- The device with a link's loss noted: its port, its error record, its routes, its senders and its results. -/
def linkDown (d : Dev) (pn : Nat) : Dev :=
  let senders := (d.port pn).unacked.flatMap (·.senders) ++ (d.port pn).txq.map (·.sender)
  let e := ((d.updPort pn Port.lose).report (errRec stLinkLost 12 0 7 pn)).settleRoutes fun r =>
    (if r.usingAlt then r.alt else r.port).toNat = pn
  loseResults (senders.foldl senderLost e) (e.pendings.filter fun p => (d.carries pn).contains p.dst)

theorem senderLost_lossOnly (d : Dev) (x : TxSender) : LossOnly d (senderLost d x) := by
  cases x <;> rfl

theorem linkDown_frame (d : Dev) (pn : Nat) :
    LossOnly { d with ports := (d.updPort pn Port.lose).ports, routes := (linkDown d pn).routes } (linkDown d pn) := by
  have hreport := report_lossOnly (d.updPort pn Port.lose) (errRec stLinkLost 12 0 7 pn)
  unfold linkDown
  dsimp only
  generalize Dev.report _ _ = e at hreport ⊢
  have hroutes := settleRoutes_frame e fun r => (if r.usingAlt then r.alt else r.port).toNat = pn
  generalize Dev.settleRoutes _ _ = g at hroutes ⊢
  have hsenders := LossOnly.foldl senderLost_lossOnly ((d.port pn).unacked.flatMap (·.senders) ++ (d.port pn).txq.map (·.sender)) g
  generalize List.foldl _ _ _ = k at hsenders ⊢
  have hresults : LossOnly k (loseResults k (g.pendings.filter fun p => (d.carries pn).contains p.dst)) := rfl
  generalize loseResults _ _ = m at hresults ⊢
  unfold LossOnly at hreport hsenders hresults ⊢
  rw [hresults, hsenders, hroutes, hreport]
  rfl

theorem loseLink_of_up (hs : (d.port pn).state = .up) (hm : (d.port pn).mode = 1) : loseLink d pn =
    restartCrossing ((d.pendings.filter fun p => (d.carries pn).contains p.dst).foldl loseRequest (linkDown d pn)) (d.carries pn) := by
  have hp : ((d.updPort pn Port.lose).report (errRec stLinkLost 12 0 7 pn)).pendings = d.pendings := by
    rw [Dev.report_frame]
    rfl
  refine (if_neg (by simp [hs, hm])).trans ?_
  rw [← hp]
  rfl

theorem restartCrossing_lossOnly (d : Dev) (lost : List Nat) : LossOnly d (restartCrossing d lost) :=
  LossOnly.foldl (fun d x => by split <;> rfl) _ d

theorem loseLink_of_down (h : (d.port pn).state ≠ .up ∨ (d.port pn).mode ≠ 1) : loseLink d pn = d := by
  refine if_pos ?_
  rcases h with h | h
  · simp [h]
  · simp [(mode_toNat_ne (n := 1) (by decide)).mpr h]

/-- What a lost link leaves (R473, R474): memory and requests to other devices, and its port LOST. -/
theorem loseLink_lost (hs : (d.port pn).state = .up) (hm : (d.port pn).mode = 1) :
    (loseLink d pn).mem = d.mem ∧ PortKept (d.port pn).lose ((loseLink d pn).port pn) ∧
      ∀ q ∈ (loseLink d pn).pendings, q.dst ∉ d.carries pn := by
  have hdown := linkDown_frame d pn
  have hport : (d.updPort pn Port.lose).port pn = (d.port pn).lose := Dev.port_updPort ..
  have hwork := (LossWork.foldl loseRequest_lossWork (d.pendings.filter fun p => (d.carries pn).contains p.dst) (linkDown d pn)).trans
    (.of_lossOnly (restartCrossing_lossOnly _ (d.carries pn)))
  have htag : ∀ q ∈ (loseLink d pn).pendings, ∀ p ∈ d.pendings.filter fun p => (d.carries pn).contains p.dst, q.tag ≠ p.tag :=
    fun q hq => by
      rw [loseLink_of_up hs hm, restartCrossing_lossOnly] at hq
      exact tag_ne_of_loseRequests hq
  rw [← loseLink_of_up hs hm] at hwork
  generalize linkDown d pn = e at hdown hwork
  have hpend : ∀ q ∈ e.pendings, q ∈ d.pendings := fun q hq => by
    rw [hdown] at hq
    exact hq
  refine ⟨hwork.mem.trans (by rw [hdown]), ?_, fun q hq hlost => ?_⟩
  · have hkept := hwork.kept pn
    have he : e.port pn = (d.updPort pn Port.lose).port pn := by
      rw [hdown]
      rfl
    rwa [he, hport] at hkept
  · have hmem : q ∈ d.pendings.filter fun p => (d.carries pn).contains p.dst :=
      List.mem_filter.mpr ⟨hpend q (hwork.pendings q hq), by simpa using hlost⟩
    exact htag q hq q hmem rfl

/-- Where no result waits for an answer, the cores and the other ports stand, and what waited in the port is gone. -/
theorem loseLink_of_none (hs : (d.port pn).state = .up) (hm : (d.port pn).mode = 1) (hr : d.remoteResults = []) :
    (loseLink d pn).ports = (d.updPort pn Port.lose).ports ∧ (loseLink d pn).cores = d.cores := by
  have hdown := linkDown_frame d pn
  have hnone : (linkDown d pn).remoteResults = [] := by
    rw [hdown]
    exact hr
  have hlost := loseRequests_of_none hnone (d.pendings.filter fun p => (d.carries pn).contains p.dst)
  rw [loseLink_of_up hs hm, restartCrossing_lossOnly]
  generalize List.foldl _ _ _ = g at hlost ⊢
  generalize linkDown d pn = e at hdown hlost
  rw [hlost]
  dsimp only
  rw [hdown]
  exact ⟨rfl, rfl⟩

/-- A disabled port. -/
def Port.disabled (p : Port) : Port := { p with state := .disabled }

/-! ### Resets of ports (R424, R483) -/

theorem portReset_of_other (hm : (d.port pn).mode ≠ 2) : portReset pn d = loseLink d pn :=
  if_neg ((mode_toNat_ne (n := 2) (by decide)).mpr hm)

theorem portReset_of_record (hm : (d.port pn).mode = 2) : portReset pn d = d.updPort pn Port.dropAll := if_pos (by simp [hm])

theorem Port.dropAll_frame (p : Port) : p.dropAll = { p with dgrams := [], txDgrams := [], rpCnt := p.dropAll.rpCnt } := rfl

/-! ### The routing table (R466, R485) -/

/-- The entry that a write of the routing table asks for. -/
def routeOf (v : Nat) : Route :=
  { port := BitVec.ofNat 4 (bits v 0 4), portValid := bit v 4, alt := BitVec.ofNat 4 (bits v 5 4), altValid := bit v 9 }

/-- Settling an entry changes which way it leads, not what it says. -/
theorem Route.settle_frame (d : Dev) (r : Route) : r.settle d = { r with usingAlt := (r.settle d).usingAlt, down := (r.settle d).down } := by
  unfold Route.settle
  split
  · rfl
  · split <;> rfl

theorem routeWrite_of_free {dst v : Nat} (h : d.routePinned dst = false) :
    routeWrite dst v d = { d with routes := Tbl.set {} dst ((routeOf v).settle d) d.routes } := if_neg (by simp [h])

theorem routeWrite_of_pinned {dst v : Nat} (h : d.routePinned dst = true)
    (hv : bits v 0 4 ≠ (d.route dst).port.toNat ∨ bits v 5 4 ≠ (d.route dst).alt.toNat) :
    routeWrite dst v d = d.updPort (d.route dst).port.toNat fun p => { p with status := setBit p.status 3 } := by
  refine if_pos ?_
  rcases hv with hv | hv <;> simp [h, hv]

theorem bits_toNat (v i : Nat) : (BitVec.ofNat 4 (bits v i 4)).toNat = bits v i 4 := by
  rw [BitVec.toNat_ofNat]
  exact Nat.mod_eq_of_lt (Nat.mod_lt _ (by decide))

/-- The port where it is up. -/
theorem routePort_of_port {dst : Nat} {r : Route} (hr : d.route dst = r.settle e) (hv : r.portValid = true) (hu : e.portUp r.port.toNat = true) :
    d.routePort dst = some r.port.toNat := by
  simp [Dev.routePort, hr, Route.settle, hv, hu]

/-- The other port where the first is not usable. -/
theorem routePort_of_alt {dst : Nat} {r : Route} (hr : d.route dst = r.settle e) (hp : r.portValid = false ∨ e.portUp r.port.toNat = false)
    (hv : r.altValid = true) (hu : e.portUp r.alt.toNat = true) : d.routePort dst = some r.alt.toNat := by
  rcases hp with hp | hp <;> simp [Dev.routePort, hr, Route.settle, hp, hv, hu]

end Sys2Proof.Machine

namespace Sys2Proof.Proofs
open Sys2Proof.Machine Sys2Proof.Safety

/-- Settles O42: of a lost link `loseLink_lost` and `loseLink_of_none` say what it leaves; a written route is `routeOf`, settled. -/
theorem linksLostAndRoutes : Obligations.LinksLostAndRoutes := by
  have hlost : ∀ (p : Fin 16) (s : State), s.live = true → exec (.linkLost p) s = .next (withDev s (loseLink s.dev p.val)) :=
    fun p s hl => by
      change onDev (fun d => loseLink d p.val) s = _
      exact onDev_next hl rfl
  have hdisable : ∀ (p : Fin 16) (s : State), s.live = true →
      exec (.portDisable p) s = .next (withDev s ((loseLink s.dev p.val).updPort p.val Port.disabled)) := fun p s hl => onDev_next hl rfl
  refine ⟨⟨fun p s hl hs hm => ?up, fun p s hl h => ?down, fun p s hm => ?other, fun p s hl hm => ?record⟩, fun dst v s hl => ?route⟩
  case up =>
    obtain ⟨hmem, hport, hpend⟩ := loseLink_lost hs hm
    unfold PortKept at hport
    have hstate := congrArg Port.state hport
    have hstatus := congrArg Port.status hport
    refine ⟨_, hlost p s hl, rfl, rfl, hstate, hstatus, hpend, hmem, fun hr => ?_, hdisable p s hl⟩
    obtain ⟨hports, hcores⟩ := loseLink_of_none hs hm hr
    have hall : ∀ k, (loseLink s.dev p.val).port k = (s.dev.updPort p.val Port.lose).port k := fun k => by rw [Dev.port, hports]; rfl
    have hlose := (hall p.val).trans (Dev.port_updPort ..)
    have hunacked := congrArg Port.unacked hlose
    have htxq := congrArg Port.txq hlose
    exact ⟨hunacked, htxq, fun k hk => (hall k).trans (Dev.port_updPort_other _ hk _), hcores⟩
  case down =>
    have hsame := loseLink_of_down h
    refine ⟨?_, ?_⟩
    · change onDev (fun d => loseLink d p.val) s = _
      exact onDev_same hsame
    · have hexec := hdisable p s hl
      rw [hsame] at hexec
      exact hexec
  case other =>
    change onDev (portReset p.val) s = onDev (fun d => loseLink d p.val) s
    rw [onDev, onDev, portReset_of_other hm]
  case record =>
    have hexec : exec (.portReset p) s = .next (withDev s (s.dev.updPort p.val Port.dropAll)) := onDev_next hl (portReset_of_record hm)
    have hport : (s.dev.updPort p.val Port.dropAll).port p.val = (s.dev.port p.val).dropAll := Dev.port_updPort ..
    refine ⟨_, hexec, rfl, ?_, fun k hk => Dev.port_updPort_other _ hk _⟩
    change (s.dev.updPort p.val Port.dropAll).port p.val = { s.dev.port p.val with
      dgrams := [], txDgrams := [], rpCnt := ((s.dev.updPort p.val Port.dropAll).port p.val).rpCnt }
    rw [hport]
    exact Port.dropAll_frame _
  case route =>
    intro pt al
    refine ⟨fun hfree => ?_, fun hpinned hv => onDev_next hl (routeWrite_of_pinned hpinned hv)⟩
    have hexec : exec (.routeEntryWrite dst v) s =
        .next (withDev s { s.dev with routes := Tbl.set {} dst.val ((routeOf v.toNat).settle s.dev) s.dev.routes }) :=
      onDev_next hl (routeWrite_of_free hfree)
    have hroute : ({ s.dev with routes := Tbl.set {} dst.val ((routeOf v.toNat).settle s.dev) s.dev.routes } : Dev).route dst.val =
        (routeOf v.toNat).settle s.dev := Tbl.get_set_self ..
    have hsettled := hroute.trans (Route.settle_frame s.dev (routeOf v.toNat))
    have hpt : (routeOf v.toNat).port.toNat = pt := bits_toNat ..
    have hal : (routeOf v.toNat).alt.toNat = al := bits_toNat ..
    have hports := congrArg Route.port hsettled
    have halts := congrArg Route.alt hsettled
    refine ⟨_, hexec, rfl, fun k hk => Tbl.get_set_other _ hk _ _, (congrArg BitVec.toNat hports).trans hpt,
      (congrArg BitVec.toNat halts).trans hal, congrArg Route.portValid hsettled, congrArg Route.altValid hsettled, fun hv hu => ?_,
      fun hp hv hu => ?_⟩
    · exact (routePort_of_port hroute hv (by rw [hpt]; exact hu)).trans (congrArg some hpt)
    · exact (routePort_of_alt hroute (by rw [hpt]; exact hp) hv (by rw [hal]; exact hu)).trans (congrArg some hal)

end Sys2Proof.Proofs
end

section
/-! SUPPORT. Record ports: frames received, flow control, result datagrams (R464, R478 to R482). -/

namespace Sys2Proof.Machine
open Sys2Proof.Safety
variable {d e : Dev} {pn : Nat}

/-! ### Frames received (R478 to R481) -/

/-- Without flow control the buffer's fill sends nothing. -/
theorem fillPfc_of_off (h : (d.port pn).pfc = false) : fillPfc d pn = d := if_neg (by simp [h])

theorem isSplit_updPort {g : Port → Port} (hg : (g (d.port pn)).split = (d.port pn).split) (k : Nat) :
    (d.updPort pn g).isSplit k = d.isSplit k := by
  unfold Dev.isSplit
  obtain h | h := eq_or_ne (k - k % 2) pn
  · rw [h, Dev.port_updPort, hg]
  · rw [Dev.port_updPort_other _ h]

theorem rxBytes_updPort {g : Port → Port} (hg : (g (d.port pn)).split = (d.port pn).split) (k : Nat) :
    (d.updPort pn g).rxBytes k = d.rxBytes k := by
  rw [Dev.rxBytes, Dev.rxBytes, isSplit_updPort hg]

/-- What a good datagram for a UDP port makes of its port. -/
def datagramHeard (d : Dev) (pn : Nat) (x : Nat × Bytes) : Port → Port :=
  if !d.taskBound pn x.1 then (·.countRp 0)
  else if d.rxBytes pn < (d.port pn).rxUsed + x.2.length then (·.countRp 2)
  else fun p => { p with dgrams := p.dgrams ++ [x] }

/-- What a frame for this port makes of it. -/
def recordHeard (d : Dev) (pn : Nat) (f : Bytes) (ok : Bool) : Port → Port :=
  if !ok || (d.port pn).mtu.toNat < f.length + 4 then (·.countRp 1)
  else (recordDatagram f).elim (·.countRp 1) (datagramHeard d pn)

/-- The branch of a good datagram at a port that has heard its frame; `used` is what its buffer held. -/
def datagramRx (e : Dev) (pn used : Nat) (x : Nat × Bytes) : Dev :=
  if !e.taskBound pn x.1 then e.updPort pn (·.countRp 0)
  else if e.rxBytes pn < used + x.2.length then fillPfc (e.updPort pn (·.countRp 2)) pn
  else fillPfc (e.updPort pn fun p => { p with dgrams := p.dgrams ++ [x] }) pn

theorem recordRx_eq (pn : Nat) (f : Bytes) (ok : Bool) (d : Dev) : recordRx pn f ok d =
    if (d.port pn).state ≠ .up || (d.port pn).mode.toNat ≠ 2 || beField f 0 6 ≠ (d.port pn).srcMac.toNat then d
    else if !ok || (d.port pn).mtu.toNat < f.length + 4 then (d.updPort pn Port.heard).updPort pn (·.countRp 1)
    else (recordDatagram f).elim ((d.updPort pn Port.heard).updPort pn (·.countRp 1))
      (datagramRx (d.updPort pn Port.heard) pn (d.port pn).rxUsed) := by
  unfold recordRx
  cases recordDatagram f <;> rfl

theorem taskBound_ports (d : Dev) (ports : Tbl Port) (udp : Nat) : ({ d with ports := ports } : Dev).taskBound pn udp = d.taskBound pn udp := rfl

theorem datagramRx_of_off {used : Nat} {x : Nat × Bytes} (hp : (d.port pn).pfc = false) (hu : used = (d.port pn).rxUsed) :
    datagramRx (d.updPort pn Port.heard) pn used x = (d.updPort pn Port.heard).updPort pn (datagramHeard d pn x) := by
  have hbound : (d.updPort pn Port.heard).taskBound pn x.1 = d.taskBound pn x.1 := taskBound_ports ..
  have hrx : (d.updPort pn Port.heard).rxBytes pn = d.rxBytes pn := rxBytes_updPort rfl pn
  have hoff : ∀ g : Port → Port, (g (d.port pn).heard).pfc = (d.port pn).pfc →
      fillPfc ((d.updPort pn Port.heard).updPort pn g) pn = (d.updPort pn Port.heard).updPort pn g := fun g hg =>
    fillPfc_of_off (by rw [port_updPort_twice, hg, hp])
  have hcount := hoff (·.countRp 2) rfl
  have hadd := hoff (fun p => { p with dgrams := p.dgrams ++ [x] }) rfl
  unfold datagramRx datagramHeard
  rw [hbound, hrx, hcount, hadd, hu]
  split
  · rfl
  · split <;> rfl

/-- A frame for this port is progress of it, and waits or is counted. -/
theorem recordRx_of_own (hs : (d.port pn).state = .up) (hm : (d.port pn).mode = 2) (hp : (d.port pn).pfc = false) {f : Bytes}
    (ha : beField f 0 6 = (d.port pn).srcMac.toNat) (ok : Bool) :
    recordRx pn f ok d = (d.updPort pn Port.heard).updPort pn (recordHeard d pn f ok) := by
  rw [recordRx_eq, if_neg (by simp [hs, hm, ha])]
  unfold recordHeard
  split
  · rfl
  · cases recordDatagram f with
    | none => rfl
    | some x => exact datagramRx_of_off hp rfl

theorem recordRx_of_other {f : Bytes} (ha : beField f 0 6 ≠ (d.port pn).srcMac.toNat) (ok : Bool) : recordRx pn f ok d = d :=
  if_pos (by simp [ha])

/-! ### Flow control (R39, R51, R481) -/

theorem sendPfc_eq (d : Dev) (pn : Nat) (xoff : Bool) :
    sendPfc d pn xoff = (d.updPort pn Port.heard).emit (.pfc pn (d.port pn).priority.toNat xoff) := rfl

/-- A port whose XOFF has ended. -/
def Port.released (p : Port) : Port := { p with xoff := false }

theorem pfcRelease_of_low (hx : (d.port pn).xoff = true) (h : 2 * (d.port pn).rxUsed < d.rxBytes pn) :
    pfcRelease pn d = ((d.updPort pn Port.released).updPort pn Port.heard).emit (.pfc pn (d.port pn).priority.toNat false) := by
  have hprio : ((d.updPort pn Port.released).port pn).priority = (d.port pn).priority := by rw [Dev.port_updPort]; rfl
  refine (if_pos (by simp [hx, h])).trans ?_
  rw [← hprio]
  rfl

theorem pfcRelease_of_high (h : (d.port pn).xoff = false ∨ d.rxBytes pn ≤ 2 * (d.port pn).rxUsed) : pfcRelease pn d = d := by
  refine if_neg ?_
  rcases h with h | h <;> simp [h]

/-- A port whose received pause has ended. -/
def Port.unpaused (p : Port) : Port := { p with paused := false }

/-- One more of the model's free choices taken. -/
def chosen (d : Dev) : Dev := { d with free := d.free + 1 }

/-- The timer's step, by the pause and the XOFF in force. -/
def pauseStep (d : Dev) (pn : Nat) (paused xoff : Bool) : Dev :=
  let e := if paused && xoff then chosen d else d
  if paused && (!xoff || Config.pauseEnds d.free) then e.updPort pn Port.unpaused else if xoff then sendPfc e pn true else d

theorem pauseTimer_eq (pn : Nat) (d : Dev) : pauseTimer pn d = pauseStep d pn (d.port pn).paused (d.port pn).xoff := rfl

theorem pauseTimer_of_none (hp : (d.port pn).paused = false) (hx : (d.port pn).xoff = false) : pauseTimer pn d = d := by
  rw [pauseTimer_eq, hp, hx]
  rfl

theorem pauseTimer_of_paused (hp : (d.port pn).paused = true) (hx : (d.port pn).xoff = false) :
    pauseTimer pn d = d.updPort pn Port.unpaused := by
  rw [pauseTimer_eq, hp, hx]
  rfl

theorem pauseTimer_of_xoff (hp : (d.port pn).paused = false) (hx : (d.port pn).xoff = true) : pauseTimer pn d = sendPfc d pn true := by
  rw [pauseTimer_eq, hp, hx]
  rfl

/-- Which of two running timers has run out is free (log 22). -/
theorem pauseTimer_of_both (hp : (d.port pn).paused = true) (hx : (d.port pn).xoff = true) :
    pauseTimer pn d = (chosen d).updPort pn Port.unpaused ∨ pauseTimer pn d = sendPfc (chosen d) pn true := by
  rw [pauseTimer_eq, hp, hx]
  cases h : Config.pauseEnds d.free
  · exact .inr (if_neg (by rw [h]; decide))
  · exact .inl (if_pos (by rw [h]; rfl))

/-! ### Result datagrams (R479, R482) -/

theorem packResults_prefix (room : Nat) (ts : List TxResult) : packResults room ts <+: ts := by
  induction ts generalizing room with
  | nil => exact List.prefix_rfl
  | cons t ts ih =>
    unfold packResults
    split
    · exact (List.prefix_cons_inj t).mpr (ih _)
    · exact List.nil_prefix

theorem sum_packResults (room : Nat) (ts : List TxResult) : ((packResults room ts).map fun r => r.bytes.length).sum ≤ room := by
  induction ts generalizing room with
  | nil => exact Nat.zero_le _
  | cons t ts ih =>
    unfold packResults
    split
    · have hrest := ih (room - t.bytes.length)
      rw [List.map_cons, List.sum_cons]
      omega
    · exact Nat.zero_le _

theorem length_flatten_bytes (ts : List TxResult) : (ts.map (·.bytes)).flatten.length = (ts.map fun r => r.bytes.length).sum := by
  rw [List.length_flatten, List.map_map]
  rfl

theorem sum_take_le (ts : List TxResult) (n : Nat) :
    ((ts.take n).map fun r => r.bytes.length).sum ≤ (ts.map fun r => r.bytes.length).sum := by
  conv_rhs => rw [← List.take_append_drop n ts, List.map_append, List.sum_append]
  exact Nat.le_add_right ..

/-- The results of a port's next datagram. -/
def Port.packed (p : Port) (t : TxResult) (ts : List TxResult) : List TxResult :=
  t :: packResults (p.mtu.toNat - p.dgramOverhead - t.bytes.length) ts

/-- They are the first of those that wait. -/
theorem Port.packed_eq_take (p : Port) (t : TxResult) (ts : List TxResult) : p.packed t ts = (t :: ts).take (p.packed t ts).length :=
  List.prefix_iff_eq_take.mp ((List.prefix_cons_inj t).mpr (packResults_prefix ..))

/-- With more than one of them, none of them empty, they fit the MTU. -/
theorem Port.packed_fits {p : Port} {t : TxResult} {ts : List TxResult} (hne : ∀ r ∈ ts, r.bytes ≠ []) (hn : 1 < (p.packed t ts).length) :
    p.dgramOverhead + ((p.packed t ts).map fun r => r.bytes.length).sum ≤ p.mtu.toNat := by
  have hsum := sum_packResults (p.mtu.toNat - p.dgramOverhead - t.bytes.length) ts
  have hprefix := packResults_prefix (p.mtu.toNat - p.dgramOverhead - t.bytes.length) ts
  have hlen : 0 < (packResults (p.mtu.toNat - p.dgramOverhead - t.bytes.length) ts).length := by
    rw [packed, List.length_cons] at hn
    omega
  rw [packed, List.map_cons, List.sum_cons]
  generalize packResults _ ts = us at hsum hprefix hlen ⊢
  obtain ⟨u, us, rfl⟩ := List.exists_cons_of_length_pos hlen
  have hu : 0 < u.bytes.length := List.length_pos_of_ne_nil (hne u (hprefix.subset List.mem_cons_self))
  rw [List.map_cons, List.sum_cons] at hsum ⊢
  omega

/-- A port whose next datagram, of `n` results, has entered the transmit buffer. -/
def Port.queued (n : Nat) (g : Dgram) (p : Port) : Port :=
  { p with txResults := p.txResults.drop n, txDgrams := p.txDgrams ++ [(n, g)], dgramSeq := p.dgramSeq + 1 }

theorem length_dgram (p : Port) (ts : List TxResult) : (p.dgram ts).bytes.length = 8 + (ts.map fun r => r.bytes.length).sum := by
  rw [← length_flatten_bytes]
  simp only [Port.dgram, List.length_append, length_toLe]

theorem drop_dgram (p : Port) (ts : List TxResult) : (p.dgram ts).bytes.drop 8 = (ts.map (·.bytes)).flatten :=
  List.drop_left' (by simp only [List.length_append, length_toLe])

theorem magic_dgram (p : Port) (ts : List TxResult) : field (p.dgram ts).bytes 0 2 = 0x444C := by
  simp only [Port.dgram, List.append_assoc]
  exact field_mid [] _ rfl 2 _

theorem seq_dgram (p : Port) (ts : List TxResult) : field (p.dgram ts).bytes 4 4 = p.dgramSeq.toNat := by
  have hlen : (toLe 2 0x444C ++ (toLe 1 1 ++ toLe 1 0)).length = 4 := by simp only [List.length_append, length_toLe]
  have hfield := field_mid _ (ts.map (·.bytes)).flatten hlen 4 p.dgramSeq.toNat
  rw [Nat.mod_eq_of_lt (by exact p.dgramSeq.isLt)] at hfield
  simpa only [Port.dgram, List.append_assoc] using hfield

theorem resultSend_of_room (hs : (d.port pn).state = .up) (hm : (d.port pn).mode = 2) (hp : (d.port pn).paused = false) {t : TxResult}
    {ts : List TxResult} (hr : (d.port pn).txResults = t :: ts) (hd : (d.port pn).txDgrams = [])
    (hroom : ((d.port pn).dgram ((d.port pn).packed t ts)).bytes.length ≤ d.txBytes pn) :
    resultSend pn d = ((d.port pn).packed t ts).foldl acceptPacked
      (d.updPort pn (Port.queued ((d.port pn).packed t ts).length ((d.port pn).dgram ((d.port pn).packed t ts)))) := by
  unfold resultSend
  dsimp only
  rw [hr]
  exact if_neg (by
    rw [hd]
    simp only [hs, hm, hp]
    simpa [Port.packed] using hroom)

theorem txDone_of_free {n : Nat} {g : Dgram} {rest : List (Nat × Dgram)} (hd : (d.port pn).txDgrams = (n, g) :: rest)
    (hp : (d.port pn).paused = false) : txDone pn d = (d.updPort pn fun p =>
      { p with txDgrams := rest, egressAck := p.egressAck + BitVec.ofNat 64 n, progress := p.progress + 1 }).emit (.datagram pn g) := by
  unfold txDone
  dsimp only
  rw [hd]
  exact if_neg (by simp [hp])

end Sys2Proof.Machine

namespace Sys2Proof.Proofs
open Sys2Proof.Machine Sys2Proof.Safety

/-- Settles O44: a frame for the port is `recordHeard`; a datagram holds `Port.packed`, a prefix of the results that wait, and what
accepting them sends leaves the port's results alone (`PortKept`). -/
theorem recordPorts : Obligations.RecordPorts := by
  refine ⟨fun p f ok s hl hs hm hp => ?received, fun p s hl => ?flow, fun p s hl hs hm hp hr hd hroom => ?sent,
    fun p n g rest s hl hd hp => onDev_next hl (txDone_of_free hd hp)⟩
  case received =>
    intro q becomes
    have hbecomes : beField f 0 6 = q.srcMac.toNat → becomes (recordHeard s.dev p.val f ok) := fun ha => by
      have hexec : exec (.recordDatagramRx p f ok) s =
          .next (withDev s ((s.dev.updPort p.val Port.heard).updPort p.val (recordHeard s.dev p.val f ok))) :=
        onDev_next hl (recordRx_of_own hs hm hp ha ok)
      have hframe := updPort_twice_frame (d := s.dev) (pn := p.val) Port.heard (recordHeard s.dev p.val f ok)
      have hport := port_updPort_twice (d := s.dev) (pn := p.val) Port.heard (recordHeard s.dev p.val f ok)
      have hother := fun k (hk : k ≠ p.val) => port_updPort_twice_other (d := s.dev) hk Port.heard (recordHeard s.dev p.val f ok)
      generalize Dev.updPort (Dev.updPort _ _ _) _ _ = e at hexec hframe hport hother
      exact ⟨_, hexec, congrArg (withDev s) hframe, hport, hother⟩
    have hbad : ok = false ∨ q.mtu.toNat < f.length + 4 ∨ recordDatagram f = none → recordHeard s.dev p.val f ok = (·.countRp 1) :=
      fun hb => by
        unfold recordHeard
        split
        · rfl
        next hgood =>
          have hnone : recordDatagram f = none := by
            rcases hb with h | h | h
            · simp [h] at hgood
            · exact absurd (Bool.or_eq_true_iff.mpr (.inr (decide_eq_true h))) hgood
            · exact h
          rw [hnone]
          rfl
    refine ⟨fun ha => onDev_same (recordRx_of_other ha ok), fun ha hb => hbad hb ▸ hbecomes ha, fun udp b ha hok hlen hf => ?_⟩
    have hheard : recordHeard s.dev p.val f ok = datagramHeard s.dev p.val (udp, b) := by
      unfold recordHeard
      rw [if_neg (by simpa [hok] using hlen), hf]
      rfl
    unfold datagramHeard at hheard
    have h := hbecomes ha
    refine ⟨fun hb => ?_, fun hb hfull => ?_, fun hb hfit => ?_⟩
    · rw [hheard, if_pos (by simp [hb])] at h
      exact h
    · rw [hheard, if_neg (by simp [hb]), if_pos hfull] at h
      exact h
    · rw [hheard, if_neg (by simp [hb]), if_neg (Nat.not_lt.mpr hfit)] at h
      exact h
  case flow =>
    intro q becomes refreshed
    have hone : ∀ (g : Port → Port), ∃ ports, s.dev.updPort p.val g = { s.dev with ports := ports } ∧
        Tbl.get {} p.val ports = g q ∧ ∀ k, k ≠ p.val → Tbl.get {} k ports = s.dev.port k := fun g =>
      ⟨_, rfl, Dev.port_updPort s.dev p.val g, fun k hk => Dev.port_updPort_other s.dev hk g⟩
    have hfree : ∀ g, (chosen s.dev).updPort p.val g = chosen (s.dev.updPort p.val g) := fun _ => rfl
    refine ⟨fun hx hlow => ?_, fun h => onDev_same (pfcRelease_of_high h), fun quanta => ?_,
      fun hp hx => onDev_same (pauseTimer_of_none hp hx), fun hp hx => ?_, fun hp hx => ?_, fun hp hx => ?_⟩
    · have hexec : exec (.pfcRelease p) s = .next (withDev s _) := onDev_next hl (pfcRelease_of_low hx hlow)
      have hframe := updPort_twice_frame (d := s.dev) (pn := p.val) Port.released Port.heard
      have hport := port_updPort_twice (d := s.dev) (pn := p.val) Port.released Port.heard
      have hother := fun k (hk : k ≠ p.val) => port_updPort_twice_other (d := s.dev) hk Port.released Port.heard
      generalize Dev.updPort (Dev.updPort _ _ _) _ _ = e at hexec hframe hport hother
      refine ⟨_, hexec, congrArg (withDev s) ?_, hport, hother⟩
      rw [hframe]
      rfl
    · change onDev (fun d => d.updPort p.val fun x => { x with paused := quanta != 0, progress := x.progress + 1 }) s = _
      exact onDev_live hl
    · have hexec : exec (.pauseTimer p) s = .next (withDev s _) := onDev_next hl (pauseTimer_of_paused hp hx)
      obtain ⟨ports, hports, hself, hother⟩ := hone Port.unpaused
      rw [hports] at hexec
      exact ⟨_, hexec, rfl, hself, hother⟩
    · have hexec : exec (.pauseTimer p) s = .next (withDev s _) := onDev_next hl (pauseTimer_of_xoff hp hx)
      obtain ⟨ports, hports, hself, hother⟩ := hone Port.heard
      rw [sendPfc_eq, hports] at hexec
      exact ⟨_, hexec, rfl, hself, hother⟩
    · rcases pauseTimer_of_both hp hx with h | h
      · have hexec : exec (.pauseTimer p) s = .next (withDev s _) := onDev_next hl h
        obtain ⟨ports, hports, hself, hother⟩ := hone Port.unpaused
        rw [hfree, hports] at hexec
        exact .inl ⟨_, hexec, rfl, hself, hother⟩
      · have hexec : exec (.pauseTimer p) s = .next (withDev s _) := onDev_next hl h
        obtain ⟨ports, hports, hself, hother⟩ := hone Port.heard
        rw [sendPfc_eq, hfree, hports] at hexec
        exact .inr ⟨_, hexec, rfl, hself, hother⟩
  case sent =>
    intro q
    obtain ⟨t, ts, hts⟩ := List.exists_cons_of_ne_nil hr
    have htake := q.packed_eq_take t ts
    have hlength := length_dgram q (q.packed t ts)
    have hle : ((q.packed t ts).map fun r => r.bytes.length).sum ≤ ((t :: ts).map fun r => r.bytes.length).sum := by
      rw [htake]
      exact sum_take_le ..
    have hsend := resultSend_of_room hs hm hp hts hd (by
      rw [hts] at hroom
      change (q.dgram (q.packed t ts)).bytes.length ≤ _
      omega)
    have hexec : exec (.resultDatagramSend p) s = .next (withDev s (resultSend p.val s.dev)) := onDev_next hl rfl
    have hkept := (LossWork.foldl acceptPacked_lossWork (q.packed t ts)
      (s.dev.updPort p.val (Port.queued (q.packed t ts).length (q.dgram (q.packed t ts))))).kept p.val
    rw [Dev.port_updPort] at hkept
    rw [hsend] at hexec
    generalize List.foldl _ _ _ = e at hexec hkept
    unfold PortKept at hkept
    have hresults := congrArg Port.txResults hkept
    have hdgrams := congrArg Port.txDgrams hkept
    have hseq := congrArg Port.dgramSeq hkept
    have hqd : q.txDgrams = [] := hd
    refine ⟨_, (q.packed t ts).length, q.dgram (q.packed t ts), hexec, Nat.succ_pos _, ?_, hresults, ?_, hseq, magic_dgram .., seq_dgram ..,
      ?_, fun hne hn => ?_⟩
    · rw [show q.txResults = _ from hts, htake, List.length_take]
      exact Nat.min_le_right ..
    · refine hdgrams.trans ?_
      change q.txDgrams ++ _ = _
      rw [hqd, List.nil_append]
    · rw [drop_dgram, show q.txResults = _ from hts, ← htake]
    · rw [hlength, Nat.add_sub_cancel_left]
      rw [show q.txResults = _ from hts] at hne
      exact q.packed_fits (fun r hr => hne r (List.mem_cons_of_mem _ hr)) hn

end Sys2Proof.Proofs
end

section
/-! SUPPORT. Leaf-key bags, and what the finisher's pass leaves (R214, R228, R326, R327). -/

namespace Sys2Proof.Machine
open Sys2Proof.Safety
variable {d e : Dev} {n : Nat}

/-! ### Leaf-key bags (R326, R327) -/

theorem keyGatherBag_of_feed {blk : KeyBlock} {rest : List KeyBlock} (hb : (d.core n).keyBlocks = blk :: rest) {pid : Nat} {p : Plot}
    {f : Feed} {kg : KeyGather} (hp : (d.updCore n fun c => { c with keyBlocks := rest }).plotOf n = some (pid, p))
    (hf : (d.updCore n fun c => { c with keyBlocks := rest }).feed blk.src = some f) (hk : f.keyGather = some kg) (env : Env) :
    keyGatherBag n env d = poolKeys n (p.cores.takeWhile (· ≠ n)).length p.cores.length env f kg blk
      (d.updCore n fun c => { c with keyBlocks := rest }) := by
  unfold keyGatherBag
  rw [hb]
  dsimp only
  rw [hp, hf]
  dsimp only
  rw [hk]

theorem keyGatherBag_of_none {blk : KeyBlock} {rest : List KeyBlock} (hb : (d.core n).keyBlocks = blk :: rest)
    (hf : ∀ f, (d.updCore n fun c => { c with keyBlocks := rest }).feed blk.src = some f → f.keyGather = none) (env : Env) :
    keyGatherBag n env d = d.updCore n fun c => { c with keyBlocks := rest } := by
  unfold keyGatherBag
  rw [hb]
  dsimp only
  split
  · rw [hf _ ‹_›]
  · rfl

theorem exec_keyGatherBag {n : Fin 256} {env : Env} {s : State} (hl : s.live = true) (hb : (s.dev.core n.val).keyBlocks ≠ [])
    (hk : codeMet env = none) : exec (.keyGatherBag n env) s = .next (withDev s (keyGatherBag n.val env s.dev)) := by
  change execKeyGatherBag n env s = _
  rw [execKeyGatherBag, onDev_live hl, if_neg (by simpa using hb), tabServe_clean hk]

/-- A write of this device's own memory (R24). -/
theorem writeG_local {a : Nat} (h : addrDevice a = d.deviceId) (job : Nat) (b : Bytes) : d.writeG job a b = d.setLocalBytes (addrLocal a) b :=
  if_pos h

theorem length_slice (b : Bytes) (o n : Nat) : (slice b o n).length = n := by
  simp [slice]

/-- A bag written to this device's memory touches its slot alone. -/
theorem localByte_writeBagSlot {a o : Nat} {blk pooled : Bytes} {range bad : Bool} (hd : addrDevice a = e.deviceId)
    (ha : a % 2 ^ 40 + 16 + pooled.length < 2 ^ 40) (ho : o < addrLocal a ∨ addrLocal a + 16 + pooled.length ≤ o)
    (job : Nat) : (writeBagSlot e job a blk pooled range bad).localByte o = e.localByte o := by
  have hid : ∀ (f : Dev) (x : Nat) (b : Bytes), (f.setLocalBytes x b).deviceId = f.deviceId := fun f x b => by
    rw [Dev.setLocalBytes_frame]
  have hdev : addrDevice (a + 8) = addrDevice a := by
    unfold addrDevice bits
    omega
  have hloc : addrLocal (a + 8) = addrLocal a + 8 := by
    unfold addrLocal at *
    omega
  have hlow : (slice blk 0 8).length = 8 := length_slice ..
  have hrest : (slice blk 8 7 ++ toLe 1 (b2n range + 2 * b2n bad) ++ pooled).length = 8 + pooled.length := by
    rw [List.length_append, List.length_append, length_slice, length_toLe]
  unfold writeBagSlot
  dsimp only
  rw [writeG_local hd, writeG_local (a := a + 8) (by rw [hid, hdev, hd]), writeG_local (a := a) (by rw [hid, hid, hd]), hloc]
  generalize slice blk 8 7 ++ _ ++ _ = rest at hrest ⊢
  generalize slice blk 0 8 = low at hlow ⊢
  rw [Dev.localByte_setLocalBytes _ (by omega), Dev.localByte_setLocalBytes _ (by omega),
    Dev.localByte_setLocalBytes _ (by rw [length_toLe]; omega)]

/-! ### The finisher's pass (R22, R214, R228) -/

theorem finalPacket_ids (pr : Pair) (first : Bool) (x : Ctx) (c : Core) :
    (finalPacket pr first x c).2.recordId = x.recordId ∧ (finalPacket pr first x c).2.ecv = x.ecv := by
  unfold finalPacket
  dsimp only
  split <;> exact ⟨rfl, rfl⟩

/-- Every context in the record's row has the result. -/
theorem ctxs_giveResult {c : Core} {x y : Ctx} {f : NFlags} {r : ResultRec} (hy : y ∈ (c.giveResult x f r).ctxs) (hrow : y.row = x.row) :
    y.result = some r ∧ y.sent = true := by
  obtain ⟨z, -, rfl⟩ := List.mem_map.mp hy
  by_cases hz : z.row = x.row
  · rw [if_pos hz]
    exact ⟨rfl, rfl⟩
  · rw [if_neg hz] at hrow
    exact absurd hrow hz

/-- A device whose record has its result in its core: the other cores and memory stand. -/
structure Finished (n : Nat) (x : Ctx) (d e : Dev) : Prop where
  cores : ∃ c f r, r.recordId = x.recordId ∧ r.ecv = x.ecv ∧ e.cores = (d.setCore n (Core.giveResult c x f r)).cores
  mem : e.mem = d.mem

theorem Finished.of_same {x : Ctx} {f : Dev} (h : Finished n x d e) (hc : f.cores = e.cores) (hm : f.mem = e.mem) : Finished n x d f := by
  obtain ⟨⟨c, fl, r, hid, hecv, hcores⟩, hmem⟩ := h
  exact ⟨⟨c, fl, r, hid, hecv, hc.trans hcores⟩, hm.trans hmem⟩

theorem Finished.with_free {x : Ctx} (h : Finished n x d e) (k : Nat) : Finished n x d { e with free := k } := h.of_same rfl rfl

theorem finished_setCore {x : Ctx} {r : ResultRec} (hid : r.recordId = x.recordId) (hecv : r.ecv = x.ecv) (c : Core) (f : NFlags) :
    Finished n x d (d.setCore n (c.giveResult x f r)) := ⟨⟨c, f, r, hid, hecv, rfl⟩, rfl⟩

theorem unreadable_kept (d : Dev) (err : ReadFail) (st : Status) (kind unit plot : Nat) (rid : Option Nat) (j : Option Job) :
    (unreadable d err st kind unit plot rid j).cores = d.cores ∧ (unreadable d err st kind unit plot rid j).mem = d.mem := by
  unfold unreadable
  split
  · exact ⟨rfl, rfl⟩
  · dsimp only
    rw [Dev.report_frame]
    exact ⟨rfl, rfl⟩

theorem ask_kept (a : Armed) (q k : Nat) (d : Dev) : (a.ask q k d).cores = d.cores ∧ (a.ask q k d).mem = d.mem := by
  unfold Armed.ask
  split
  · exact ⟨rfl, rfl⟩
  · rw [askRead_askOnly]
    exact ⟨rfl, rfl⟩

theorem finishRecord_finished (d : Dev) (env : Env) (n pid : Nat) (p : Plot) (pr : Pair) (f : FinBlock) (x : Ctx) :
    Finished n x d (finishRecord d env n pid p pr f x) := by
  obtain ⟨hid, hecv⟩ := finalPacket_ids pr (p.isFirst n) x (d.core n)
  unfold finishRecord
  dsimp only
  generalize finalPacket pr (p.isFirst n) x (d.core n) = cp at hid hecv ⊢
  obtain ⟨c, pk⟩ := cp
  dsimp only at hid hecv ⊢
  split
  · exact finished_setCore hid hecv _ _
  · split
    · exact finished_setCore hid hecv _ _
    · have hbad := fun c' fl err => (finished_setCore (n := n) (d := d)
        (r := passedResult pr.info f pk stOperandUnreadable true) hid hecv c' fl).of_same
          (unreadable_kept _ err stOperandUnreadable 0 n pid (some x.recordId) none).1 (unreadable_kept ..).2
      split
      · split
        · exact hbad ..
        · exact finished_setCore hid hecv _ _
      · split
        · refine Finished.of_same ?_ (ask_kept ..).1 (ask_kept ..).2
          split
          · exact hbad ..
          · exact finished_setCore hid hecv _ _
        · refine Finished.with_free ?_ _
          split
          · exact hbad ..
          · exact finished_setCore hid hecv _ _

theorem Ctx.through_of_over {x : Ctx} {k : Nat} (h : x.over k = true) : x.through k = true := by
  rw [through, h]
  rfl

theorem finisherPass_of_over {pid : Nat} {p : Plot} {x : Ctx} {pr : Pair} {f : FinBlock} (hs : d.stopped n = false)
    (hp : d.plotOf n = some (pid, p)) (hx : (d.core n).ctxs.find? (fun y => y.hasBins && y.result.isNone) = some x)
    (hpr : (d.core n).pairOf x = some pr) (hf : pr.fin = some f) (ht : p.isTail n = true) (ho : x.over pr.rounds = true)
    (hi : p.isFirst n = true ∨ x.inSum.isSome = true) (env : Env) : finisherPass n env d = finishRecord d env n pid p pr f x := by
  unfold finisherPass
  rw [hp, hx]
  dsimp only
  rw [hpr]
  dsimp only
  rw [hf]
  exact if_neg (by rcases hi with hi | hi <;> simp [hs, ht, Ctx.through_of_over ho, hi])

end Sys2Proof.Machine

namespace Sys2Proof.Proofs
open Sys2Proof.Machine Sys2Proof.Safety

/-- Settles O54: a bag is `keyGatherBag`'s three cases; whatever way a record is finished, its core takes its result by
`Core.giveResult` (`finishRecord_finished`). -/
theorem keyBagsAndFinisher : Obligations.KeyBagsAndFinisher := by
  refine ⟨fun n env blk rest s hl hb hk => ?_, fun n env pid p x pr f s hgo hx hpr hf ht ho hi => ?_⟩
  · intro d
    have hexec := exec_keyGatherBag (n := n) (env := env) hl (by rw [hb]; exact List.cons_ne_nil _ _) hk
    refine ⟨fun pid p f kg hp hfeed hkg => hexec.trans (by rw [keyGatherBag_of_feed hb hp hfeed hkg]),
      fun hnone => hexec.trans (by rw [keyGatherBag_of_none hb hnone]),
      fun e a pooled range bad o hd ha ho _ => localByte_writeBagSlot hd ha ho 0⟩
  · obtain ⟨⟨hl, hs⟩, hp, -⟩ := hgo
    obtain ⟨⟨c, fl, r, hid, hecv, hcores⟩, hmem⟩ := finishRecord_finished s.dev env n.val pid p pr f x
    have hcore : ∀ m, (finishRecord s.dev env n.val pid p pr f x).core m = (s.dev.setCore n.val (c.giveResult x fl r)).core m :=
      fun m => by rw [Dev.core, Dev.core, hcores]
    refine ⟨onDev_next hl (finisherPass_of_over hs hp hx hpr hf ht ho hi env), fun m hm => ?_, hmem, fun y hy hrow => ?_⟩
    · rw [hcore]
      exact Tbl.get_set_other _ hm _ _
    · have hself : (s.dev.setCore n.val (c.giveResult x fl r)).core n.val = c.giveResult x fl r := Tbl.get_set_self ..
      rw [hcore, hself] at hy
      obtain ⟨hresult, hsent⟩ := ctxs_giveResult hy hrow
      refine ⟨by rw [hresult]; rfl, hsent, fun r' hr' => ?_⟩
      obtain rfl : r = r' := Option.some.inj (hresult.symm.trans hr')
      exact ⟨hid, hecv⟩

end Sys2Proof.Proofs
end

section
/-! SUPPORT. Fences of cores, and the re-placement of a plot's slices (R416, R420, R429 to R437). -/

namespace Sys2Proof.Machine
open Sys2Proof.Safety
variable {d e f : Dev} {n pid : Nat}

/-! ### The fault that a fence takes up (R416) -/

theorem core_of_faultOf {u : Upset} {x : Detected} (h : faultOf d n u = some x) : x.core = n := by
  unfold faultOf at h
  split at h
  next y hy =>
    obtain rfl := Option.some.inj h
    simpa using List.find?_some hy
  · obtain ⟨a, -, rfl⟩ := Option.map_eq_some_iff.mp h
    rfl

/-- The device with a fault no longer waiting. -/
def withoutFault (d : Dev) (x : Detected) : Dev := { d with detected := dropFirst (· == x) d.detected }

section
variable {s : State} {u : Upset} {x : Detected} (hl : s.live = true) (hx : faultOf s.dev n u = some x)
include hl hx

theorem fence_of_open (ho : (s.dev.core n).fenced = false) : fence n u s =
    { s with dev := fenceCore (withoutFault s.dev x) x, mc := { s.mc with fences := Tbl.upd 0 n (· + 1) s.mc.fences } } := by
  unfold fence
  rw [hx]
  exact (if_neg (by simp [hl])).trans (if_neg (Bool.eq_false_iff.mp ho))

theorem fence_of_fenced (ho : (s.dev.core n).fenced = true) : fence n u s = { s with dev := reportLate (withoutFault s.dev x) x } := by
  have hshut : ((withoutFault s.dev x).core n).fenced = true := ho
  unfold fence
  rw [hx]
  exact (if_neg (by simp [hl])).trans (if_pos hshut)

end

theorem fence_of_none {s : State} {u : Upset} (hx : faultOf s.dev n u = none) : fence n u s = s := by
  unfold fence
  rw [hx]

/-! ### What a fence keeps -/

/-- A core shut for a cause: it is fenced, and nothing that it held is left. -/
structure Core.Shut (st : Status) (c : Core) : Prop where
  fenced : c.fenced = true
  cause : c.cause = st
  ctxs : c.ctxs = []
  tiles : c.tiles = []
  acc : c.acc = []
  headQueue : c.headQueue = []
  sumLane : c.sumLane = []

theorem Core.shut_shut (c : Core) (st : Status) : (c.shut st).Shut st := ⟨rfl, rfl, rfl, rfl, rfl, rfl, rfl⟩

/-- A change of a core that opens none and gives none back what it held. -/
def KeepsShut (g : Core → Core) : Prop := ∀ c, g c = { c with
  pair0 := (g c).pair0, pair1 := (g c).pair1, active := (g c).active, sieveActive := (g c).sieveActive, sieveShadow := (g c).sieveShadow,
  markVersion := (g c).markVersion, binLane := (g c).binLane, errSeq := (g c).errSeq }

theorem KeepsShut.shut {g : Core → Core} (h : KeepsShut g) {st : Status} {c : Core} (hc : c.Shut st) : (g c).Shut st := by
  obtain ⟨h1, h2, h3, h4, h5, h6, h7⟩ := hc
  rw [h c]
  exact ⟨h1, h2, h3, h4, h5, h6, h7⟩

theorem setPair_frame (c : Core) (i : Nat) (p : Option Pair) : c.setPair i p = { c with
    pair0 := (c.setPair i p).pair0, pair1 := (c.setPair i p).pair1 } := by
  unfold Core.setPair
  split <;> rfl

theorem clearShadow_keepsShut : KeepsShut Core.clearShadow := fun c => by
  unfold Core.clearShadow
  have h := setPair_frame c (1 - c.active) none
  generalize c.setPair _ _ = e at h ⊢
  rw [h]

/-- Work of a fence: memory stands, its mark in the error block too, and a core that is shut stays so. -/
structure FenceWork (n : Nat) (st : Status) (d e : Dev) : Prop where
  mem : e.mem = d.mem
  status : d.err.status.getLsbD 1 = true → e.err.status.getLsbD 1 = true
  shut : (d.core n).Shut st → (e.core n).Shut st

namespace FenceWork
variable {st : Status}

theorem trans (h : FenceWork n st d e) (k : FenceWork n st e f) : FenceWork n st d f :=
  ⟨k.mem.trans h.mem, fun hs => k.status (h.status hs), fun hs => k.shut (h.shut hs)⟩

theorem of_cores (hm : e.mem = d.mem) (he : e.err = d.err) (hc : e.cores = d.cores) : FenceWork n st d e :=
  ⟨hm, fun h => he ▸ h, fun h => by rwa [Dev.core, hc]⟩

theorem refl (d : Dev) : FenceWork n st d d := of_cores rfl rfl rfl

theorem foldl {α : Type} {g : Dev → α → Dev} (h : ∀ d x, FenceWork n st d (g d x)) (xs : List α) (d : Dev) :
    FenceWork n st d (xs.foldl g d) := List.foldlRecOn (motive := FenceWork n st d) _ _ (refl d) fun _ he x _ => he.trans (h _ x)

theorem of_updCore {g : Core → Core} (h : KeepsShut g) (k : Nat) : FenceWork n st d (d.updCore k g) := by
  refine ⟨rfl, id, fun hs => ?_⟩
  obtain rfl | hk := eq_or_ne n k
  · rw [Dev.core_updCore]
    exact h.shut hs
  · rwa [Dev.core_updCore_other _ hk]

theorem of_updCores {g : Core → Core} (h : KeepsShut g) (p : Plot) : FenceWork n st d (d.updCores p g) :=
  foldl (fun _ k => of_updCore h k) _ d

theorem of_updPlot (g : Plot → Plot) : FenceWork n st d (d.updPlot pid g) := by
  unfold Dev.updPlot
  split
  · exact refl d
  · exact of_cores rfl rfl rfl

end FenceWork

section
variable {st : Status}

theorem status_report (d : Dev) (r : ErrRec) (h : d.err.status.getLsbD 1 = true) : (d.report r).err.status.getLsbD 1 = true := by
  unfold Dev.report
  dsimp only [event]
  have hclass : (if r.status.cls = 4 then (setBit d.err.status 0, laneBump d.err.cnt 0) else (d.err.status, d.err.cnt)).1.getLsbD 1 = true := by
    split
    · exact getLsbD_setBit_of_set 0 h
    · exact h
  split
  · split
    · rw [Dev.errVector, Dev.msix_frame]
      exact hclass
    · exact hclass
  · exact getLsbD_setBit_of_set 3 hclass

theorem report_fenceWork (d : Dev) (r : ErrRec) : FenceWork n st d (d.report r) :=
  ⟨by rw [Dev.report_frame], status_report d r, fun h => by rwa [Dev.core_report]⟩

theorem finishJob_fenceWork (d : Dev) (id : Nat) (x : Status) : FenceWork n st d (d.finishJob id x) := .of_cores rfl rfl rfl

theorem abortJob_fenceWork (d : Dev) (id : Nat) (x : Status) : FenceWork n st d (d.abortJob id x) := .of_cores rfl rfl rfl

/-- The error record of a fence (R430 step 9). -/
def fenceRecord (d : Dev) (pid : Nat) (x : Detected) : ErrRec :=
  { errRec x.status x.source 2 0 x.core with
    plot := pid, version := x.version, recordId := x.recordId, detail := faultDetail (d.core x.core) x }

/-- A core with the sequence number of its fence's error record. -/
def Core.noteSeq (seq : Nat) (c : Core) : Core := { c with errSeq := BitVec.ofNat 32 seq }

theorem reportFence_eq (d : Dev) (pid : Nat) (x : Detected) : reportFence d pid x =
    (d.report (fenceRecord d pid x)).updCore x.core (Core.noteSeq d.err.seqNext.toNat) := rfl

theorem reportFence_fenceWork (d : Dev) (pid : Nat) (x : Detected) : FenceWork n st d (reportFence d pid x) := by
  rw [reportFence_eq]
  exact (report_fenceWork d _).trans (.of_updCore (fun _ => rfl) _)

theorem clearShadows_fenceWork (d : Dev) (pid : Nat) : FenceWork n st d (clearShadows d pid) := by
  unfold clearShadows
  split
  · exact .refl d
  · exact (FenceWork.of_updCores clearShadow_keepsShut _).trans (.of_updPlot _)

/-- A restart's squash leaves a shut core as it is: it squashes cores that are not fenced. -/
theorem squashPlot_fenceWork (d : Dev) (pid : Nat) (p : Plot) (reds : Bool) : FenceWork n st d (squashPlot d pid p reds) := by
  refine ⟨by rw [squashPlot_restartOnly], fun h => by rw [squashPlot_restartOnly]; exact h, fun h => ?_⟩
  have hlive : n ∉ p.cores.filter fun k => !(d.core k).fenced := fun hn => by
    have hopen := (List.mem_filter.mp hn).2
    rw [h.fenced] at hopen
    exact absurd hopen (by decide)
  have hsame : (squashCores d p reds).core n = d.core n := core_foldl_updCore_other _ d hlive
  rwa [core_squashPlot, hsame]

theorem fenceGraft_fenceWork (d : Dev) (pid : Nat) (p : Plot) (ms : List BinMsg) : FenceWork n st d (fenceGraft d pid p ms) := by
  unfold fenceGraft
  split
  · exact .of_updPlot _
  · split
    · exact ((clearShadows_fenceWork d pid).trans (.of_updPlot _)).trans (finishJob_fenceWork ..)
    · exact ((FenceWork.of_updCores (fun _ => rfl) p).trans (.of_updPlot _)).trans (finishJob_fenceWork ..)

/-- Units that a fence sends, and the plots that wait for a restart. -/
def UnitsSent (d e : Dev) : Prop := e = { d with ports := e.ports, out := e.out, restartWait := e.restartWait }

theorem UnitsSent.trans (h : UnitsSent d e) (k : UnitsSent e f) : UnitsSent d f := by
  unfold UnitsSent at *
  rw [k, h]

theorem UnitsSent.fenceWork (h : UnitsSent d e) : FenceWork n st d e := .of_cores (by rw [h]) (by rw [h]) (by rw [h])

theorem UnitsSent.plot_eq (h : UnitsSent d e) (k : Nat) : e.plot k = d.plot k := by
  rw [h]
  rfl

theorem sendUnit_unitsSent (d : Dev) (dst kind plot : Nat) (body : Bytes) : UnitsSent d (sendUnit d dst kind plot body) := by
  have h := sendUnit_frame d dst kind plot body .nobody
  unfold UnitsSent
  rw [show sendUnit d dst kind plot body = _ from h]

theorem waitUnreached_unitsSent (d : Dev) (pid : Nat) (p : Plot) : UnitsSent d (waitUnreached d pid p) := by
  unfold waitUnreached
  split <;> rfl

theorem fenceUnits_unitsSent (d : Dev) (pid : Nat) (p : Plot) : UnitsSent d (fenceUnits d pid p) := by
  unfold fenceUnits
  split
  · split
    · exact sendUnit_unitsSent ..
    · rfl
  · split
    · rfl
    · have h := (sendUnit_unitsSent d p.lay.nextDevice 3 pid []).trans (waitUnreached_unitsSent _ pid p)
      dsimp only
      generalize waitUnreached _ _ _ = e at h ⊢
      split
      · exact h.trans (sendUnit_unitsSent ..)
      · exact h

/-- Markers passed on go to another core's lane or another device (R272, R431). -/
theorem rehome_cases (d : Dev) (pid : Nat) (p : Plot) (n : Nat) (ms : List BinMsg) :
    (∃ k, rehome d pid p n ms = d.updCore k fun c => { c with binLane := c.binLane ++ ms }) ∨ UnitsSent d (rehome d pid p n ms) := by
  unfold rehome
  split
  · exact .inl ⟨_, rfl⟩
  · refine .inr ?_
    split
    · rfl
    · refine List.foldlRecOn (motive := UnitsSent d) _ _ rfl fun e he m _ => ?_
      split
      · exact he.trans (sendUnit_unitsSent ..)
      · exact he

theorem rehome_fenceWork (d : Dev) (pid : Nat) (p : Plot) (k : Nat) (ms : List BinMsg) : FenceWork n st d (rehome d pid p k ms) := by
  rcases rehome_cases d pid p k ms with ⟨m, h⟩ | h
  · rw [h]
    exact .of_updCore (fun _ => rfl) m
  · exact h.fenceWork

theorem plot_rehome (d : Dev) (pid : Nat) (p : Plot) (k : Nat) (ms : List BinMsg) (i : Nat) : (rehome d pid p k ms).plot i = d.plot i := by
  rcases rehome_cases d pid p k ms with ⟨m, h⟩ | h
  · rw [h]
    rfl
  · exact h.plot_eq i

end

/-! ### A fence's plot -/

/-- A plot whose chain and whose unaccepted records are those of another. -/
def SamePlot (p q : Plot) : Prop := q.lay = p.lay ∧ q.replay = p.replay

theorem SamePlot.refl (p : Plot) : SamePlot p p := ⟨rfl, rfl⟩

theorem SamePlot.trans {p q r : Plot} (h : SamePlot p q) (k : SamePlot q r) : SamePlot p r := ⟨k.1.trans h.1, k.2.trans h.2⟩

theorem SamePlot.cores_eq {p q : Plot} (h : SamePlot p q) : q.cores = p.cores := by rw [Plot.cores, Plot.cores, h.1]

theorem moveLast_same (p : Plot) : SamePlot p p.moveLast := by
  unfold Plot.moveLast
  split <;> exact ⟨rfl, rfl⟩

theorem settle_same (p : Plot) : SamePlot p p.settle := by
  unfold Plot.settle
  split <;> exact ⟨rfl, rfl⟩

/-- What an entry of the plots says of a core: its ID and its plot, where that holds the core. -/
def plotEntry (n : Nat) (x : Nat × Option Plot) : Option (Nat × Plot) :=
  match x.2 with
  | some p => if p.cores.contains n then some (x.1, p) else none
  | none => none

theorem plotOf_eq (d : Dev) (n : Nat) : d.plotOf n = d.plots.findSome? (plotEntry n) := rfl

theorem of_plotEntry {x : Nat × Option Plot} {p : Plot} (h : plotEntry n x = some (pid, p)) : x.1 = pid ∧ p.cores.contains n = true := by
  unfold plotEntry at h
  split at h
  · split at h
    next hc =>
      simp only [Option.some.injEq, Prod.mk.injEq] at h
      obtain ⟨hid, rfl⟩ := h
      exact ⟨hid, hc⟩
    · exact nomatch h
  · exact nomatch h

theorem plotEntry_of_contains {q : Plot} (hq : q.cores.contains n = true) : plotEntry n (pid, some q) = some (pid, q) := if_pos hq

/-- The plot of a core, once it is written, is still that core's. -/
theorem plotOf_setPlot {p q : Plot} (hp : d.plotOf n = some (pid, p)) (hq : q.cores.contains n = true) :
    (d.setPlot pid q).plotOf n = some (pid, q) := by
  have hset : (d.setPlot pid q).plots = Tbl.ins pid (some q) d.plots := by
    change Tbl.set none pid (some q) d.plots = _
    rw [Tbl.set, if_neg (Option.some_ne_none q)]
  rw [plotOf_eq] at hp ⊢
  rw [hset]
  generalize d.plots = ps at hp ⊢
  induction ps with
  | nil => exact nomatch hp
  | cons x ps ih =>
    obtain ⟨i, v⟩ := x
    rw [Tbl.ins]
    split
    · rw [List.findSome?_cons, plotEntry_of_contains hq]
    · split
      · rw [List.findSome?_cons, plotEntry_of_contains hq]
      next hne _ =>
        rw [List.findSome?_cons] at hp ⊢
        split at hp
        next y hy =>
          rw [Option.some.inj hp] at hy
          exact absurd (of_plotEntry hy).1.symm hne
        next hy =>
          exact ih hp

theorem contains_of_plotOf {p : Plot} (h : d.plotOf n = some (pid, p)) : p.cores.contains n = true := by
  obtain ⟨x, -, hx⟩ := List.exists_of_findSome?_eq_some h
  exact (of_plotEntry hx).2

/-- The core's plot has an ID and is the plot of that ID; its chain and its records are a given plot's. -/
structure HoldsPlot (n pid : Nat) (p : Plot) (d : Dev) : Prop where
  holds : ∃ q, d.plotOf n = some (pid, q) ∧ d.plot pid = some q ∧ SamePlot p q

theorem HoldsPlot.of_plots {p : Plot} (h : HoldsPlot n pid p d) (he : e.plots = d.plots) : HoldsPlot n pid p e := by
  obtain ⟨q, hof, hp, hs⟩ := h.holds
  exact ⟨q, by rw [Dev.plotOf, he]; exact hof, by rw [Dev.plot, he]; exact hp, hs⟩

theorem HoldsPlot.updPlot {p : Plot} (h : HoldsPlot n pid p d) {g : Plot → Plot} (hg : ∀ q, SamePlot q (g q)) :
    HoldsPlot n pid p (d.updPlot pid g) := by
  obtain ⟨q, hof, hp, hs⟩ := h.holds
  have hset : d.updPlot pid g = d.setPlot pid (g q) := by rw [Dev.updPlot, hp]
  have hc : (g q).cores.contains n = true := by
    rw [(hg q).cores_eq]
    exact contains_of_plotOf hof
  rw [hset]
  exact ⟨g q, plotOf_setPlot hof hc, by rw [Dev.plot, Dev.setPlot, Tbl.get_set_self], hs.trans (hg q)⟩

theorem plots_updCores (d : Dev) (p : Plot) (g : Core → Core) : (d.updCores p g).plots = d.plots := by
  have h := foldl_updCore_coresOnly g d p.cores
  unfold Dev.updCores
  rw [h]

theorem HoldsPlot.clearShadows {p : Plot} (h : HoldsPlot n pid p d) : HoldsPlot n pid p (clearShadows d pid) := by
  unfold Machine.clearShadows
  split
  · exact h
  · exact (h.of_plots (plots_updCores ..)).updPlot fun _ => ⟨rfl, rfl⟩

theorem HoldsPlot.evictActive {p : Plot} (h : HoldsPlot n pid p d) : HoldsPlot n pid p (evictActive d pid) := by
  unfold Machine.evictActive
  split
  · exact h
  · exact (h.of_plots (plots_updCores ..)).updPlot fun _ => ⟨rfl, rfl⟩

theorem HoldsPlot.fenceLoad {p : Plot} (h : HoldsPlot n pid p d) (j : Job) : HoldsPlot n pid p (fenceLoad pid d j) := by
  have habort : HoldsPlot n pid p (d.abortJob j.id stCoreFenced) := h.of_plots rfl
  unfold Machine.fenceLoad
  dsimp only
  generalize d.abortJob j.id stCoreFenced = e at habort ⊢
  split
  · exact habort
  · split
    · exact habort.evictActive.updPlot settle_same
    · exact habort.clearShadows.updPlot settle_same

/-- The loads that a fence ends leave the plot its chain and its records. -/
theorem HoldsPlot.fenceLoads {p : Plot} (h : HoldsPlot n pid p d) (at' : Option (Nat × Plot)) (hat : ∀ i q, at' = some (i, q) → i = pid) :
    HoldsPlot n pid p (fenceLoads d at') := by
  unfold Machine.fenceLoads
  split
  · exact h
  next i q =>
    obtain rfl := hat i q rfl
    exact List.foldlRecOn (motive := HoldsPlot n i p) _ _ h fun _ he j _ => he.fenceLoad j

/-- A plot whose graft's swap stands, the new grove alone in it (R280). -/
def Plot.swapStands (p : Plot) (g : GraftState) (q : Plot) : Plot :=
  { q.moveMarks with graft := none, heldCore := none, entryMarker := none, grafts := q.grafts + 1, lastDrained := g.drain
                     switchMoved := true, activeGrove := if g.drain && g.released then p.activeGrove else p.shadowGrove,
                     shadowGrove := none }

/-- A graft that a fence meets is over (R280). -/
theorem plot_fenceGraft {p q : Plot} (hq : d.plot pid = some q) (hg : q.graft = p.graft) (ms : List BinMsg) :
    ∃ r, (fenceGraft d pid p ms).plot pid = some r ∧ r.graft = none ∧ r.replay = q.replay := by
  unfold fenceGraft
  split
  next hnone =>
    refine ⟨q.moveLast, by rw [Dev.plot_updPlot, hq]; rfl, ?_, (moveLast_same q).2⟩
    rw [hnone] at hg
    unfold Plot.moveLast
    split
    · exact hg
    · exact hg
  next g _ =>
    split
    · refine ⟨{ q with shadowGrove := none, graft := none }, ?_, rfl, rfl⟩
      have hclear : (clearShadows d pid).plot pid = some { q with shadowGrove := none } := by
        unfold clearShadows
        rw [hq]
        dsimp only
        rw [Dev.plot_updPlot, Dev.plot, plots_updCores, ← Dev.plot, hq]
        rfl
      change ((clearShadows d pid).updPlot pid _).plot pid = _
      rw [Dev.plot_updPlot, hclear]
      rfl
    · have hcores : (d.updCores p fun c => { c with markVersion := g.newVersion }).plot pid = some q := by
        rw [Dev.plot, plots_updCores, ← Dev.plot, hq]
      refine ⟨Plot.swapStands p g q, ?_, rfl, rfl⟩
      change ((d.updCores p fun c => { c with markVersion := g.newVersion }).updPlot pid (Plot.swapStands p g)).plot pid = _
      rw [Dev.plot_updPlot, hcores]
      rfl

/-- The device with a plot no longer among those that wait for a restart. -/
def notWaiting (d : Dev) (pid : Nat) : Dev := { d with restartWait := d.restartWait.filter (· ≠ pid) }

/-- A plot with a fence of one of its cores noted: it stands stopped until it is re-formed (R430). -/
def Plot.noteFence (p : Plot) (x : Detected) (q : Plot) : Plot :=
  { q with fences := q.fences ++ [{ x with version := versionOf p.activeGrove }]
           heldCore := if q.heldCore = some x.core then none else q.heldCore
           state := if q.activeGrove.isSome then .reforming else q.state
           restart := if q.restart = .failed then .failed else .stopped true (p.startsHere && !p.endsHere) }

/-- Steps 3 and 5 of R430, before the units that go out. -/
def fencedPlot (d : Dev) (pid : Nat) (p : Plot) (x : Detected) (ms : List BinMsg) : Dev :=
  let e := fenceGraft (squashPlot (notWaiting d pid) pid p false) pid p ms
  (if p.startsHere then e else rehome e pid p x.core ms).updPlot pid (Plot.noteFence p x)

theorem fencePlot_eq (d : Dev) (pid : Nat) (p : Plot) (x : Detected) (ms : List BinMsg) :
    fencePlot d pid p x ms = fenceUnits (fencedPlot d pid p x ms) pid p := rfl

theorem fencePlot_fenceWork {st : Status} (d : Dev) (pid : Nat) (p : Plot) (x : Detected) (ms : List BinMsg) :
    FenceWork n st d (fencePlot d pid p x ms) := by
  have hnote : FenceWork n st d (notWaiting d pid) := .of_cores rfl rfl rfl
  have hsquash : FenceWork n st d (squashPlot (notWaiting d pid) pid p false) := hnote.trans (squashPlot_fenceWork ..)
  have hgraft : FenceWork n st d (fenceGraft (squashPlot (notWaiting d pid) pid p false) pid p ms) := hsquash.trans (fenceGraft_fenceWork ..)
  have hplot : FenceWork n st d (fencedPlot d pid p x ms) := by
    unfold fencedPlot
    dsimp only
    split
    · exact hgraft.trans (.of_updPlot _)
    · exact (hgraft.trans (rehome_fenceWork ..)).trans (.of_updPlot _)
  rw [fencePlot_eq]
  exact hplot.trans (fenceUnits_unitsSent ..).fenceWork

theorem plot_fencePlot {p : Plot} (hp : d.plot pid = some p) (x : Detected) (ms : List BinMsg) :
    ∃ q, (fencePlot d pid p x ms).plot pid = some q ∧ q.restart ≠ .none ∧ q.graft = none ∧ q.replay = p.replay := by
  have hsquash : (squashPlot (notWaiting d pid) pid p false).plot pid = some p.squashed := plot_squashPlot (d := notWaiting d pid) hp false
  have hgraft : p.squashed.graft = p.graft := rfl
  obtain ⟨r, hr, hg, hreplay⟩ := plot_fenceGraft hsquash hgraft ms
  have hmoved : (if p.startsHere = true then fenceGraft (squashPlot (notWaiting d pid) pid p false) pid p ms
      else rehome (fenceGraft (squashPlot (notWaiting d pid) pid p false) pid p ms) pid p x.core ms).plot pid = some r := by
    split
    · exact hr
    · rw [plot_rehome, hr]
  refine ⟨Plot.noteFence p x r, ?_, ?_, hg, hreplay⟩
  · rw [fencePlot_eq, (fenceUnits_unitsSent ..).plot_eq, fencedPlot, Dev.plot_updPlot, hmoved]
    rfl
  · unfold Plot.noteFence
    dsimp only
    split <;> exact nofun

/-! ### A fence of a core that is open (R430) -/

/-- The device with a fence noted in the error block. -/
def noteFenced (d : Dev) : Dev := { d with err := { d.err with status := setBit d.err.status 1 } }

/-- The device with a fence noted, and the loads ended that a fence of a core ends (R143). -/
def loadsEnded (d : Dev) (n : Nat) : Dev := fenceLoads (noteFenced d) (d.plotOf n)

/-- The device with a fault's core shut, and the descriptors ended that worked on it. -/
def coreShut (d : Dev) (x : Detected) (pid : Option Nat) : Dev :=
  endAffected ((loadsEnded d x.core).updCore x.core fun c => c.shut x.status) x.core pid

/-- The markers in a core's lane. -/
def laneMarkers (d : Dev) (n : Nat) : List BinMsg := (d.core n).binLane.filter BinMsg.isMarker

/-- The rest of a fence, once its core is shut: the core's plot stops, or the fence is reported at once (R430). -/
def fenceRest (d : Dev) (x : Detected) (ms : List BinMsg) : Option (Nat × Plot) → Dev
  | some (pid, p) => fencePlot d pid p x ms
  | none => reportFence d 0xFFFF x

theorem fenceCore_eq (d : Dev) (x : Detected) : fenceCore d x =
    fenceRest (coreShut d x (((loadsEnded d x.core).plotOf x.core).map Prod.fst)) x (laneMarkers (loadsEnded d x.core) x.core)
      ((loadsEnded d x.core).plotOf x.core) := by
  unfold fenceCore coreShut loadsEnded noteFenced laneMarkers
  dsimp only
  generalize fenceLoads _ _ = e
  cases e.plotOf x.core <;> rfl

theorem fenceCore_of_plot {x : Detected} {p : Plot} (h : (loadsEnded d x.core).plotOf x.core = some (pid, p)) :
    fenceCore d x = fencePlot (coreShut d x (some pid)) pid p x (laneMarkers (loadsEnded d x.core) x.core) := by
  rw [fenceCore_eq, h]
  rfl

theorem fenceCore_of_no_plot {x : Detected} (h : (loadsEnded d x.core).plotOf x.core = none) :
    fenceCore d x = reportFence (coreShut d x none) 0xFFFF x := by
  rw [fenceCore_eq, h]
  rfl

/-- After the core is shut a fence keeps it so. -/
theorem fenceCore_fenceWork (d : Dev) (x : Detected) : ∃ i, FenceWork x.core x.status (coreShut d x i) (fenceCore d x) := by
  cases hat : (loadsEnded d x.core).plotOf x.core with
  | none =>
    rw [fenceCore_of_no_plot hat]
    exact ⟨none, reportFence_fenceWork ..⟩
  | some y =>
    rw [fenceCore_of_plot hat]
    exact ⟨some y.1, fencePlot_fenceWork ..⟩

section
variable {st : Status}

theorem clearActive_keepsShut : KeepsShut Core.clearActive := fun c => by
  unfold Core.clearActive
  have h := setPair_frame c c.active none
  generalize c.setPair _ _ = e at h ⊢
  rw [h]

theorem evictActive_fenceWork (d : Dev) (pid : Nat) : FenceWork n st d (evictActive d pid) := by
  unfold evictActive
  split
  · exact .refl d
  · exact (FenceWork.of_updCores clearActive_keepsShut _).trans (.of_updPlot _)

theorem fenceLoad_fenceWork (pid : Nat) (d : Dev) (j : Job) : FenceWork n st d (fenceLoad pid d j) := by
  have habort : FenceWork n st d (d.abortJob j.id stCoreFenced) := abortJob_fenceWork ..
  unfold fenceLoad
  dsimp only
  generalize d.abortJob j.id stCoreFenced = e at habort ⊢
  split
  · exact habort
  · split
    · exact (habort.trans (evictActive_fenceWork ..)).trans (.of_updPlot _)
    · exact (habort.trans (clearShadows_fenceWork ..)).trans (.of_updPlot _)

theorem fenceLoads_fenceWork (d : Dev) (at' : Option (Nat × Plot)) : FenceWork n st d (fenceLoads d at') := by
  unfold fenceLoads
  split
  · exact .refl d
  · exact .foldl (fun e j => fenceLoad_fenceWork _ e j) _ d

theorem endAffected_fenceWork (d : Dev) (k : Nat) (i : Option Nat) : FenceWork n st d (endAffected d k i) :=
  .foldl (fun e id => abortJob_fenceWork e id _) _ d

end

theorem plots_endAffected (d : Dev) (k : Nat) (i : Option Nat) : (endAffected d k i).plots = d.plots :=
  List.foldlRecOn (motive := fun e : Dev => e.plots = d.plots) _ _ rfl fun _ he _ _ => he

theorem mem_coreShut (d : Dev) (x : Detected) (i : Option Nat) : (coreShut d x i).mem = d.mem := by
  have hloads : FenceWork x.core x.status (noteFenced d) (loadsEnded d x.core) := fenceLoads_fenceWork ..
  exact (endAffected_fenceWork (n := x.core) (st := x.status) ..).mem.trans hloads.mem

theorem status_coreShut (d : Dev) (x : Detected) (i : Option Nat) : (coreShut d x i).err.status.getLsbD 1 = true := by
  have hloads : FenceWork x.core x.status (noteFenced d) (loadsEnded d x.core) := fenceLoads_fenceWork ..
  exact (endAffected_fenceWork (n := x.core) (st := x.status) ..).status (hloads.status (getLsbD_setBit_self _ (by decide)))

theorem shut_coreShut (d : Dev) (x : Detected) (i : Option Nat) : ((coreShut d x i).core x.core).Shut x.status := by
  refine (endAffected_fenceWork (n := x.core) ..).shut ?_
  rw [Dev.core_updCore]
  exact Core.shut_shut ..

/-- The plot of a fenced core stops, its graft over and its unaccepted records kept (R280, R430). -/
theorem plot_fenceCore {x : Detected} {p : Plot} (hof : d.plotOf x.core = some (pid, p)) (hp : d.plot pid = some p) :
    ∃ q, (fenceCore d x).plot pid = some q ∧ q.restart ≠ .none ∧ q.graft = none ∧ q.replay = p.replay := by
  have hnote : HoldsPlot x.core pid p (noteFenced d) := ⟨p, hof, hp, .refl p⟩
  have hloads : HoldsPlot x.core pid p (loadsEnded d x.core) := hnote.fenceLoads _ fun i q h => by
    rw [hof] at h
    exact (Prod.mk.inj (Option.some.inj h)).1.symm
  obtain ⟨q, hq, hpl, -, hreplay⟩ := hloads.holds
  have hshut : (coreShut d x (some pid)).plot pid = some q := by
    rw [Dev.plot, coreShut, plots_endAffected]
    exact hpl
  rw [fenceCore_of_plot hq, ← hreplay]
  exact plot_fencePlot hshut x _

/-! ### Re-placement (R433 to R435) -/

theorem reportFence_plots (d : Dev) (i : Nat) (x : Detected) : (reportFence d i x).plots = d.plots := by
  rw [reportFence_eq]
  change (d.report _).plots = _
  rw [Dev.report_frame]

/-- The fences of a plot that are reported leave it nothing else but its list of them, and memory as it was. -/
theorem reportFences_frame {p : Plot} (hp : d.plot pid = some p) :
    (reportFences d pid).plot pid = some { p with fences := [] } ∧ (reportFences d pid).mem = d.mem := by
  have hplots : (p.fences.foldl (fun e x => reportFence e pid x) d).plots = d.plots :=
    List.foldlRecOn (motive := fun e : Dev => e.plots = d.plots) _ _ rfl fun e he x _ => (reportFence_plots e pid x).trans he
  have hmem : FenceWork 0 0 d (p.fences.foldl (fun e x => reportFence e pid x) d) := .foldl (fun e x => reportFence_fenceWork e pid x) _ d
  unfold reportFences
  rw [hp]
  dsimp only
  generalize p.fences.foldl (fun e x => reportFence e pid x) d = e at hplots hmem ⊢
  have hpe : e.plot pid = some p := by rwa [Dev.plot, hplots]
  refine ⟨by rw [Dev.plot_updPlot, hpe]; rfl, ?_⟩
  exact ((FenceWork.of_updPlot (n := 0) (st := 0) _).mem).trans hmem.mem

theorem installAll_plots (d : Dev) (p : Plot) (g : GroveInfo) (ss : List Slice) :
    (installAll d p g ss).plots = d.plots ∧ (installAll d p g ss).mem = d.mem :=
  List.foldlRecOn (motive := fun e : Dev => e.plots = d.plots ∧ e.mem = d.mem) _ _ ⟨rfl, rfl⟩ fun _ he _ _ => he

/-- The slices of a plot's re-placement fit: cores are left, routes lead to them, and each slice finds room in its core. -/
def SlicesFit (env : Env) (p : Plot) (g : Grove) (ss : List Slice) (routed : Bool) : Prop :=
  p.cores ≠ [] ∧ routed = true ∧ copyBad env p.cluster = false ∧ ∀ x ∈ ss, capacityOk g.info.fold x = true ∧ featuresOk g.info.fold x = true

theorem slicesFit_iff (env : Env) (p : Plot) (g : Grove) (ss : List Slice) (routed : Bool) :
    (p.cores.isEmpty || !routed || copyBad env p.cluster || !ss.all (fun x => capacityOk g.info.fold x && featuresOk g.info.fold x)) = true ↔
      ¬ SlicesFit env p g ss routed := by
  unfold SlicesFit
  rw [← Bool.not_eq_false, not_iff_not]
  simp only [Bool.or_eq_false_iff, Bool.not_eq_false', List.isEmpty_eq_false_iff, List.all_eq_true, Bool.and_eq_true, and_assoc]

/-- A plot with its new slices, ACTIVE again (R434). -/
def Plot.rePlaced (g : Grove) (p : Plot) : Plot :=
  { p with activeGrove := some g, shadowGrove := none, state := .active, restart := p.restart.replaced p.startsHere }

section
variable {env : Env} {g : Grove} {p : Plot} {table : List (Nat × Slice)} {lost : List Nat} {routed : Bool} (hp : d.plot pid = some p)
include hp

theorem replaceSlices_of_fit (hfit : SlicesFit env p g (newSlices g table p.cores lost) routed) :
    replaceSlices d env pid g table lost routed =
      reportFences ((installAll d p g.info (newSlices g table p.cores lost)).updPlot pid
        (Plot.rePlaced { g with slices := newSlices g table p.cores lost })) pid := by
  unfold replaceSlices
  rw [hp]
  exact if_neg fun h => (slicesFit_iff ..).mp h hfit

theorem replaceSlices_of_no_fit (hfit : ¬ SlicesFit env p g (newSlices g table p.cores lost) routed) :
    replaceSlices d env pid g table lost routed = failReplacement d env pid := by
  unfold replaceSlices
  rw [hp]
  exact if_pos ((slicesFit_iff ..).mpr hfit)

theorem plot_replaceSlices (hfit : SlicesFit env p g (newSlices g table p.cores lost) routed) :
    (replaceSlices d env pid g table lost routed).plot pid =
        some { p.rePlaced { g with slices := newSlices g table p.cores lost } with fences := [] } ∧
      (replaceSlices d env pid g table lost routed).mem = d.mem := by
  rw [replaceSlices_of_fit hp hfit]
  generalize newSlices g table p.cores lost = ss
  obtain ⟨hplots, hmem⟩ := installAll_plots d p g.info ss
  generalize installAll d p g.info ss = e at hplots hmem ⊢
  have hpe : e.plot pid = some p := by rwa [Dev.plot, hplots]
  have hnew : (e.updPlot pid (Plot.rePlaced { g with slices := ss })).plot pid = some (p.rePlaced { g with slices := ss }) := by
    rw [Dev.plot_updPlot, hpe]
    rfl
  obtain ⟨hplot, hkeep⟩ := reportFences_frame hnew
  exact ⟨hplot, hkeep.trans (((FenceWork.of_updPlot (n := 0) (st := 0) _).mem).trans hmem)⟩

theorem rePlacement_of_none_fenced (hno : fencedIn d p = []) : rePlacement pid env d = d := by
  unfold rePlacement
  rw [hp]
  exact if_pos (by rw [hno]; rfl)

theorem rePlacement_of_fenced (hsome : fencedIn d p ≠ []) (hr : p.restart ≠ .failed) (hg : p.activeGrove = some g) :
    rePlacement pid env d = replaceSlices (patchAll d pid (fencedIn d p)).1 env pid g (sliceTable p g) (fencedIn d p)
      (patchAll d pid (fencedIn d p)).2 := by
  unfold rePlacement
  rw [hp]
  dsimp only
  rw [if_neg (by simpa using hsome), if_neg hr, hg]

end

end Sys2Proof.Machine

namespace Sys2Proof.Proofs
open Sys2Proof.Machine Sys2Proof.Safety

/-- Settles O58: a shut core stays shut through the rest of the fence, and its plot's chain finds it again; a re-placement that fits
writes cores and that plot alone. -/
theorem fencesAndRePlacement : Obligations.FencesAndRePlacement := by
  unfold Obligations.FencesAndRePlacement
  refine ⟨⟨?_, ?_, ?_, fun _ _ _ _ h => core_of_faultOf h⟩, ?_, ?_⟩
  · intro n u x s hl hx hn ho
    refine ⟨_, congrArg Host.Outcome.next (fence_of_open hl hx ho), rfl, rfl, ?_⟩
    obtain ⟨i, hwork⟩ := fenceCore_fenceWork (withoutFault s.dev x) x
    obtain ⟨h1, h2, h3, h4, h5, h6, h7⟩ := hwork.shut (shut_coreShut ..)
    rw [hn] at h1 h2 h3 h4 h5 h6 h7
    exact ⟨h1, h2, h3, h4, h5, h6, h7, hwork.status (status_coreShut ..), hwork.mem.trans (mem_coreShut ..),
      fun pid p hof hp => plot_fenceCore (d := withoutFault s.dev x) (by rw [hn]; exact hof) hp⟩
  · intro n u x s hl hx hn ho
    refine ⟨_, congrArg Host.Outcome.next (fence_of_fenced hl hx ho), rfl, ?_, ?_, Dev.seqNext_report ..⟩
    · change ((withoutFault s.dev x).report _).cores = _
      rw [Dev.report_frame]
      rfl
    · change ((withoutFault s.dev x).report _).plots = _
      rw [Dev.report_frame]
      rfl
  · intro n u s hx
    exact congrArg Host.Outcome.next (fence_of_none hx)
  · intro pid env p p' g s hl hp hsome hr hg hp'
    have hrun := rePlacement_of_fenced (env := env) hp hsome hr hg
    refine ⟨fun hfit => ?_, fun hfit => ?_⟩
    · obtain ⟨hplot, hmem⟩ := plot_replaceSlices hp' hfit
      exact ⟨_, _, onDev_next hl hrun, rfl, hplot, rfl, rfl, rfl, rfl, rfl, hmem⟩
    · exact onDev_next hl (hrun.trans (replaceSlices_of_no_fit hp' hfit))
  · intro pid env p s hp hno
    exact onDev_same (rePlacement_of_none_fenced hp hno)

end Sys2Proof.Proofs
end

section
/-! SUPPORT. Plain memory as it reads after a write, and a COPY within the device (R27, R397, R402). -/

namespace Sys2Proof.Machine
open Sys2Proof.Safety
variable {d e : Dev} {x : Desc}

/-! ### Plain memory (R23, R27) -/

/-- A byte of plain memory reads as what was last written there. -/
theorem localByte_of_plain {o : Nat} (h : plainMem o = true) (d : Dev) : d.localByte o = Tbl.get unlistedByte o d.mem := by
  unfold plainMem at h
  unfold Dev.localByte
  split at h
  next hr =>
    rw [hr]
    exact if_neg (ne_true_of_eq_false ((Bool.not_eq_true' _).mp h))
  next hr => rw [hr]
  next r hr =>
    have hlow : ¬ r < 0x1000000 ∧ ¬ r < 0x1100000 := by
      have := of_decide_eq_true h
      omega
    rw [hr]
    exact (if_neg hlow.1).trans (if_neg hlow.2)
  next hr =>
    rw [hr]
    exact if_neg (ne_true_of_eq_false ((Bool.not_eq_true' _).mp h))
  next => exact nomatch h

theorem setLocalByte_of_plain {o : Nat} (h : plainMem o = true) (d : Dev) (b : Byte) :
    d.setLocalByte o b = { d with mem := Tbl.set unlistedByte o b d.mem } := by
  unfold plainMem at h
  unfold Dev.setLocalByte
  split at h
  next hr =>
    rw [hr]
    exact if_neg (ne_true_of_eq_false ((Bool.not_eq_true' _).mp h))
  next hr => rw [hr]
  next r hr =>
    have hlow : ¬ r < 0x1100000 := by
      have := of_decide_eq_true h
      omega
    rw [hr]
    exact if_neg hlow
  next hr =>
    rw [hr]
    exact if_neg (ne_true_of_eq_false ((Bool.not_eq_true' _).mp h))
  next => exact nomatch h

/-- Plain memory reads as written. -/
theorem get_setLocalBytes_self {b : Bytes} {o i : Nat} (hi : i < b.length) (hp : ∀ k, k < b.length → plainMem (o + k) = true) :
    Tbl.get unlistedByte (o + i) (d.setLocalBytes o b).mem = b[i] := by
  induction b generalizing d o i with
  | nil => exact absurd hi (Nat.not_lt_zero i)
  | cons y ys ih =>
    rw [Dev.setLocalBytes]
    cases i with
    | zero =>
      have hfirst : plainMem o = true := hp 0 (Nat.zero_lt_succ _)
      rw [Nat.add_zero, Dev.get_setLocalBytes _ (by omega), setLocalByte_of_plain hfirst]
      exact Tbl.get_set_self ..
    | succ i =>
      have hnext : o + (i + 1) = o + 1 + i := by omega
      rw [hnext, ih (Nat.lt_of_succ_lt_succ hi) fun k hk => ?_]
      · rfl
      · rw [show o + 1 + k = o + (k + 1) by omega]
        exact hp (k + 1) (Nat.succ_lt_succ hk)

theorem not_regs_of_plain {o : Nat} (h : plainMem o = true) : ((regionOf o).1 == .regs) = false := by
  unfold plainMem at h
  generalize regionOf o = y at h ⊢
  obtain ⟨r, q⟩ := y
  cases r with
  | regs => exact nomatch h
  | _ => rfl

/-- Two ends of a range in one HBM outside its device region: so is all that lies between. -/
theorem plainMem_between {o p y c c' r r' : Nat} (ho : regionOf o = (.hbm c, r)) (hp : regionOf p = (.hbm c', r')) (hc : c = c')
    (hr : inDeviceRegion r' = false) (hoy : o ≤ y) (hyp : y ≤ p) : plainMem y = true := by
  have hbm : ∀ {q k z : Nat}, regionOf q = (.hbm k, z) → q < 4 * hbmBytes ∧ q / hbmBytes = k ∧ q % hbmBytes = z := fun {q k z} hq => by
    unfold regionOf at hq
    split at hq
    next hlt =>
      obtain ⟨hk, hz⟩ := Prod.mk.inj hq
      exact ⟨hlt, Region.hbm.inj hk, hz⟩
    · dsimp only at hq
      split at hq
      · exact nomatch hq
      · split at hq
        · split at hq <;> exact nomatch hq
        · split at hq
          · split at hq <;> exact nomatch hq
          · split at hq <;> exact nomatch hq
  obtain ⟨-, hco, -⟩ := hbm ho
  obtain ⟨hlt, hcp, hrp⟩ := hbm hp
  have hy : regionOf y = (.hbm (y / hbmBytes), y % hbmBytes) := if_pos (hyp.trans_lt hlt)
  have hin : y % hbmBytes < 0x3B80000000 := by
    have hend : r' < 0x3B80000000 := by simpa [inDeviceRegion] using hr
    unfold hbmBytes at *
    omega
  unfold plainMem
  rw [hy]
  simpa [inDeviceRegion] using hin

/-- A range that a descriptor may write is plain memory (R27). -/
theorem plainMem_of_addrOk {a n : Nat} (h : d.addrOk .write false a n = true) {i : Nat} (hi : i < n) : plainMem (addrLocal a + i) = true := by
  unfold Dev.addrOk at h
  dsimp only at h
  have hn : max n 1 = n := by omega
  rw [hn] at h
  simp only [Bool.and_eq_true] at h
  obtain ⟨⟨⟨-, heq⟩, hreg⟩, -⟩ := h
  cases hfirst : (regionOf (addrLocal a)).1 with
  | hbm c =>
    rw [hfirst] at heq hreg
    have hlast : (regionOf (addrLocal a + n - 1)).1 = .hbm c := (beq_iff_eq.mp heq).symm
    have hout : inDeviceRegion (regionOf (addrLocal a + n - 1)).2 = false := by
      simp only [Bool.or_eq_true, Bool.not_eq_true', Bool.or_eq_false_iff] at hreg
      rcases hreg with h | h
      · exact h.2
      · exact nomatch h
    exact plainMem_between (Prod.ext hfirst rfl) (Prod.ext hlast rfl) rfl hout (by omega) (by omega)
  | hub => rw [hfirst] at hreg; exact absurd hreg (by simp)
  | csram c => rw [hfirst] at hreg; exact absurd hreg (by simp)
  | cmem c => rw [hfirst] at hreg; exact absurd hreg (by simp)
  | regs => rw [hfirst] at hreg; exact absurd hreg (by simp)
  | reserved => rw [hfirst] at hreg; exact absurd hreg (by simp)

/-! ### A COPY within the device (R397) -/

theorem checks_go_iff {l : List (Bool × Status)} : checks l = .go ↔ ∀ y ∈ l, y.1 = false := by
  unfold checks
  induction l with
  | nil => exact ⟨fun _ _ h => absurd h List.not_mem_nil, fun _ => rfl⟩
  | cons y l ih =>
    obtain ⟨b, st⟩ := y
    rw [List.forall_mem_cons, ← ih, firstFail]
    cases b
    · exact ⟨fun h => ⟨rfl, h⟩, fun h => h.2⟩
    · exact ⟨fun h => (nomatch h), fun h => (nomatch h.1)⟩

theorem checkCopy_of_go (h : checkCopy d x = .go) :
    1 ≤ x.copyBytes ∧ (x.dstHost = false → d.addrOk .write false (x.op 0x18 8) x.copyBytes = true) := by
  obtain ⟨hform, hrest⟩ := List.forall_mem_cons.mp (checks_go_iff.mp h)
  obtain ⟨-, hrest⟩ := List.forall_mem_cons.mp hrest
  obtain ⟨-, hrest⟩ := List.forall_mem_cons.mp hrest
  obtain ⟨hdst, -⟩ := List.forall_mem_cons.mp hrest
  refine ⟨?_, fun hd => ?_⟩
  · have hkept : copyForm x = true := (Bool.not_eq_false' _).mp hform
    unfold copyForm at hkept
    rw [Bool.and_eq_true, Bool.and_eq_true, Bool.and_eq_true, Bool.and_eq_true] at hkept
    obtain ⟨⟨⟨⟨-, hone⟩, -⟩, -⟩, -⟩ := hkept
    exact of_decide_eq_true hone
  · dsimp only at hdst
    rw [hd, Bool.not_false, Bool.true_and] at hdst
    exact (Bool.not_eq_false' _).mp hdst

/-- A source in plain memory without an uncorrectable error is read whole. -/
theorem copyRead_local {mc : Mc} {env : Env} (hs : x.srcHost = false) (hd : addrDevice (x.op 0x10 8) = d.deviceId) (hecc : env.ecc = [])
    (hplain : plainMem (addrLocal (x.op 0x10 8)) = true) :
    copyRead mc d env x = (d, d.localBytes (addrLocal (x.op 0x10 8)) x.copyBytes, 0) := by
  have hregs := not_regs_of_plain hplain
  have hgood : ∀ a n, goodPrefix d env a n = d.localBytes (addrLocal a) n := fun a n => by
    unfold goodPrefix
    rw [hecc]
    have hall : (tab n id).takeWhile (fun i => !([] : List (Nat × Nat)).any fun p => overlaps p.1 p.2 (a + i) 1) = tab n id :=
      List.takeWhile_eq_self_iff.mpr fun _ _ => rfl
    rw [hall, tab, List.map_id]
    rfl
  have hread : copyRead mc d env x =
      (d, goodPrefix d env (x.op 0x10 8) x.copyBytes, if (goodPrefix d env (x.op 0x10 8) x.copyBytes).length = x.copyBytes then 0 else stEcc) :=
    (if_neg (ne_true_of_eq_false hs)).trans ((if_neg (not_not_intro hd)).trans (if_neg (ne_true_of_eq_false hregs)))
  rw [hread, hgood, if_pos (by rw [Dev.localBytes, length_tab])]

/-- Without an uncorrectable error in staging nothing is lost there (R419). -/
theorem staged_of_clean {j : Job} (h : j.env.ecc = []) (n : Nat) (d : Dev) (b : Bytes) (st : Status) : staged j n d b st = (d, b, st) := by
  have hbad : stagingBad j.env = false := by rw [stagingBad, h]; rfl
  exact if_neg (ne_true_of_eq_false hbad)

theorem overlapFree_of_apart {b : Bytes} (h : x.op 0x10 8 = x.op 0x18 8 ∨ x.op 0x10 8 + b.length ≤ x.op 0x18 8 ∨
    x.op 0x18 8 + b.length ≤ x.op 0x10 8) (d : Dev) : overlapFree d x b = (d, b) := by
  refine if_pos ?_
  simp only [Bool.or_eq_true, Bool.not_eq_true', decide_eq_true_eq, overlaps, Bool.and_eq_false_iff, decide_eq_false_iff_not]
  omega

theorem copyWrite_local {j : Job} (h : j.desc.dstHost = false) (hd : addrDevice (j.desc.op 0x18 8) = d.deviceId) (n : Nat) (b : Bytes) :
    copyWrite d j n b = (d.setLocalBytes (addrLocal (j.desc.op 0x18 8)) b, b.length, 0) := by
  have hroute : ¬ (addrDevice (j.desc.op 0x18 8) ≠ d.deviceId && (d.routePort (addrDevice (j.desc.op 0x18 8))).isNone) = true := by simp [hd]
  have hrun : copyWrite d j n b = (d.writeG j.id (j.desc.op 0x18 8) b, b.length, 0) :=
    (if_neg (ne_true_of_eq_false h)).trans (if_neg hroute)
  rw [hrun, writeG_local hd]

/-- The engine that a COPY takes. -/
def copyEngine (d : Dev) (j : Job) : Nat := j.engine.getD (pickEngine d j.desc)

/-- The descriptor on its engine, as its COPY starts. -/
def onCopyEngine (d : Dev) (j : Job) : Dev := d.updJob j.id fun k => { k with engine := some (copyEngine d j), phase := .queued }

/-- A COPY within the device whose ranges do not meet, that nothing goes before and no error meets (R397, R402). -/
structure CopyGoes (d : Dev) (j : Job) : Prop where
  srcHost : j.desc.srcHost = false
  dstHost : j.desc.dstHost = false
  srcHere : addrDevice (j.desc.op 0x10 8) = d.deviceId
  dstHere : addrDevice (j.desc.op 0x18 8) = d.deviceId
  clean : j.env.ecc = []
  srcPlain : plainMem (addrLocal (j.desc.op 0x10 8)) = true
  apart : j.desc.op 0x10 8 = j.desc.op 0x18 8 ∨ j.desc.op 0x10 8 + j.desc.copyBytes ≤ j.desc.op 0x18 8 ∨
    j.desc.op 0x18 8 + j.desc.copyBytes ≤ j.desc.op 0x10 8
  alone : copyWaits (onCopyEngine d j) j (copyEngine d j) = false

/-- The bytes that a COPY moves. -/
def copyData (d : Dev) (j : Job) : Bytes := (onCopyEngine d j).localBytes (addrLocal (j.desc.op 0x10 8)) j.desc.copyBytes

theorem length_copyData (d : Dev) (j : Job) : (copyData d j).length = j.desc.copyBytes := by rw [copyData, Dev.localBytes, length_tab]

/-- Such a COPY moves all its bytes at once. -/
theorem startCopy_of_goes {j : Job} (h : CopyGoes d j) (mc : Mc) : startCopy mc j d =
    endCopy ((onCopyEngine d j).setLocalBytes (addrLocal (j.desc.op 0x18 8)) (copyData d j)) j (copyEngine d j) j.desc.copyBytes 0 := by
  have hread : copyRead mc (onCopyEngine d j) j.env j.desc = (onCopyEngine d j, copyData d j, 0) :=
    copyRead_local h.srcHost h.srcHere h.clean h.srcPlain
  have hwrite := copyWrite_local (d := onCopyEngine d j) h.dstHost h.dstHere (copyEngine d j) (copyData d j)
  have hover := overlapFree_of_apart (b := copyData d j) (by rw [length_copyData]; exact h.apart) (onCopyEngine d j)
  unfold startCopy
  refine (if_neg (ne_true_of_eq_false h.alone)).trans ?_
  generalize hr : copyRead mc _ j.env j.desc = r
  obtain rfl : r = (onCopyEngine d j, copyData d j, 0) := hr.symm.trans hread
  clear hr hread
  have hok : ¬ (0 : Status) = stEcc := by decide
  have hstaged := staged_of_clean h.clean (copyEngine d j) (onCopyEngine d j) (copyData d j) 0
  rw [length_copyData] at hwrite
  generalize onCopyEngine d j = f at hstaged hover hwrite ⊢
  generalize copyData d j = b at hstaged hover hwrite ⊢
  change copyWrite f j (j.engine.getD (pickEngine d j.desc)) b = _ at hwrite
  change staged j (j.engine.getD (pickEngine d j.desc)) f b 0 = _ at hstaged
  simp only [if_neg hok, hstaged, hover, hwrite, if_true]
  rfl

theorem mem_updJob {j : Job} (h : j ∈ d.jobs) (f : Job → Job) : f j ∈ (d.updJob j.id f).jobs :=
  List.mem_map.mpr ⟨j, h, if_pos rfl⟩

/-- With no other descriptor on a copy engine, a COPY from plain memory waits for nothing (R397, R402). -/
theorem copyWaits_of_alone {j : Job} (hs : j.desc.srcHost = false) (hplain : plainMem (addrLocal (j.desc.op 0x10 8)) = true)
    (halone : ∀ k ∈ d.jobs, k.id ≠ j.id → k.engine = none) (n : Nat) : copyWaits (onCopyEngine d j) j n = false := by
  have hbefore : ((onCopyEngine d j).before j.id).any (fun k => k.engine == some n && occupies (onCopyEngine d j) k) = false := by
    refine List.any_eq_false.mpr fun k hk => ?_
    have hid : k.id ≠ j.id := by simpa using List.mem_takeWhile_imp hk
    obtain ⟨k0, hk0, hk1⟩ := List.mem_map.mp ((List.takeWhile_sublist _).subset hk)
    have hother : k0.id ≠ j.id := fun h0 => by
      rw [if_pos h0] at hk1
      exact hid (hk1 ▸ h0)
    rw [if_neg hother] at hk1
    rw [← hk1, halone k0 hk0 hother]
    exact Bool.false_ne_true
  unfold copyWaits
  dsimp only
  rw [hbefore, hs, not_regs_of_plain hplain, Bool.and_false, Bool.false_and, Bool.or_self, Bool.false_and, Bool.or_self]

/-- A COPY that ends well changes its engine and the descriptors, and leaves its own done, with the bytes moved. -/
theorem endCopy_ok (d : Dev) (j : Job) (m n : Nat) :
    endCopy d j m n 0 = { d with engines := (endCopy d j m n 0).engines, jobs := (endCopy d j m n 0).jobs } := by
  have hend : endCopy d j m n 0 = (noteMoved d j.id m n).finishJob j.id 0 := by
    unfold endCopy Dev.countAccessFault
    rw [if_pos rfl, if_neg (by decide)]
  have hmoved : noteMoved d j.id m n = { d with engines := (noteMoved d j.id m n).engines, jobs := (noteMoved d j.id m n).jobs } := rfl
  rw [hend]
  generalize noteMoved d j.id m n = e at hmoved ⊢
  rw [hmoved]
  rfl

theorem mem_endCopy {j k : Job} (hk : k ∈ d.jobs) (hid : k.id = j.id) (h0 : k.detail0 = 0)
    (hd : addrDevice (k.desc.op 0x18 8) = d.deviceId) (m n : Nat) :
    ∃ y ∈ (endCopy d j m n 0).jobs, y.id = j.id ∧ y.phase = .done ∧ y.status = 0 ∧ y.detail0 = n := by
  have hhere : (k.desc.dstHost || addrDevice (k.desc.op 0x18 8) == d.deviceId) = true := by rw [beq_iff_eq.mpr hd, Bool.or_true]
  have hmoved : ∃ y ∈ (noteMoved d j.id m n).jobs, y.id = j.id ∧ y.detail0 = n := by
    refine ⟨_, List.mem_map.mpr ⟨k, hk, if_pos hid⟩, hid, ?_⟩
    dsimp only
    rw [if_pos hhere, h0, Nat.zero_add]
  obtain ⟨y, hy, hyid, hdetail⟩ := hmoved
  exact ⟨_, List.mem_map.mpr ⟨y, hy, if_pos hyid⟩, hyid, rfl, rfl, hdetail⟩

section
variable {j : Job} (h : CopyGoes d j) (mc : Mc)
include h

theorem startCopy_frame : startCopy mc j d =
    { d with mem := (startCopy mc j d).mem, engines := (startCopy mc j d).engines, jobs := (startCopy mc j d).jobs } := by
  rw [startCopy_of_goes h, endCopy_ok, Dev.setLocalBytes_frame]
  rfl

theorem mem_startCopy : (startCopy mc j d).mem = (d.setLocalBytes (addrLocal (j.desc.op 0x18 8)) (copyData d j)).mem := by
  have hon : (onCopyEngine d j).mem = d.mem := rfl
  rw [startCopy_of_goes h, endCopy_ok]
  dsimp only
  exact Dev.setLocalBytes_mem_congr hon _ _

/-- The destination holds what the source held. -/
theorem localByte_startCopy_dst (hsrc : ∀ i, i < j.desc.copyBytes → plainMem (addrLocal (j.desc.op 0x10 8) + i) = true)
    (hdst : ∀ i, i < j.desc.copyBytes → plainMem (addrLocal (j.desc.op 0x18 8) + i) = true) {i : Nat} (hi : i < j.desc.copyBytes) :
    (startCopy mc j d).localByte (addrLocal (j.desc.op 0x18 8) + i) = d.localByte (addrLocal (j.desc.op 0x10 8) + i) := by
  have hlt : i < (copyData d j).length := by rwa [length_copyData]
  have hread : (copyData d j)[i] = (onCopyEngine d j).localByte (addrLocal (j.desc.op 0x10 8) + i) := by
    simp [copyData, Dev.localBytes, tab]
  rw [localByte_of_plain (hdst i hi), mem_startCopy h, get_setLocalBytes_self hlt fun k hk => hdst k (by rwa [length_copyData] at hk), hread,
    localByte_of_plain (hsrc i hi), localByte_of_plain (hsrc i hi)]
  rfl

/-- Plain memory outside the destination stands. -/
theorem localByte_startCopy_other {o : Nat} (ho : plainMem o = true)
    (hout : o < addrLocal (j.desc.op 0x18 8) ∨ addrLocal (j.desc.op 0x18 8) + j.desc.copyBytes ≤ o) :
    (startCopy mc j d).localByte o = d.localByte o := by
  rw [localByte_of_plain ho, mem_startCopy h, Dev.get_setLocalBytes _ (by rwa [length_copyData]), localByte_of_plain ho]

theorem done_startCopy (hj : j ∈ d.jobs) (h0 : j.detail0 = 0) :
    ∃ y ∈ (startCopy mc j d).jobs, y.id = j.id ∧ y.phase = .done ∧ y.status = 0 ∧ y.detail0 = j.desc.copyBytes := by
  rw [startCopy_of_goes h]
  have hon := mem_updJob hj fun k => { k with engine := some (copyEngine d j), phase := .queued }
  refine mem_endCopy (k := { j with engine := some (copyEngine d j), phase := .queued }) ?_ rfl h0 ?_ _ _
  · rw [Dev.setLocalBytes_frame]
    exact hon
  · rw [Dev.setLocalBytes_frame]
    exact h.dstHere

end

/-! ### A COPY dispatched -/

theorem askReads_copy {j : Job} (hc : j.desc.code = 0x60) (hd : addrDevice (j.desc.op 0x10 8) = d.deviceId) : askReads d j = d := by
  have hblocks : blocksRead d j = [] := by simp only [blocksRead, hc]
  have hread : dataRead d j = if j.desc.srcHost then [] else [(j.desc.op 0x10 8, j.desc.copyBytes)] := by simp only [dataRead, hc]
  have hask : d.askRead (j.desc.op 0x10 8) j.desc.copyBytes = d := if_pos hd
  unfold askReads
  rw [hblocks, hread]
  split
  · rfl
  · exact hask

/-- The ring entry of a COPY. -/
def copyEntry (c : Fin 64) (x : Desc) (env : Env) : Entry := ⟨c.val, { x with opcode := 0x60 }, env, true⟩

section
variable {c : Fin 64} {env : Env} {s : State}

theorem exec_copy (h : dispatches (.copy c x env) (copyEntry c x env) s) (hd : addrDevice (x.op 0x10 8) = s.dev.deviceId) :
    exec (.copy c x env) s = .next (withDev s (startCopy s.mc (jobAt s (copyEntry c x env)) (entered s (copyEntry c x env)))) := by
  have hcode : (copyEntry c x env).desc.code ≠ 0x71 := show (0x60 : Nat) ≠ 0x71 by decide
  have hask : askReads (entered s (copyEntry c x env)) (jobAt s (copyEntry c x env)) = entered s (copyEntry c x env) :=
    askReads_copy rfl (by rw [entered_spec]; exact hd)
  rw [exec_of_dispatched h, takeConst_of_ne hcode, startNew_of_noBlocks (by rw [hask]; rfl), hask]
  rfl

/-- A COPY between two plain ranges of this device goes at once where no other descriptor holds an engine. -/
theorem copyGoes_of_dispatched (hecc : env.ecc = []) (hsrc : x.srcHost = false) (hdst : x.dstHost = false)
    (hsd : addrDevice (x.op 0x10 8) = s.dev.deviceId) (hdd : addrDevice (x.op 0x18 8) = s.dev.deviceId)
    (hapart : x.op 0x10 8 = x.op 0x18 8 ∨ x.op 0x10 8 + x.copyBytes ≤ x.op 0x18 8 ∨ x.op 0x18 8 + x.copyBytes ≤ x.op 0x10 8)
    (hplain : plainMem (addrLocal (x.op 0x10 8)) = true) (halone : ∀ j ∈ s.dev.jobs, j.engine = none) :
    CopyGoes (entered s (copyEntry c x env)) (jobAt s (copyEntry c x env)) where
  srcHost := by rw [jobAt_desc]; exact hsrc
  dstHost := by rw [jobAt_desc]; exact hdst
  srcHere := by rw [entered_spec, jobAt_desc]; exact hsd
  dstHere := by rw [entered_spec, jobAt_desc]; exact hdd
  clean := hecc
  srcPlain := by rw [jobAt_desc]; exact hplain
  apart := by rw [jobAt_desc]; exact hapart
  alone := copyWaits_of_alone (by rw [jobAt_desc]; exact hsrc) (by rw [jobAt_desc]; exact hplain) (fun k hk hid => by
    rw [entered_spec] at hk
    rcases List.mem_append.mp hk with hk | hk
    · exact halone k hk
    · exact absurd (congrArg Job.id (List.mem_singleton.mp hk)) hid) _

end

end Sys2Proof.Machine

namespace Sys2Proof.Proofs
open Sys2Proof.Machine Sys2Proof.Safety

/-- Settles O24: the COPY reads its source whole before it writes, and its checks keep the destination in plain HBM. -/
theorem copyMovesBytes : Obligations.CopyMovesBytes := by
  intro c x env y s h hecc hsrc hdst hsd hdd hapart hplain halone
  obtain rfl : y = copyEntry c x env := (Option.some.inj h.1).symm
  obtain ⟨hlen, hok⟩ := checkCopy_of_go (opcodeCheck_of_go h.2.2.2)
  have hgoes := copyGoes_of_dispatched (c := c) hecc hsrc hdst hsd hdd hapart (hplain 0 hlen) halone
  have hspec := entered_spec s (copyEntry c x env)
  have hsame : ∀ o, plainMem o = true → (entered s (copyEntry c x env)).localByte o = s.dev.localByte o := fun o ho => by
    rw [localByte_of_plain ho, localByte_of_plain ho, hspec]
  have hframe := startCopy_frame hgoes s.mc
  have hmem : jobAt s (copyEntry c x env) ∈ (entered s (copyEntry c x env)).jobs := by
    rw [hspec]
    exact List.mem_append_right _ (List.mem_singleton.mpr rfl)
  obtain ⟨k, hk, hid, hdone⟩ := done_startCopy hgoes s.mc hmem rfl
  refine ⟨_, exec_copy h hsd, rfl, rfl, fun i hi => ?_, fun o ho hout => ?_, ?_, ?_, ?_, ?_, k, hk, hid.trans (jobAt_id ..), hdone⟩
  · have hmoved := localByte_startCopy_dst hgoes s.mc hplain (fun i hi => plainMem_of_addrOk (hok hdst) hi) hi
    exact hmoved.trans (hsame _ (hplain i hi))
  · exact (localByte_startCopy_other hgoes s.mc ho hout).trans (hsame o ho)
  all_goals
    dsimp only [withDev]
    rw [hframe, hspec]

end Sys2Proof.Proofs
end

section
/-! SUPPORT. The mirror at the partner: its logs, closes, drains, and the flash's answer (R454 to R459). -/

namespace Sys2Proof.Machine
open Sys2Proof.Safety
variable {d e : Dev}

/-! ### A device's memory through its links -/

theorem LinkOnly.localBytes_eq (h : LinkOnly d e) (o n : Nat) : e.localBytes o n = d.localBytes o n := by
  rw [h]
  rfl

theorem LinkOnly.mirField_eq (h : LinkOnly d e) (o n : Nat) : mirField e o n = mirField d o n := by
  have hsurv : e.surv = d.surv := by rw [h]
  rw [mirField, mirField, hsurv, h.localBytes_eq]

/-! ### A log and its records (R455, R457) -/

theorem Survive.log_setLog (s : Survive) (n : Nat) (l : MirrorLog) : (s.setLog n l).log n = l := by
  unfold Survive.setLog Survive.log
  split <;> rfl

theorem Survive.log_setLog_next (s : Survive) (n : Nat) (l : MirrorLog) : (s.setLog n l).log (n + 1) = s.log (n + 1) := by
  unfold Survive.setLog Survive.log
  by_cases h : n % 2 = 0
  · have hn : ¬ (n + 1) % 2 = 0 := by omega
    rw [if_pos h, if_neg hn, if_neg hn]
  · have hn : (n + 1) % 2 = 0 := by omega
    rw [if_neg h, if_pos hn, if_pos hn]

/-- The status lies outside the logs. -/
theorem Survive.log_status (s : Survive) (w : Word) (n : Nat) : ({ s with status := w } : Survive).log n = s.log n := rfl

/-- A count in lane 2 leaves the bits below it. -/
theorem getLsbD_laneBump_two (w : Word) {k : Nat} (hk : k < 32) : (laneBump w 2).getLsbD k = w.getLsbD k := by
  have hlow : (laneBump w 2).toNat % 2 ^ 32 = w.toNat % 2 ^ 32 := by
    unfold laneBump bits
    rw [BitVec.toNat_ofNat]
    omega
  have hbit : ∀ v : Nat, v.testBit k = (v % 2 ^ 32).testBit k := fun v => by
    rw [Nat.testBit_mod_two_pow, decide_eq_true hk, Bool.true_and]
  rw [BitVec.getLsbD, BitVec.getLsbD, hbit, hlow, ← hbit]

section
variable {n : Nat} {r : Bytes}

theorem appendRecord_of_overflow (h : (d.surv.log n).overflow = true) : appendRecord d n r = d := if_pos h

theorem appendRecord_of_full (h : (d.surv.log n).overflow = false) (hfull : mirField d 0x18 8 < (d.surv.log n).used + r.length) :
    appendRecord d n r = { d with surv := { d.surv.setLog n { d.surv.log n with overflow := true } with
      status := laneBump (setBit d.surv.status 1) 2 } } :=
  (if_neg (ne_true_of_eq_false h)).trans (if_pos hfull)

theorem appendRecord_of_room (h : (d.surv.log n).overflow = false) (hroom : (d.surv.log n).used + r.length ≤ mirField d 0x18 8) :
    appendRecord d n r = { d.setLocalBytes (logStart d n + (d.surv.log n).used) r with
      surv := d.surv.setLog n { d.surv.log n with used := (d.surv.log n).used + r.length } } := by
  have hrun : appendRecord d n r = { d.setLocalBytes (logStart d n + (d.surv.log n).used) r with
      surv := (d.setLocalBytes (logStart d n + (d.surv.log n).used) r).surv.setLog n
        { d.surv.log n with used := (d.surv.log n).used + r.length } } :=
    (if_neg (ne_true_of_eq_false h)).trans (if_neg hroom.not_gt)
  rw [hrun, Dev.setLocalBytes_frame]

end

/-! ### Records and closes that the partner takes (R454 to R456) -/

section
variable {pn : Nat} {u : RxUnit} (hu : (d.port pn).rx = [u])
include hu

theorem behindWrite_of_single : behindWrite (d.port pn) u = false := by
  unfold behindWrite
  rw [hu]
  simp

theorem mirrorTake_of_record (hk : u.kind = 9) (hf : foreign (d.takeUnit pn u) u.src = false) (hs : mirField (d.takeUnit pn u) 4 1 = 1)
    (he : field u.body 8 4 ≤ mirField (d.takeUnit pn u) 0x28 4 + 2)
    (hin : inMirrorRegion (d.takeUnit pn u).surv (4096 * (d.takeUnit pn u).surv.inStart.toNat + 0x1000 + field u.body 0 8)
      (field u.body 12 2) = true)
    (hlog : inMirrorRegion (d.takeUnit pn u).surv (logStart (d.takeUnit pn u) (field u.body 8 4)) (mirField (d.takeUnit pn u) 0x18 8) = true) :
    mirrorTake pn d = answerMirror (appendRecord (d.takeUnit pn u) (field u.body 8 4) u.body) u.src u.plot (field u.body 8 4) false 0 := by
  have hepoch : field u.body 8 4 ≤ mirField d 0x28 4 + 2 := by rwa [(takeUnit_frame d pn u).mirField_eq] at he
  unfold mirrorTake
  dsimp only
  rw [hu, List.find?_cons_of_pos (by simp [hk, behindWrite_of_single hu, hepoch])]
  dsimp only
  rw [if_neg (by simp [hf, hin, hlog]), if_neg (not_not_intro hs)]

theorem mirrorClose_of_close (hash : Nat) (hk : u.kind = 10) (hf : foreign d u.src = false) (hs : mirField d 4 1 = 1)
    (hd : d.surv.drain = none) (he : field u.body 0 4 ≤ mirField d 0x28 4 + 1) :
    mirrorClose pn hash d =
      if (applyEpoch (d.takeUnit pn u) (field u.body 0 4) (field u.body 8 8) hash).2 = false then
        answerMirror (applyEpoch (d.takeUnit pn u) (field u.body 0 4) (field u.body 8 8) hash).1 u.src u.plot (field u.body 0 4) true stMirrorLost
      else if field u.body 4 1 = 1 then
        { (applyEpoch (d.takeUnit pn u) (field u.body 0 4) (field u.body 8 8) hash).1 with
          surv := { (applyEpoch (d.takeUnit pn u) (field u.body 0 4) (field u.body 8 8) hash).1.surv with
            drain := some (u.src, field u.body 0 4, u.plot) } }
      else answerMirror (applyEpoch (d.takeUnit pn u) (field u.body 0 4) (field u.body 8 8) hash).1 u.src u.plot (field u.body 0 4) true 0 := by
  have hrx : (d.port pn).rxOf 10 = some u := by
    unfold Port.rxOf
    rw [hu, List.find?_cons_of_pos (by simp [hk])]
  unfold mirrorClose
  rw [hrx]
  dsimp only
  rw [if_neg (ne_true_of_eq_false hf), if_neg (not_not_intro hs), if_neg (by simp [hd, behindWrite_of_single hu, he])]
  generalize applyEpoch _ _ _ _ = r
  obtain ⟨f, ok⟩ := r
  cases ok <;> rfl

end

/-- The close of an epoch: which the base stands after, and what it leaves of its log (R456, R457). -/
theorem applyEpoch_of_held {n step hash : Nat} (h : n ≤ mirField d 0x28 4) : applyEpoch d n step hash = (d, true) := if_pos h

theorem applyEpoch_of_new {n step hash : Nat} (h : mirField d 0x28 4 < n) :
    (applyEpoch d n step hash).2 = !(d.surv.log n).overflow ∧ (applyEpoch d n step hash).1.surv.log n = {} := by
  unfold applyEpoch
  dsimp only
  rw [if_neg h.not_ge]
  split
  next hover => exact ⟨by rw [hover]; rfl, Survive.log_setLog ..⟩
  next hover => exact ⟨by rw [Bool.eq_false_iff.mpr hover]; rfl, Survive.log_setLog ..⟩

/-! ### Drains (R459) -/

/-- The flash with a drain's slot written: the drain is number n of the module, and takes slot n mod 2. -/
def Flash.drained (f : Flash) (x : FlashSlot) : Flash :=
  if (f.drains + 1) % 2 = 0 then { f with drains := f.drains + 1, writes := f.writes + 1, slot0 := x }
  else { f with drains := f.drains + 1, writes := f.writes + 1, slot1 := x }

/-- The device with its drain taken, before the close that asked for it is answered. -/
def drainTaken (d : Dev) : Dev := { d with flash := d.flash.drained (drainSlot d), surv := { d.surv with drain := none } }

theorem mirrorDrain_linkOnly {src n plot : Nat} (h : d.surv.drain = some (src, n, plot)) : LinkOnly (drainTaken d) (mirrorDrain d) := by
  have hrun : mirrorDrain d = answerMirror (drainTaken d) src plot n true 0 := by
    unfold mirrorDrain
    rw [h]
    rfl
  rw [hrun]
  exact sendUnit_frame ..

/-- A drain takes its slot, and the other one and the log area stand. -/
theorem Flash.drained_spec (f : Flash) (x : FlashSlot) :
    (f.drained x).drains = f.drains + 1 ∧ (f.drained x).slot ((f.drains + 1) % 2) = x ∧
      (f.drained x).slot (f.drains % 2) = f.slot (f.drains % 2) ∧ (f.drained x).logArea = f.logArea := by
  unfold Flash.drained Flash.slot
  by_cases h : (f.drains + 1) % 2 = 0
  · have hn : ¬ f.drains % 2 = 0 := by omega
    rw [if_pos h, if_pos h, if_neg hn, if_neg hn]
    exact ⟨rfl, rfl, rfl, rfl⟩
  · have hn : f.drains % 2 = 0 := by omega
    rw [if_neg h, if_neg h, if_pos hn, if_pos hn]
    exact ⟨rfl, rfl, rfl, rfl⟩

/-! ### The flash's answer (R39, R450) -/

/-- A mark that awaits the flash's acknowledgement. -/
def Job.awaitsFlash (j : Job) : Bool := j.desc.code == 0x34 && markKind j.desc == 0 && j.phase == .active && j.cursor == 1

/-- The descriptors of a list end well. -/
def finishAll (d : Dev) (ks : List Job) : Dev := ks.foldl (fun d j => d.finishJob j.id 0) d

theorem flashPoll_eq (d : Dev) : flashPoll d = finishAll d (d.jobs.filter Job.awaitsFlash) := rfl

theorem finishAll_frame (d : Dev) (ks : List Job) : finishAll d ks = { d with jobs := (finishAll d ks).jobs } :=
  List.foldlRecOn (motive := fun e : Dev => e = { d with jobs := e.jobs }) _ _ rfl fun e he j _ => by
    rw [he]
    rfl

theorem ids_finishAll (d : Dev) (ks : List Job) : (finishAll d ks).jobs.map (·.id) = d.jobs.map (·.id) := by
  refine List.foldlRecOn (motive := fun e : Dev => e.jobs.map (·.id) = d.jobs.map (·.id)) _ _ rfl fun e he j _ => ?_
  rw [← he]
  change ((e.jobs.map _).map _) = _
  rw [List.map_map]
  refine List.map_congr_left fun k _ => ?_
  dsimp only [Function.comp]
  split <;> rfl

/-- What still awaits the flash was there before, and is none of those that ended. -/
theorem of_awaitsFlash_finishAll {ks : List Job} {y : Job} (hy : y ∈ (finishAll d ks).jobs) (hw : y.awaitsFlash = true) :
    y ∈ d.jobs ∧ ∀ k ∈ ks, y.id ≠ k.id := by
  induction ks generalizing d with
  | nil => exact ⟨hy, fun _ h => absurd h List.not_mem_nil⟩
  | cons k ks ih =>
    obtain ⟨hmem, hne⟩ := ih (d := d.finishJob k.id 0) hy
    obtain ⟨z, hz, hzy⟩ := List.mem_map.mp hmem
    by_cases hid : z.id = k.id
    · rw [if_pos hid] at hzy
      have hdone : y.phase = .done := by rw [← hzy]
      rw [Job.awaitsFlash, hdone] at hw
      simp at hw
    · rw [if_neg hid] at hzy
      obtain rfl := hzy
      exact ⟨hz, List.forall_mem_cons.mpr ⟨hid, hne⟩⟩

theorem not_awaitsFlash_flashPoll {y : Job} (hy : y ∈ (flashPoll d).jobs) : y.awaitsFlash = false := by
  rw [← Bool.not_eq_true]
  intro hw
  obtain ⟨hmem, hne⟩ := of_awaitsFlash_finishAll hy hw
  exact hne y (List.mem_filter.mpr ⟨hmem, hw⟩) rfl

end Sys2Proof.Machine

namespace Sys2Proof.Proofs
open Sys2Proof.Machine Sys2Proof.Safety

/-- Settles O60: a case per branch of the partner's functions, and for the flash's answer an induction over the marks that end. -/
theorem mirrorAtPartner : Obligations.MirrorAtPartner := by
  refine ⟨fun d n r => ⟨appendRecord_of_overflow, fun ho hfull => ?_, fun ho hroom => ?_⟩, ?_, ?_, fun d n step hash => ⟨?_, ?_, ?_⟩, ?_, ?_, ?_⟩
  · rw [appendRecord_of_full ho hfull]
    refine ⟨rfl, by rw [Survive.log_status, Survive.log_setLog], ?_⟩
    exact (getLsbD_laneBump_two _ (by decide)).trans (getLsbD_setBit_self _ (by decide))
  · rw [appendRecord_of_room ho hroom]
    exact ⟨congrArg MirrorLog.used (Survive.log_setLog ..), rfl, Survive.log_setLog_next ..⟩
  · intro p u s hl hu hk e d hf hs he hin hlog
    exact onDev_next hl (mirrorTake_of_record hu hk hf hs he hin hlog)
  · intro p hash u s hl hu hk e d hf hs hd he r
    exact onDev_next hl (mirrorClose_of_close hu hash.toNat hk hf hs hd he)
  · obtain h | h := Nat.lt_or_ge (mirField d 0x28 4) n
    · rw [(applyEpoch_of_new h).1, decide_eq_false h.not_ge, Bool.false_or]
    · rw [applyEpoch_of_held h, decide_eq_true h, Bool.true_or]
  · exact fun h => congrArg Prod.fst (applyEpoch_of_held h)
  · exact fun h => (applyEpoch_of_new h).2
  · intro src n plot s hl hd
    obtain ⟨h1, h2, h3, h4⟩ := Flash.drained_spec s.dev.flash (drainSlot s.dev)
    have hsend := mirrorDrain_linkOnly hd
    have hflash : (mirrorDrain s.dev).flash = s.dev.flash.drained (drainSlot s.dev) := by
      rw [hsend]
      rfl
    refine ⟨_, onDev_next hl rfl, ?_, ?_⟩
    · dsimp only [withDev]
      rw [hsend]
      rfl
    · dsimp only [withDev]
      rw [hflash, h2]
      exact ⟨h1, rfl, rfl, h3, h4⟩
  · exact fun s hd => onDev_same (by rw [mirrorDrain, hd])
  · intro s hl
    refine ⟨_, onDev_next hl (flashPoll_eq s.dev), ?_, ids_finishAll .., fun j hj hw => ?_⟩
    · dsimp only [withDev]
      rw [finishAll_frame]
    · obtain ⟨hc, hk, hp, hcur⟩ := hw
      have hnot := not_awaitsFlash_flashPoll (d := s.dev) hj
      simp [Job.awaitsFlash, hc, hk, hp, hcur] at hnot

end Sys2Proof.Proofs
end

section
/-! SUPPORT. Which parts of MC flash each command leaves as they were: owner keys, policy, fence counts. -/

namespace Sys2Proof.Machine
open Sys2Proof.Safety

/-! ### What MC flash holds of keys, policy and fences (R128, R437, R520) -/

/-- The part of MC flash that holds the owner keys, the two policy bits, and the fence counts over the module's life. -/
structure McFlash where
  keys : Tbl Bytes
  requireSigned : Bool
  permit : Bool
  fences : Tbl Nat

def Mc.flash (m : Mc) : McFlash := ⟨m.keys, m.requireSigned, m.permit, m.fences⟩

/-! #### The power side and the coolant side -/

theorem vddRequest_flash (v : Nat) (m : Mc) : (vddRequest v m).flash = m.flash := by
  unfold vddRequest
  dsimp only
  split <;> rfl

theorem limitHost_flash (v : Nat) (m : Mc) : (limitHost v m).flash = m.flash := by
  unfold limitHost
  dsimp only
  split <;> rfl

theorem pwrWrite_flash (o : Nat) (w : RegW) (m : Mc) : (pwrWrite o w m).flash = m.flash := by
  unfold pwrWrite
  split
  · rfl
  · split
    · exact vddRequest_flash ..
    · exact limitHost_flash ..
    · rfl
    · rfl

theorem coolWrite_flash (o : Nat) (w : RegW) (m : Mc) : (coolWrite o w m).flash = m.flash := by
  unfold coolWrite
  dsimp only
  split
  · rfl
  · split <;> (try split) <;> rfl

theorem coolModel_flash (which v : Nat) (m : Mc) : (coolModel which v m).flash = m.flash := by
  unfold coolModel
  dsimp only
  split <;> split <;> rfl

theorem Steers.flash {m n : Mc} (h : Steers m n) : n.flash = m.flash := by
  rw [h]
  rfl

theorem powerSample_flash (r : PowerReading) (m : Mc) : (powerSample r m).flash = m.flash := by
  by_cases h : m.pwr.state = .on
  · exact (powerSample_steers h r).flash
  · rw [powerSample, if_pos h]

theorem peakClamp_flash (ma : Nat) (m : Mc) : (peakClamp ma m).flash = m.flash := by
  unfold peakClamp
  dsimp only
  split
  · rfl
  · split <;> rfl

theorem coolantSample_flash (r : CoolReading) (m : Mc) : (coolantSample r m).flash = m.flash := by
  by_cases h : m.pwr.state = .off
  · rw [coolantSample, if_pos h]
  · obtain ⟨-, e⟩ | ⟨-, e | ⟨st, cnt, e⟩⟩ := coolantSample_cases h r
    · rw [e]; rfl
    · rw [e]; rfl
    · rw [e]; exact (lower_steers _ 6).flash

theorem flowLow_flash (f : Nat) (m : Mc) : (flowLow f m).flash = m.flash := by
  unfold flowLow
  split <;> rfl

theorem valveStep_flash (m : Mc) : (valveStep m).flash = m.flash := by
  unfold valveStep
  dsimp only
  split <;> rfl

theorem canaryMeasure_flash (counts : List (List Nat)) (m : Mc) : (canaryMeasure counts m).flash = m.flash := by
  unfold canaryMeasure
  split <;> rfl

theorem inputApplied_flash (mv : Nat) (m : Mc) : (inputApplied mv m).flash = m.flash := by
  unfold inputApplied
  dsimp only
  split <;> rfl

/-! #### Resets, power transitions, registers -/

theorem flash_withMc {s : State} {m : Mc} (h : m.flash = s.mc.flash) : (withMc s m).mc.flash = s.mc.flash := h

theorem resetDevice_flash (failed : List Nat) (s : State) : (resetDevice failed s).mc.flash = s.mc.flash := by
  unfold resetDevice
  split <;> rfl

theorem reattachWrite_flash (v : Nat) (bme : Bool) (env : Env) (s : State) : (reattachWrite v bme env s).mc.flash = s.mc.flash := by
  unfold reattachWrite
  split
  · rfl
  · split
    · exact resetDevice_flash ..
    · rfl

theorem bar0Write_flash (a n v : Nat) (s : State) : (bar0Write a n v s).mc.flash = s.mc.flash := by
  unfold bar0Write
  split
  · rfl
  · dsimp only
    split
    · rfl
    · split
      · exact reattachWrite_flash ..
      · split
        · exact flash_withMc (pwrWrite_flash ..)
        · split
          · exact flash_withMc (coolWrite_flash ..)
          · rfl

theorem fatalWrite_flash (w : RegW) (s : State) : (fatalWrite w s).mc.flash = s.mc.flash := by
  unfold fatalWrite
  split
  · exact resetDevice_flash ..
  · rfl

theorem registerWrite_flash (bar2 : Bool) (a n v : Nat) (s : State) : (registerWrite bar2 a n v s).mc.flash = s.mc.flash := by
  unfold registerWrite
  split
  · rfl
  · split
    · split <;> rfl
    · split
      · split
        · exact fatalWrite_flash ..
        · split
          · rfl
          · exact bar0Write_flash ..
      · split
        · rfl
        · exact bar0Write_flash ..

theorem hostLinkDown_flash (failed : List Nat) (s : State) : (hostLinkDown failed s).mc.flash = s.mc.flash := by
  unfold hostLinkDown
  dsimp only
  split
  · split <;> rfl
  · exact resetDevice_flash ..

theorem inputLockout_flash (mv : Nat) (s : State) : (inputLockout mv s).mc.flash = s.mc.flash := by
  unfold inputLockout
  split <;> rfl

theorem leaveOn_flash (trip : Bool) (s : State) : (leaveOn trip s).mc.flash = s.mc.flash := by
  unfold leaveOn
  split <;> rfl

theorem powerOn_flash (te : Bool) (failed : List Nat) (s : State) : (powerOn te failed s).mc.flash = s.mc.flash := by
  unfold powerOn
  split
  · dsimp only
    rw [reportTrip_frame]
    exact resetDevice_flash ..
  · rfl

/-! #### The test access ports -/

theorem flash_setTaps (m : Mc) (t : Tbl Tap) : ({ m with taps := t } : Mc).flash = m.flash := rfl

theorem restScan_flash (s : State) : (restScan s).mc.flash = s.mc.flash := by rw [restScan_mc, flash_setTaps]

theorem drScan_flash (pins tdi : List Bool) (s : State) : (drScan pins tdi s).mc.flash = s.mc.flash := by
  unfold drScan
  split
  · rw [restScan_flash]
    dsimp only
    rw [updateLatches_frame, flash_setTaps]
  · rfl

/-! #### Every command -/

/-- What a command makes of the keys, the policy and the fence counts in MC flash: nothing, but for the five commands that write one of
them (R128, R437, R520). -/
inductive FlashMove (m n : Mc) : Instr → Prop
  | same {i : Instr} : n.flash = m.flash → FlashMove m n i
  | keyInstall (slot : Fin 4) (key : Bytes) : n.flash = { m.flash with keys := n.keys } → FlashMove m n (.ownerKeyInstall slot key)
  | keyClear (slot : Fin 4) : n.flash = { m.flash with keys := n.keys } → FlashMove m n (.ownerKeyClear slot)
  | requireSigned (on : Bool) : n.flash = { m.flash with requireSigned := on } → FlashMove m n (.requireSigned on)
  | permit (on : Bool) : n.flash = { m.flash with permit := on } → FlashMove m n (.permit on)
  | fence (c : Fin 256) (u : Upset) : n.flash = { m.flash with fences := Tbl.upd 0 c.val (· + 1) m.fences } → FlashMove m n (.fence c u)

theorem fence_flashMove (c : Fin 256) (u : Upset) (s : State) : FlashMove s.mc (fence c.val u s).mc (.fence c u) := by
  unfold fence
  split
  · exact .same rfl
  · dsimp only
    split
    · exact .same rfl
    · split
      · exact .same rfl
      · exact .fence c u rfl

theorem managed_flashMove {f : Mc → Mc} {i : Instr} (h : ∀ m, FlashMove m (f m) i) (s : State) :
    ∃ t, managed f s = .next t ∧ FlashMove s.mc t.mc i := by
  refine ⟨_, rfl, ?_⟩
  dsimp only
  split
  · exact .same rfl
  · exact h s.mc

theorem hostToMc_flashMove {f : Mc → Mc} {i : Instr} {s : State} (h : (f s.mc).flash = s.mc.flash) :
    ∃ t, hostToMc f s = .next t ∧ FlashMove s.mc t.mc i := by
  refine ⟨_, rfl, ?_⟩
  dsimp only
  split
  · exact .same h
  · exact .same rfl

theorem irScan_flashMove (ir : Nat) (taps : BitVec 5) (i : Instr) (s : State) : ∃ t, irScan ir taps s = .next t ∧ FlashMove s.mc t.mc i := by
  refine ⟨_, rfl, ?_⟩
  split
  · exact .same ((restScan_flash _).trans (flash_setTaps ..))
  · exact .same rfl

theorem rackLimit_flashMove (w : BitVec 16) (i : Instr) (s : State) : ∃ t, execPldmRackLimit w s = .next t ∧ FlashMove s.mc t.mc i := by
  refine managed_flashMove (fun m => .same ?_) s
  split <;> rfl

theorem firmwareUpdate_flashMove (image : Bytes) (i : Instr) (s : State) :
    ∃ t, execPldmFirmwareUpdate image s = .next t ∧ FlashMove s.mc t.mc i := by
  refine managed_flashMove (fun m => .same ?_) s
  split <;> rfl

theorem exec_flashMove (i : Instr) (s : State) : ∃ t, exec i s = .next t ∧ FlashMove s.mc t.mc i := by
  cases i
  case registerWrite => exact ⟨_, rfl, .same (registerWrite_flash ..)⟩
  case hostLinkDown => exact ⟨_, rfl, .same (hostLinkDown_flash ..)⟩
  case reattach => exact ⟨_, rfl, .same (reattachWrite_flash ..)⟩
  case deviceReset => exact ⟨_, rfl, .same (resetDevice_flash ..)⟩
  case discard failed =>
    refine ⟨_, rfl, ?_⟩
    split
    · exact .same (resetDevice_flash failed s)
    · exact .same rfl
  case fence c u => exact ⟨_, rfl, fence_flashMove c u s⟩
  case inputLockout => exact ⟨_, rfl, .same (inputLockout_flash ..)⟩
  case powerOn => exact ⟨_, rfl, .same (powerOn_flash ..)⟩
  case powerOff => exact ⟨_, rfl, .same (leaveOn_flash ..)⟩
  case thermalTrip | flowTrip =>
    refine ⟨_, rfl, ?_⟩
    split
    · exact .same (leaveOn_flash true s)
    · exact .same rfl
  case vddRequest v => exact hostToMc_flashMove (vddRequest_flash v.toNat s.mc)
  case powerLimitHost v => exact hostToMc_flashMove (limitHost_flash v.toNat s.mc)
  case inputApplied => exact ⟨_, rfl, .same (inputApplied_flash ..)⟩
  case flowLow => exact ⟨_, rfl, .same (flowLow_flash ..)⟩
  case peakClamp => exact ⟨_, rfl, .same (peakClamp_flash ..)⟩
  case powerSample => exact ⟨_, rfl, .same (powerSample_flash ..)⟩
  case coolantSample => exact ⟨_, rfl, .same (coolantSample_flash ..)⟩
  case valveStep => exact ⟨_, rfl, .same (valveStep_flash ..)⟩
  case canaryMeasure => exact ⟨_, rfl, .same (canaryMeasure_flash ..)⟩
  case pldmCoolModel which v => exact managed_flashMove (fun m => .same (coolModel_flash which.val v.toNat m)) s
  case pldmRackLimit w => exact rackLimit_flashMove w _ s
  case pldmFirmwareUpdate image => exact firmwareUpdate_flashMove image _ s
  case ownerKeyInstall slot key => exact managed_flashMove (f := fun m => { m with keys := Tbl.set [] slot.val key m.keys }) (fun _ => .keyInstall slot key rfl) s
  case ownerKeyClear slot => exact managed_flashMove (f := fun m => { m with keys := Tbl.set [] slot.val [] m.keys }) (fun _ => .keyClear slot rfl) s
  case requireSigned on => exact managed_flashMove (f := fun m => { m with requireSigned := on }) (fun _ => .requireSigned on rfl) s
  case permit on => exact managed_flashMove (f := fun m => { m with permit := on }) (fun _ => .permit on rfl) s
  case drScan => exact ⟨_, rfl, .same (drScan_flash ..)⟩
  case extest | idcode | samplePreload | clamp | highz | extestPulse | extestTrain | bypass => exact irScan_flashMove ..
  all_goals exact ⟨_, rfl, .same rfl⟩

/-- The same, of the state that a command answers. -/
theorem flashMove_of_exec {i : Instr} {s t : State} (h : exec i s = .next t) : FlashMove s.mc t.mc i := by
  obtain ⟨u, hu, hm⟩ := exec_flashMove i s
  obtain rfl : u = t := by rw [hu] at h; injection h
  exact hm

end Sys2Proof.Machine

namespace Sys2Proof.Proofs
open Sys2Proof.Machine Sys2Proof.Safety

/-- Settles O9: by what each command makes of MC flash (`exec_flashMove`); a fence adds one at its core's number alone. -/
theorem mcFlashOnlyByItsCommands : Obligations.McFlashOnlyByItsCommands := by
  refine ⟨fun i s t h => ?_, fun i s t n h => ?_⟩
  · have keys {f : McFlash} (e : t.mc.flash = f) : t.mc.keys = f.keys := congrArg McFlash.keys e
    have signed {f : McFlash} (e : t.mc.flash = f) : t.mc.requireSigned = f.requireSigned := congrArg McFlash.requireSigned e
    have permit {f : McFlash} (e : t.mc.flash = f) : t.mc.permit = f.permit := congrArg McFlash.permit e
    cases flashMove_of_exec h with
    | same e => exact ⟨.inl (keys e), .inl (signed e), .inl (permit e)⟩
    | keyInstall slot key e => exact ⟨.inr ⟨slot, .inr ⟨key, rfl⟩⟩, .inl (signed e), .inl (permit e)⟩
    | keyClear slot e => exact ⟨.inr ⟨slot, .inl rfl⟩, .inl (signed e), .inl (permit e)⟩
    | requireSigned on e => exact ⟨.inl (keys e), .inr ⟨on, rfl⟩, .inl (permit e)⟩
    | permit on e => exact ⟨.inl (keys e), .inl (signed e), .inr ⟨on, rfl⟩⟩
    | fence c u e => exact ⟨.inl (keys e), .inl (signed e), .inl (permit e)⟩
  · have fences {f : McFlash} (e : t.mc.flash = f) : t.mc.fences = f.fences := congrArg McFlash.fences e
    cases flashMove_of_exec h with
    | fence c u e =>
      have hf : t.mc.fences = Tbl.upd 0 c.val (· + 1) s.mc.fences := fences e
      rw [hf]
      obtain rfl | hn := eq_or_ne n c.val
      · exact .inr ⟨c, u, rfl, rfl, Tbl.get_upd_self ..⟩
      · exact .inl (Tbl.get_upd_other _ hn ..)
    | same e | keyInstall _ _ e | keyClear _ e | requireSigned _ e | permit _ e => exact .inl (congrArg (Tbl.get 0 n) (fences e))

end Sys2Proof.Proofs
end

section
/-! SUPPORT. What the management interface and the host write to the management controller, each write by the range it keeps. -/

namespace Sys2Proof.Machine
open Sys2Proof.Safety

/-! ### Which writes reach the MC (R441, R490, R507) -/

theorem managed_of_running {s : State} (h : s.mc.pwr.state ≠ .off) (f : Mc → Mc) : managed f s = .next (withMc s (f s.mc)) :=
  congrArg (fun m => Host.Outcome.next (withMc s m)) (if_neg h)

theorem hostToMc_of_live {s : State} (h : s.live = true) (f : Mc → Mc) : hostToMc f s = .next (withMc s (f s.mc)) :=
  congrArg (fun m => Host.Outcome.next (withMc s m)) (if_pos h)

/-! ### Values in range are stored, others refused (R491, R497, R500, R508) -/

theorem ite_lt_or_lt {α : Type} (lo hi x : Nat) (a b : α) :
    (if (decide (x < lo) || decide (hi < x)) = true then a else b) = if lo ≤ x ∧ x ≤ hi then b else a := by
  simp only [Bool.or_eq_true, decide_eq_true_eq]
  split
  · rw [if_neg (by omega)]
  · rw [if_pos (by omega)]

theorem ite_lt {α : Type} (hi x : Nat) (a b : α) : (if hi < x then a else b) = if x ≤ hi then b else a := by
  simp only [← Nat.not_le, ite_not]

theorem limitHost_eq (v : Nat) (m : Mc) : limitHost v m =
    if 500 ≤ bits v 0 12 ∧ bits v 0 12 ≤ 3200 then { m with pwr := { m.pwr with limitHost := bits v 0 12 } } else m.refusePower :=
  ite_lt_or_lt ..

theorem vddRequest_of_le {v : Nat} (h : bits v 0 6 ≤ 40) (m : Mc) : vddRequest v m =
    let target := if m.pwr.capReason = 0 then bits v 0 6 else min m.pwr.target (bits v 0 6)
    { m with pwr := { m.pwr with request := bits v 0 6, target := target,
                                 capReason := if target = bits v 0 6 then 0 else m.pwr.capReason } } := if_neg (by omega)

theorem vddRequest_of_gt {v : Nat} (h : 40 < bits v 0 6) (m : Mc) : vddRequest v m = m.refusePower := if_pos h

theorem vddRequest_frame (v : Nat) (m : Mc) : vddRequest v m = { m with pwr := (vddRequest v m).pwr } := by
  unfold vddRequest
  dsimp only
  split <;> rfl

theorem exec_pldmRackLimit {s : State} (h : s.mc.pwr.state ≠ .off) (w : BitVec 16) : exec (.pldmRackLimit w) s =
    .next (withMc s (if w.toNat < 500 || 3200 < w.toNat then s.mc.refusePower
      else { s.mc with pwr := { s.mc.pwr with limitRack := w.toNat } })) :=
  managed_of_running h fun m => if w.toNat < 500 || 3200 < w.toNat then m.refusePower
    else { m with pwr := { m.pwr with limitRack := w.toNat } }

/-- The five fields of COOL_MODEL and TJ_TARGET, each with its range (R500, R507, R508). -/
theorem coolModel_eq (which : Fin 5) (x : Nat) (m : Mc) : coolModel which.val x m =
    match which with
    | 0 => if x ≤ 60 then { m with cool := { m.cool with delayS := x } } else m.refuseCool
    | 1 => if 30 ≤ x ∧ x ≤ 120 then { m with cool := { m.cool with tauS := x } } else m.refuseCool
    | 2 => if x ≤ 100 then { m with cool := { m.cool with gain := x } } else m.refuseCool
    | 3 => if 1 ≤ x ∧ x ≤ 255 then { m with cool := { m.cool with horizonS := x } } else m.refuseCool
    | 4 => if 60 ≤ x ∧ x ≤ 100 then { m with cool := { m.cool with tjTarget := x } } else m.refuseCool := by
  match which with
  | 0 => exact ite_lt ..
  | 1 => exact ite_lt_or_lt ..
  | 2 => exact ite_lt ..
  | 3 => exact ite_lt_or_lt ..
  | 4 => exact ite_lt_or_lt ..

end Sys2Proof.Machine

namespace Sys2Proof.Proofs
open Sys2Proof.Machine Sys2Proof.Safety

/-- Settles O12: a write that reaches the MC (`managed_of_running`, `hostToMc_of_live`) stores a value in its range and refuses any
other. -/
theorem managementWrites : Obligations.ManagementWrites := by
  refine ⟨fun s hs => ⟨fun k key => ?_, fun k => ?_, fun on => managed_of_running hs fun m => { m with requireSigned := on },
      fun on => managed_of_running hs fun m => { m with permit := on }⟩,
    fun s hs => ⟨fun w => ?_, fun which v => ?_, fun image => managed_of_running hs _⟩, fun v s hl => ⟨?_, ?_⟩⟩
  · exact ⟨_, managed_of_running hs fun m => { m with keys := Tbl.set [] k.val key m.keys }, rfl, Tbl.get_set_self ..,
      fun j hj => Tbl.get_set_other _ hj ..⟩
  · exact ⟨_, managed_of_running hs fun m => { m with keys := Tbl.set [] k.val [] m.keys }, rfl, Tbl.get_set_self [] k.val [] s.mc.keys,
      fun j hj => Tbl.get_set_other [] hj [] s.mc.keys⟩
  · exact (exec_pldmRackLimit hs w).trans (congrArg (fun m => Host.Outcome.next (withMc s m)) (ite_lt_or_lt ..))
  · exact (managed_of_running hs _).trans (congrArg (fun m => Host.Outcome.next (withMc s m)) (coolModel_eq which v.toNat s.mc))
  · refine ⟨_, hostToMc_of_live hl _, congrArg (withMc s) (vddRequest_frame ..), fun hle => ?_, fun hgt => ?_⟩
    · dsimp only
      rw [vddRequest_of_le hle]
      exact ⟨rfl, rfl, rfl⟩
    · exact congrArg Mc.pwr (vddRequest_of_gt hgt s.mc)
  · exact (hostToMc_of_live hl _).trans (congrArg (fun m => Host.Outcome.next (withMc s m)) (limitHost_eq v.toNat s.mc))

end Sys2Proof.Proofs
end

section
/-! SUPPORT. What the training, table, tile and tower engines leave alone: plots, the layout, graphs, events, and which descriptors
are dispatched. -/

namespace Sys2Proof.Machine
open Sys2Proof.Safety
variable {d e f : Dev} {j : Job}

/-! ### Work that leaves plots, layout, graphs and events alone -/

/-- What names a dispatched descriptor: its number, its channel and its sequence number (R345, R353). -/
def Job.place (j : Job) : Nat × Nat × Nat := (j.id, j.chan, j.seq)

/-- Work of an engine that leaves alone the plots, the layout, the graphs, the events, and which descriptors are dispatched. -/
structure EngineOnly (d e : Dev) : Prop where
  plots : e.plots = d.plots
  layout : e.layout = d.layout
  deviceId : e.deviceId = d.deviceId
  graphs : e.graphs = d.graphs
  events : e.events = d.events
  places : e.jobs.map Job.place = d.jobs.map Job.place

namespace EngineOnly

theorem refl (d : Dev) : EngineOnly d d := ⟨rfl, rfl, rfl, rfl, rfl, rfl⟩

theorem trans (h : EngineOnly d e) (k : EngineOnly e f) : EngineOnly d f :=
  ⟨k.plots.trans h.plots, k.layout.trans h.layout, k.deviceId.trans h.deviceId, k.graphs.trans h.graphs, k.events.trans h.events,
    k.places.trans h.places⟩

/-- A run whose state carries a device. -/
theorem foldl_of {α σ : Type} (dev : σ → Dev) {g : σ → α → σ} (h : ∀ s x, EngineOnly (dev s) (dev (g s x))) (xs : List α) (s : σ) :
    EngineOnly (dev s) (dev (xs.foldl g s)) :=
  List.foldlRecOn (motive := fun t => EngineOnly (dev s) (dev t)) _ _ (refl _) fun _ ht x _ => ht.trans (h _ x)

theorem foldl {α : Type} {g : Dev → α → Dev} (h : ∀ d x, EngineOnly d (g d x)) (xs : List α) (d : Dev) : EngineOnly d (xs.foldl g d) :=
  foldl_of id h xs d

theorem of_rowOnly (h : RowOnly d e) : EngineOnly d e := by
  rw [h]
  exact ⟨rfl, rfl, rfl, rfl, rfl, rfl⟩

theorem of_linkOnly (h : LinkOnly d e) : EngineOnly d e := of_rowOnly h.rowOnly

theorem of_askOnly (h : AskOnly d e) : EngineOnly d e := by
  rw [h]
  exact ⟨rfl, rfl, rfl, rfl, rfl, rfl⟩

theorem setCore (d : Dev) (n : Nat) (c : Core) : EngineOnly d (d.setCore n c) := ⟨rfl, rfl, rfl, rfl, rfl, rfl⟩

theorem ite {c : Prop} [Decidable c] (h : EngineOnly d e) (k : EngineOnly d f) : EngineOnly d (if c then e else f) := by
  split
  · exact h
  · exact k

theorem updCore (d : Dev) (n : Nat) (g : Core → Core) : EngineOnly d (d.updCore n g) := setCore ..

theorem updChan (d : Dev) (n : Nat) (g : Chan → Chan) : EngineOnly d (d.updChan n g) := ⟨rfl, rfl, rfl, rfl, rfl, rfl⟩

theorem updTab (d : Dev) (n : Nat) (g : TabEngine → TabEngine) : EngineOnly d (d.updTab n g) := ⟨rfl, rfl, rfl, rfl, rfl, rfl⟩

theorem setSurv (d : Dev) (x : Survive) : EngineOnly d { d with surv := x } := ⟨rfl, rfl, rfl, rfl, rfl, rfl⟩

theorem updJob {g : Job → Job} (hg : ∀ k, (g k).place = k.place) (d : Dev) (id : Nat) : EngineOnly d (d.updJob id g) := by
  refine ⟨rfl, rfl, rfl, rfl, rfl, ?_⟩
  rw [Dev.updJob, List.map_map]
  refine List.map_congr_left fun k _ => ?_
  dsimp only [Function.comp]
  split
  · exact hg k
  · rfl

theorem finishJob (d : Dev) (id : Nat) (st : Status) (nf : NFlags) : EngineOnly d (d.finishJob id st nf) := updJob (fun _ => by rfl) d id

theorem abortJob (d : Dev) (id : Nat) (st : Status) : EngineOnly d (d.abortJob id st) := updJob (fun _ => by rfl) d id

theorem report (d : Dev) (r : ErrRec) : EngineOnly d (d.report r) := by
  rw [Dev.report_frame]
  exact ⟨rfl, rfl, rfl, rfl, rfl, rfl⟩

theorem setLocalBytes (d : Dev) (o : Nat) (b : Bytes) : EngineOnly d (d.setLocalBytes o b) := by
  rw [Dev.setLocalBytes_frame]
  exact ⟨rfl, rfl, rfl, rfl, rfl, rfl⟩

theorem sendRequest (d : Dev) (dst kind plot job addr n epoch : Nat) (body : Nat → Bytes) :
    EngineOnly d (Machine.sendRequest d dst kind plot job addr n epoch body).1 := by
  have htag : EngineOnly d { d with nextTag := (d.nextTag + 1) % 2 ^ 31 } := ⟨rfl, rfl, rfl, rfl, rfl, rfl⟩
  exact (htag.trans (of_linkOnly (sendUnit_frame ..))).trans ⟨rfl, rfl, rfl, rfl, rfl, rfl⟩

/-- A write of a global range (R24, R469, R474). -/
theorem writeG (d : Dev) (job a : Nat) (b : Bytes) : EngineOnly d (d.writeG job a b) := by
  unfold Dev.writeG
  split
  · exact setLocalBytes ..
  · split
    · exact updJob (fun _ => by rfl) ..
    · refine foldl (fun e x => ?_) _ d
      dsimp only
      exact (sendRequest ..).trans (updJob (fun _ => by rfl) ..)

theorem readFailed (d : Dev) (chan seq : Nat) (x : ReadFail) : EngineOnly d (d.readFailed chan seq x) := by
  cases x
  · exact report ..
  · exact refl d

theorem endRead (d : Dev) (j : Job) (x : ReadFail) (nf : NFlags) : EngineOnly d (d.endRead j x nf) := (readFailed ..).trans (finishJob ..)

theorem unreadable (d : Dev) (x : ReadFail) (st : Status) (kind unit plot : Nat) (rid : Option Nat) (j : Option Job) :
    EngineOnly d (Machine.unreadable d x st kind unit plot rid j) := by
  cases x
  · exact report ..
  · exact refl d

theorem releaseIf (b : Bool) (w : Nat) (d : Dev) : EngineOnly d (Machine.releaseIf b w d) := by
  unfold Machine.releaseIf
  split
  · exact updCore ..
  · exact refl d

theorem sendSum (d : Dev) (pid : Nat) (p : Plot) (n : Nat) (red : Bool) (b : Bytes) (x : TxSender) :
    EngineOnly d (Machine.sendSum d pid p n red b x) := by
  unfold Machine.sendSum
  split
  · exact updCore ..
  · exact of_linkOnly (sendUnit_frame ..)

/-! ### Work in its place among operations on tiles, and on a plot (R183, R309) -/

theorem runTiles {run : Dev → Dev} (h : ∀ e, EngineOnly e (run e)) (j : Job) (tiles : List Nat) (d : Dev) :
    EngineOnly d (Machine.runTiles j tiles run d) := by
  have hqueue : EngineOnly d (d.updJob j.id fun k => { k with tiles := tiles, phase := .queued }) := updJob (fun _ => by rfl) ..
  unfold Machine.runTiles
  dsimp only
  split
  · exact (hqueue.trans (updJob (fun _ => by rfl) ..)).trans (h _)
  · exact hqueue

theorem startTrain {run : Job → Plot → Dev → Dev} (h : ∀ p e, EngineOnly e (run j p e)) (pid : Nat) (tiles : Plot → List Nat) (d : Dev) :
    EngineOnly d (Machine.startTrain pid tiles run j d) := by
  have hplot : EngineOnly d (d.updJob j.id fun k => { k with plot := some pid }) := updJob (fun _ => by rfl) ..
  unfold Machine.startTrain
  dsimp only
  split
  · exact hplot.trans (finishJob ..)
  · exact hplot.trans (runTiles (h _) ..)

/-! ### A table engine's reset (R416, R424) -/

theorem restartRequests (d : Dev) (k : Nat) : EngineOnly d (Machine.restartRequests d k) := by
  refine foldl (fun e n => ?_) _ d
  split
  · split
    · exact refl e
    · exact ⟨rfl, rfl, rfl, rfl, rfl, rfl⟩
  · exact refl e

theorem tabCodeFault (t : Nat) (d : Dev) : EngineOnly d (Machine.tabCodeFault t d) :=
  ((restartRequests d _).trans (foldl (fun e id => abortJob e id _) _ _)).trans (report ..)

theorem tabRun {run : Dev → Dev} (h : ∀ e, EngineOnly e (run e)) (j : Job) (d : Dev) : EngineOnly d (Machine.tabRun j run d) := by
  unfold Machine.tabRun
  split
  · exact (tabCodeFault ..).trans (abortJob ..)
  · exact h d

end EngineOnly

/-! ### Histogram mode (R293 to R307) -/

theorem histRun_engineOnly (j : Job) (p : Plot) (d : Dev) : EngineOnly d (histRun j p d) := by
  unfold histRun
  dsimp only
  split
  · exact .endRead ..
  · refine EngineOnly.trans (.foldl (fun e x => ?_) _ d) (.finishJob ..)
    exact .setCore ..

theorem putLeaf_engineOnly (j : Job) (l : Level) (i g h : Nat) (d : Dev) : EngineOnly d (putLeaf j l i g h d) := .writeG ..

theorem putNode_engineOnly (j : Job) (o : SplitOps) (l : Level) (s : SplitSt) (x : Nat × Winner) :
    EngineOnly s.dev (putNode j o l s x).dev := by
  have hentry (b c : Bytes) : EngineOnly s.dev (if l.winners = 0 then s.dev.writeG j.id (l.table + 8 * x.1) b else
      (s.dev.writeG j.id (l.table + 8 * x.1) b).writeG j.id (l.winners + 32 * x.1) c) := .ite (.writeG ..) ((EngineOnly.writeG ..).trans (.writeG ..))
  unfold putNode
  dsimp only
  split
  · exact (hentry ..).trans (putLeaf_engineOnly ..)
  · split
    · exact ((hentry ..).trans (putLeaf_engineOnly ..)).trans (putLeaf_engineOnly ..)
    · exact hentry ..

theorem splitEnd_engineOnly (j : Job) (p : Plot) (rs : List RedVal) (d : Dev) : EngineOnly d (splitEnd j p rs d) := by
  unfold splitEnd
  dsimp only
  refine EngineOnly.trans (EngineOnly.trans (EngineOnly.trans ?_ (.writeG ..)) (.foldl (fun e n => .releaseIf ..) _ _)) (.finishJob ..)
  exact EngineOnly.foldl_of SplitSt.dev (putNode_engineOnly j _ _) _ ⟨d, _, _⟩

theorem splitCore_engineOnly (j : Job) (p : Plot) (i : Nat) (ins : Option (List RedVal)) (d : Dev) : EngineOnly d (splitCore j p i ins d) := by
  have hown (g : Core → Core) (n : Nat) (fl : NFlags) :
      EngineOnly d ((d.updCore n g).updJob j.id fun y => { y with cursor := y.cursor + 1, nflags := y.nflags ||| fl }) :=
    (EngineOnly.updCore ..).trans (.updJob (fun _ => by rfl) ..)
  unfold splitCore
  dsimp only
  split
  · exact (hown ..).trans (splitEnd_engineOnly ..)
  · exact (hown ..).trans (.sendSum ..)

theorem splitRun_engineOnly (j : Job) (p : Plot) (d : Dev) : EngineOnly d (splitRun j p d) := by
  unfold splitRun
  split
  · exact .endRead ..
  · exact splitCore_engineOnly ..

/-! #### Frames binned by the heads of a plot (R303, R341) -/

theorem doLookUp_rowOnly (d : Dev) (env : Env) (e : Entity) (k : Nat) (w : HeadWork) : RowOnly d (doLookUp d env e k w).1 := by
  have hlook := lookUp_rowOnly d env e k
  unfold doLookUp
  dsimp only
  split
  next hl => rwa [hl] at hlook
  next hl => rwa [hl] at hlook
  next hl =>
    rw [hl] at hlook
    split
    · exact hlook.trans (askRead_rowOnly ..)
    · exact hlook.trans (askRead_rowOnly ..)

theorem lookUpAll_engineOnly (env : Env) (t : SieveTable) (plot fuel : Nat) (d : Dev) (w : HeadWork) :
    EngineOnly d (lookUpAll env t plot fuel d w).1 := by
  induction fuel generalizing d w with
  | zero => exact .refl d
  | succ fuel ih =>
    unfold lookUpAll
    split
    · exact .refl d
    next e k _ =>
      have hlook := EngineOnly.of_rowOnly (doLookUp_rowOnly d env e k w)
      split
      next hl => rw [hl] at hlook; exact hlook.trans (ih ..)
      next hl => rw [hl] at hlook; exact hlook.trans (.unreadable ..)

theorem binFrame_engineOnly (d : Dev) (env : Env) (plot head : Nat) (t : SieveTable) (r : Nat) (h payload : Bytes) :
    EngineOnly d (binFrame d env plot head t r h payload).1 := by
  unfold binFrame
  dsimp only
  exact (lookUpAll_engineOnly ..).trans (.updCore ..)

theorem partFrame_engineOnly (j : Job) (o : PartOps) (p : Plot) (t : SieveTable) (s : BatchSt) (x : Nat × Nat × Bytes) :
    EngineOnly s.dev (partFrame j o p t s x).dev := by
  unfold partFrame
  split
  · exact .refl _
  · dsimp only
    split
    · exact .refl _
    · dsimp only
      exact (((binFrame_engineOnly ..).trans (.writeG ..)).trans (.writeG ..)).trans (.updCore ..)

theorem partFrames_engineOnly (j : Job) (o : PartOps) (p : Plot) (d : Dev) : EngineOnly d (partFrames j o p d) := by
  unfold partFrames
  split
  next t fs _ _ =>
    have hrun := EngineOnly.foldl_of BatchSt.dev (partFrame_engineOnly j o p t) (tab fs.length fun r => (r, at' (0, []) fs r)) ⟨d, 0, none⟩
    dsimp only
    split
    · exact hrun.trans (.endRead ..)
    · exact hrun.trans (.finishJob ..)
  · exact .endRead ..
  · exact .finishJob ..

theorem partFault_engineOnly (d : Dev) (n i : Nat) : EngineOnly d (partFault d n i) := ⟨rfl, rfl, rfl, rfl, rfl, rfl⟩

theorem partRecord_engineOnly (j : Job) (o : PartOps) (p : Plot) (table : List Nat) (s : Dev × Bool) (r : Nat) :
    EngineOnly s.1 (partRecord j o p table s r).1 := by
  unfold partRecord
  dsimp only
  split
  · exact .refl _
  · split
    all_goals
      split
      · exact partFault_engineOnly ..
      · dsimp only
        exact (EngineOnly.writeG ..).trans (.updCore ..)

theorem partTable_engineOnly (j : Job) (o : PartOps) (p : Plot) (d : Dev) : EngineOnly d (partTable j o p d) := by
  unfold partTable
  split
  · exact .endRead ..
  · have hrun := fun table => EngineOnly.foldl_of Prod.fst (partRecord_engineOnly j o p table) (List.range o.count) (d, false)
    dsimp only
    split
    · exact hrun _
    · exact (hrun _).trans (.finishJob ..)

theorem startPart_engineOnly (j : Job) (d : Dev) : EngineOnly d (startPart j d) := by
  unfold startPart
  refine .startTrain (fun p e => ?_) ..
  exact .ite (partFrames_engineOnly ..) (partTable_engineOnly ..)

theorem fitLeaf_engineOnly (j : Job) (o : FitOps) (s : Dev × NFlags) (x : Nat × Nat × Nat) : EngineOnly s.1 (fitLeaf j o s x).1 := by
  unfold fitLeaf
  dsimp only
  exact .writeG ..

theorem fitRun_engineOnly (j : Job) (p : Plot) (d : Dev) : EngineOnly d (fitRun j p d) := by
  have hrun := fun xs => EngineOnly.foldl_of Prod.fst (fitLeaf_engineOnly j (fitOps j.desc)) xs (d, 0)
  unfold fitRun
  dsimp only
  split
  · refine EngineOnly.trans ?_ (.finishJob ..)
    cases p.last with
    | none => exact hrun _
    | some n =>
      rw [Option.elim_some]
      exact (hrun _).trans (.updCore ..)
  · exact .endRead ..
  · exact .endRead ..

/-! ### Tables (R322 to R333, R455, R457) -/

theorem countKeyRange_engineOnly (d : Dev) (e : Nat) : EngineOnly d (d.countKeyRange e) := .updTab ..

theorem poolKey_engineOnly (env : Env) (t : Table) (kind cluster : Nat) (s : PoolSt) (k : Nat) :
    EngineOnly s.dev (poolKey env t kind cluster s k).dev := by
  unfold poolKey
  split
  · exact .refl _
  · split
    · exact countKeyRange_engineOnly ..
    next r _ =>
      have hread := EngineOnly.of_rowOnly (rowRead_rowOnly s.dev env (t.addr r) t.valueBytes)
      dsimp only
      split
      next hr => rw [hr] at hread; exact hread
      next hr =>
        rw [hr] at hread
        exact hread.trans (.ite (.refl _) (.of_rowOnly (cacheRow_rowOnly ..)))

theorem poolBag_engineOnly (d : Dev) (env : Env) (t : Table) (kind outFmt cluster plot : Nat) (j : Option Job) (keys : List Nat) :
    EngineOnly d (poolBag d env t kind outFmt cluster plot j keys).1 := by
  have hrun := EngineOnly.foldl_of PoolSt.dev (poolKey_engineOnly env t kind cluster) keys ⟨d, List.replicate t.dim 0, 0, 0, false, none⟩
  unfold poolBag
  dsimp only
  split
  · exact hrun.trans (.unreadable ..)
  · exact hrun

theorem gatherBag_engineOnly (j : Job) (o : GatherOps) (t : Table) (os : List Nat) (s : TabSt) (b : Nat) :
    EngineOnly s.dev (gatherBag j o t os s b).dev := by
  unfold gatherBag
  dsimp only
  exact (poolBag_engineOnly ..).trans (.ite (.updCore ..) (.writeG ..))

theorem gatherRun_engineOnly (j : Job) (d : Dev) : EngineOnly d (gatherRun j d) := by
  unfold gatherRun
  dsimp only
  split
  · exact .endRead ..
  · exact (EngineOnly.foldl_of TabSt.dev (gatherBag_engineOnly j _ _ _) _ ⟨d, 0, false, false⟩).trans (.finishJob ..)

theorem mirrorFails_engineOnly (d : Dev) (plot : Nat) : EngineOnly d (d.mirrorFails plot) := by
  have hlost : EngineOnly d (copyLost d) := .setSurv ..
  unfold Dev.mirrorFails
  exact .ite (hlost.trans (.report ..)) hlost

theorem mirrorRow_engineOnly (j : Job) (o : UpdateOps) (a : Nat) (b : Bytes) (d : Dev) : EngineOnly d (mirrorRow j o a b d) := by
  unfold mirrorRow
  split
  · split
    · exact .refl d
    · split
      · exact mirrorFails_engineOnly ..
      · dsimp only
        exact (EngineOnly.sendRequest ..).trans (.updJob (fun _ => by rfl) ..)
  · exact .refl d

theorem writeRow_engineOnly (j : Job) (a : Nat) (b : Bytes) (d : Dev) : EngineOnly d (writeRow j a b d) := by
  have hwrite : EngineOnly d (d.writeG j.id a b) := .writeG ..
  unfold writeRow
  exact .ite (hwrite.trans (.of_rowOnly ((cacheRow_rowOnly ..).trans (countAccess_rowOnly ..)))) hwrite

/-- Either way the gradient intake goes (R329, R333). The property stays a variable here: where it is a field of the outcome, the kernel
evaluates the look-up of the row, modulo 2^64, to find it. -/
theorem gradients_induction {P : TabSt × List (Nat × List Nat) → Prop} {j : Job} {o : UpdateOps} {t : Table}
    {s : TabSt × List (Nat × List Nat)} {i : Nat}
    (hout : ∀ e, P ({ s.1 with dev := s.1.dev.countKeyRange e, range := true }, s.2))
    (hrow : ∀ a r,
      let d :=
        if addrDevice a = s.1.dev.deviceId then s.1.dev.updTab (homeOf a) fun e => { e with progress := e.progress + 1 } else s.1.dev
      let g := joinGrad r (gradRow d j.env o t.dim i) s.2
      P ({ s.1 with dev := d, flags := s.1.flags ||| g.2 }, g.1)) : P (gradients j o t s i) := by
  obtain ⟨intake, hintake⟩ : ∃ g, g = gradients := ⟨_, rfl⟩
  rw [← hintake]
  delta gradients at hintake
  subst hintake
  beta_reduce
  extract_lets +onlyGivenNames k
  generalize t.rowOf k = row
  cases row with
  | none => exact hout _
  | some r => exact hrow (t.addr r) r
theorem gradients_engineOnly (j : Job) (o : UpdateOps) (t : Table) (s : TabSt × List (Nat × List Nat)) (i : Nat) :
    EngineOnly s.1.dev (gradients j o t s i).1.dev :=
  gradients_induction (P := fun y => EngineOnly s.1.dev y.1.dev) (fun _ => countKeyRange_engineOnly ..)
    fun _ _ => .ite (.updTab ..) (.refl _)

theorem updateOne_engineOnly (j : Job) (o : UpdateOps) (t : Table) (h : Hyper) (s : TabSt) (p : Nat × List Nat) :
    EngineOnly s.dev (updateOne j o t h s p).dev := by
  have hread := EngineOnly.of_rowOnly (rowRead_rowOnly s.dev j.env (t.addr p.1) t.whole)
  unfold updateOne
  dsimp only
  split
  next hr => rw [hr] at hread; exact hread.trans (.unreadable ..)
  next hr => rw [hr] at hread; exact (hread.trans (writeRow_engineOnly ..)).trans (mirrorRow_engineOnly ..)

theorem updateRun_engineOnly (j : Job) (d : Dev) : EngineOnly d (updateRun j d) := by
  unfold updateRun
  dsimp only
  split
  · exact .endRead ..
  next =>
    have hgrad := fun o t xs => EngineOnly.foldl_of (fun s : TabSt × List (Nat × List Nat) => s.1.dev) (gradients_engineOnly j o t) xs
      (⟨d, 0, false, false⟩, [])
    have hrows := fun o t h xs s => EngineOnly.foldl_of TabSt.dev (updateOne_engineOnly j o t h) xs s
    refine EngineOnly.trans ?_ (.finishJob ..)
    exact ((hgrad ..).trans (hrows ..)).trans (.ite (.setSurv ..) (.refl _))

theorem startGather_engineOnly (j : Job) (d : Dev) : EngineOnly d (startGather j d) := .runTiles (EngineOnly.tabRun (gatherRun_engineOnly j) j) ..

theorem startUpdate_engineOnly (j : Job) (d : Dev) : EngineOnly d (startUpdate j d) := by
  have hrun (k : Job) (e : Dev) (tiles : List Nat) : EngineOnly e (runTiles k tiles (tabRun k (updateRun k)) e) :=
    .runTiles (EngineOnly.tabRun (updateRun_engineOnly k) k) ..
  unfold startUpdate
  dsimp only
  exact ((EngineOnly.ite (.updJob (fun _ => by rfl) ..) (.refl d)).trans (.ite (.setSurv ..) (.refl _))).trans (hrun ..)

/-! ### Tiles (R178 to R192, R205 to R207, R234 to R236) -/

theorem startPreload_engineOnly (j : Job) (d : Dev) : EngineOnly d (startPreload j d) :=
  (EngineOnly.updCore ..).trans (.updJob (fun _ => by rfl) ..)

theorem startDisarm_engineOnly (j : Job) (d : Dev) : EngineOnly d (startDisarm j d) := (EngineOnly.updChan ..).trans (.finishJob ..)

theorem startArm_engineOnly (j : Job) (d : Dev) : EngineOnly d (startArm j d) := (EngineOnly.updChan ..).trans (.finishJob ..)

theorem startArmOperand_engineOnly (j : Job) (d : Dev) : EngineOnly d (startArmOperand j d) := (EngineOnly.updChan ..).trans (.finishJob ..)

theorem redCore_engineOnly (d : Dev) (j : Job) (n pos seq chan : Nat) (ins : Option (List RedVal)) :
    EngineOnly d (redCore d j n pos seq chan ins) := by
  have hown (c : Core) (b : Bool) (w : Nat) : EngineOnly d (releaseIf b w (d.setCore n c)) := (EngineOnly.setCore ..).trans (.releaseIf ..)
  have hnote (c : Core) (b : Bool) (w : Nat) (f g : NFlags) :
      EngineOnly d
        ((releaseIf b w (d.setCore n c)).updJob j.id fun y => { y with cursor := y.cursor + 1, nflags := y.nflags ||| f ||| g }) :=
    (hown ..).trans (.updJob (fun _ => by rfl) ..)
  unfold redCore
  dsimp only
  split
  · exact ((hown ..).trans (.updCore ..)).trans (.finishJob ..)
  · split
    · exact hown ..
    · exact (hnote ..).trans (.ite (.abortJob ..) (.sendSum ..))

theorem startReduce_engineOnly (j : Job) (d : Dev) : EngineOnly d (startReduce j d) := by
  unfold startReduce
  refine .runTiles (fun e => ?_) ..
  split
  · exact redCore_engineOnly ..
  · split
    · split
      · exact .ite (redCore_engineOnly ..) (.refl e)
      · exact .refl e
    · exact .refl e

theorem accFinishRun_engineOnly (j : Job) (d : Dev) : EngineOnly d (accFinishRun j d) := by
  unfold accFinishRun
  dsimp only
  split
  · exact (EngineOnly.unreadable ..).trans (.finishJob ..)
  · refine EngineOnly.trans (EngineOnly.trans (EngineOnly.trans ?_ (.foldl (fun e r => .writeG ..) _ _)) (.releaseIf ..)) (.finishJob ..)
    exact .setCore ..

/-! ### The tower array (R335, R341) -/

theorem matRun_engineOnly (j : Job) (d : Dev) : EngineOnly d (matRun j d) := by
  unfold matRun
  dsimp only
  split
  · exact .endRead ..
  · exact ((EngineOnly.setCore ..).trans (.setCore ..)).trans (.finishJob ..)

theorem denseStep_engineOnly (j : Job) (o : DenseOps) (p : Plot) (t : SieveTable) (s : BatchSt) (x : Nat × Nat × Bytes) :
    EngineOnly s.dev (denseStep j o p t s x).dev := by
  unfold denseStep
  split
  · exact .refl _
  · dsimp only
    split
    · exact .refl _
    · dsimp only
      exact ((binFrame_engineOnly ..).trans (.writeG ..)).trans (.updCore ..)

theorem startDense_engineOnly (j : Job) (d : Dev) : EngineOnly d (startDense j d) := by
  have hplot : EngineOnly d (d.updJob j.id fun y => { y with plot := some (denseOps j.desc).plot }) := .updJob (fun _ => by rfl) ..
  unfold startDense
  dsimp only
  generalize (d.updJob j.id fun y => { y with plot := some (denseOps j.desc).plot }) = e at hplot ⊢
  refine hplot.trans ?_
  split
  · exact .finishJob ..
  next p _ =>
    split
    next t fs _ _ =>
      have hrun := EngineOnly.foldl_of BatchSt.dev (denseStep_engineOnly j (denseOps j.desc) p t)
        (tab fs.length fun r => (r, at' (0, []) fs r)) ⟨e, 0, none⟩
      split
      · exact hrun.trans (.endRead ..)
      · exact hrun.trans (.finishJob ..)
    · exact .endRead ..
    · exact .finishJob ..

/-! ### A descriptor of these engines as it starts -/

/-- The opcodes of the training engines, GATHER and UPDATE, the tile operations but ACC_RELEASE, MATMUL and DENSE_OUT. -/
def engineOps : List Nat := [0x30, 0x31, 0x32, 0x33, 0x40, 0x41, 0x50, 0x51, 0x53, 0x54, 0x55]

theorem opcodeStart_engineOnly (h : j.desc.code ∈ engineOps) (mc : Mc) (d : Dev) : EngineOnly d (opcodeStart mc j d) := by
  simp only [engineOps, List.mem_cons, List.not_mem_nil, or_false] at h
  obtain h | h | h | h | h | h | h | h | h | h | h := h <;> simp only [opcodeStart, h]
  · exact .startTrain (histRun_engineOnly j) ..
  · exact .startTrain (splitRun_engineOnly j) ..
  · exact startPart_engineOnly j d
  · exact .startTrain (fitRun_engineOnly j) ..
  · exact startGather_engineOnly j d
  · exact startUpdate_engineOnly j d
  · exact .ite (startPreload_engineOnly j d) (.ite (startDisarm_engineOnly j d) (startArm_engineOnly j d))
  · exact startReduce_engineOnly j d
  · exact .ite (.runTiles (accFinishRun_engineOnly j) ..) (startArmOperand_engineOnly j d)
  · exact .runTiles (matRun_engineOnly j) ..
  · exact startDense_engineOnly j d

theorem startNew_engineOnly (h : j.desc.code ∈ engineOps) (mc : Mc) (d : Dev) : EngineOnly d (startNew mc j d) := by
  have hask : EngineOnly d (askReads d j) := .of_askOnly (askReads_askOnly d j)
  unfold startNew
  dsimp only
  generalize blocksRead (askReads d j) j = bs
  generalize askReads d j = e at hask ⊢
  split
  · exact hask.trans (opcodeStart_engineOnly h ..)
  next =>
    have hblocks : EngineOnly d (e.updJob j.id fun k => { k with blocks := bs }) := hask.trans (.updJob (fun _ => by rfl) ..)
    exact hblocks.trans (opcodeStart_engineOnly (j := { j with blocks := bs }) h ..)

theorem engineOps_of_opcode {x : Desc} (h : x.opcode ∈ [0x30, 0x31, 0x32, 0x33, 0x40, 0x41, 0x50, 0x51, 0x53, 0x54, 0x55]) :
    x.code ∈ engineOps := by
  have hcode := List.mem_map_of_mem (f := BitVec.toNat) h
  simpa [Desc.code, engineOps] using hcode

/-- A dispatched descriptor of these engines stands among the dispatched ones after its work, which leaves the rest alone. -/
theorem exec_engineOps {i : Instr} {e : Entry} {s : State} (h : dispatches i e s) (hc : e.desc.code ∈ engineOps) :
    ∃ t, exec i s = .next (withDev s t) ∧ EngineOnly (entered s e) t ∧
      ∃ j ∈ t.jobs, j.id = s.dev.nextJob ∧ j.chan = e.chan ∧ j.seq = (s.dev.chan e.chan).seqNext.toNat := by
  have hconst : e.desc.code ≠ 0x71 := fun h71 => absurd (h71 ▸ hc) (by decide)
  have hwork : EngineOnly (entered s e) (startNew s.mc (jobAt s e) (entered s e)) := startNew_engineOnly (by rwa [jobAt_desc]) ..
  refine ⟨_, by rw [exec_of_dispatched h, takeConst_of_ne hconst], hwork, ?_⟩
  have hentered : jobAt s e ∈ (entered s e).jobs := by
    rw [entered_spec]
    exact List.mem_append_right _ (List.mem_singleton_self _)
  obtain ⟨j, hj, hplace⟩ := List.mem_map.mp (hwork.places ▸ List.mem_map_of_mem (f := Job.place) hentered)
  obtain ⟨hid, hchan, hseq⟩ : j.id = (jobAt s e).id ∧ j.chan = (jobAt s e).chan ∧ j.seq = (jobAt s e).seq := by
    simpa [Job.place] using hplace
  exact ⟨j, hj, hid.trans (jobAt_id s e), hchan, hseq⟩

end Sys2Proof.Machine
end

section
/-! SUPPORT. Layouts, groves and rows: what LOAD_LAYOUT, LOAD_GROVE, EVICT_GROVE and TABLE_SYNC change. -/

namespace Sys2Proof.Machine
open Sys2Proof.Safety
variable {d e f : Dev} {j : Job} {pid : Nat}

/-! ### A descriptor that reads no block -/

/-- The digital part as the engine of a taken descriptor finds it, with the reads of other devices' memory asked for (R24). -/
def asked (s : State) (x : Entry) : Dev := askReads (entered s x) (jobAt s x)

theorem asked_askOnly (s : State) (x : Entry) : AskOnly (entered s x) (asked s x) := askReads_askOnly ..

theorem asked_spec (s : State) (x : Entry) : asked s x = { s.dev with
    host := { s.dev.host with atc := (asked s x).host.atc }, chans := (asked s x).chans, jobs := s.dev.jobs ++ [jobAt s x],
    nextJob := s.dev.nextJob + 1, fecProgress := s.dev.fecProgress + 1,
    nextTag := (asked s x).nextTag, ports := (asked s x).ports, out := (asked s x).out } := by
  have hask := asked_askOnly s x
  rw [AskOnly, entered_spec] at hask
  generalize asked s x = e at hask ⊢
  rw [hask]

theorem jobAt_mem_asked (s : State) (x : Entry) : jobAt s x ∈ (asked s x).jobs := by
  rw [asked_spec]
  exact List.mem_append_right _ (List.mem_singleton_self _)

theorem AskOnly.readOr_eq (h : AskOnly d e) (env : Env) (a n : Nat) : e.readOr env a n = d.readOr env a n := by
  rw [Dev.readOr, Dev.readOr, h.readG_eq]

theorem exec_of_noBlocks {i : Instr} {x : Entry} {s : State} (h : dispatches i x s) (hc : x.desc.code ≠ 0x71)
    (hb : blocksRead (asked s x) (jobAt s x) = []) : exec i s = .next (withDev s (opcodeStart s.mc (jobAt s x) (asked s x))) := by
  rw [exec_of_dispatched h, takeConst_of_ne hc, startNew_of_noBlocks hb, asked]

/-! ### LOAD_LAYOUT (R135, R144) -/

theorem disarmPlots_frame (d : Dev) (p : Nat → Bool) : disarmPlots d p = { d with chans := (disarmPlots d p).chans } :=
  List.foldlRecOn (motive := fun e : Dev => e = { d with chans := e.chans }) _ _ rfl fun e he _ _ => by rw [he]; rfl

theorem admitCores_coresOnly (d : Dev) (l : Layout) : CoresOnly d (admitCores d l) :=
  List.foldlRecOn (motive := CoresOnly d) _ _ rfl fun _ he _ _ => he.trans (foldl_updCore_coresOnly ..)

theorem lay_plotFor (d : Dev) (r : PlotRec) : (plotFor d r).lay = r := by
  unfold plotFor
  split
  · split
    next hsame => exact eq_of_beq hsame
    · rfl
  · rfl

/-- The plots of a new layout, by their PLOT_ID (R135). -/
def placed (d : Dev) (rs : List PlotRec) : Tbl (Option Plot) := rs.foldl (fun t r => Tbl.set none r.plotId (some (plotFor d r)) t) []

theorem get_placed (d : Dev) (rs : List PlotRec) :
    ∀ pid p, Tbl.get none pid (placed d rs) = some p → p.lay ∈ rs ∧ p.lay.plotId = pid := by
  refine List.foldlRecOn (motive := fun t : Tbl (Option Plot) =>
    ∀ pid p, Tbl.get none pid t = some p → p.lay ∈ rs ∧ p.lay.plotId = pid) _ _ (fun _ q (hnil : none = some q) => nomatch hnil)
    fun t ht r hr pid p hp => ?_
  by_cases hpid : pid = r.plotId
  · subst hpid
    rw [Tbl.get_set_self] at hp
    obtain rfl := Option.some.inj hp
    rw [lay_plotFor]
    exact ⟨hr, rfl⟩
  · rw [Tbl.get_set_other _ hpid] at hp
    exact ht pid p hp

theorem isSome_get_set (r : PlotRec) (p : Plot) {t : Tbl (Option Plot)} (h : (Tbl.get none pid t).isSome = true) :
    (Tbl.get none pid (Tbl.set none r.plotId (some p) t)).isSome = true := by
  by_cases hpid : pid = r.plotId
  · rw [hpid, Tbl.get_set_self]
    rfl
  · rwa [Tbl.get_set_other _ hpid]

theorem isSome_get_placed {rs : List PlotRec} {r : PlotRec} (h : r ∈ rs) : (Tbl.get none r.plotId (placed d rs)).isSome = true := by
  obtain ⟨xs, ys, rfl⟩ := List.append_of_mem h
  rw [placed, List.foldl_append, List.foldl_cons]
  refine List.foldlRecOn (motive := fun t : Tbl (Option Plot) => (Tbl.get none r.plotId t).isSome = true) _ _ ?_
    fun _ ht _ _ => isSome_get_set _ _ ht
  rw [Tbl.get_set_self]
  rfl

theorem faultWaits_congr (h : e.detected = d.detected) (l : Layout) : faultWaits e l = faultWaits d l := by
  rw [faultWaits, faultWaits, h]

/-- The image that a LOAD_LAYOUT names. -/
def layoutImageOf (j : Job) (d : Dev) : Bytes := d.readOr j.env (j.desc.op 0x10 8) (j.desc.op 0x18 4)

/-- The digital part with a layout put in force: cores admitted, what channels armed for the plots that go removed (R135, R158, R192). -/
def relaid (d : Dev) (img : Bytes) : Dev :=
  let e := admitCores d (parseLayout img)
  applyLayout (disarmPlots e fun p => !keeps e (parseLayout img) p) img

theorem relaid_frame (d : Dev) (img : Bytes) : relaid d img = { d with
    cores := (relaid d img).cores, chans := (relaid d img).chans, layout := some (parseLayout img), layoutImage := img,
    deviceId := (parseLayout img).deviceId, plots := (relaid d img).plots } := by
  have hcores := admitCores_coresOnly d (parseLayout img)
  unfold relaid applyLayout
  dsimp only
  generalize admitCores d (parseLayout img) = e at hcores ⊢
  rw [disarmPlots_frame, hcores]

theorem plot_relaid (d : Dev) (img : Bytes) : ∃ e, ∀ pid, (relaid d img).plot pid = Tbl.get none pid (placed e (parseLayout img).plots) :=
  ⟨_, fun _ => rfl⟩

theorem startLoadLayout_eq (j : Job) (d : Dev) : startLoadLayout j d =
    if faultWaits d (parseLayout (layoutImageOf j d)) && Config.fenceFirst d.free then { d with free := d.free + 1 }.finishJob j.id stCoreFenced
    else (relaid d (layoutImageOf j d)).finishJob j.id 0 := rfl

theorem exec_loadLayout {c : Fin 64} {x : Desc} {env : Env} {y : Entry} {s : State} (h : dispatches (.loadLayout c x env) y s) :
    exec (.loadLayout c x env) s = .next (withDev s (startLoadLayout (jobAt s y) (asked s y))) ∧
      layoutImageOf (jobAt s y) (asked s y) = (entered s y).readOr env (x.op 0x10 8) (x.op 0x18 4) := by
  have hexec := exec_of_noBlocks h
  obtain ⟨hi, -⟩ := h
  obtain rfl := Option.some.inj hi
  exact ⟨hexec (by decide : (0x10 : BitVec 8).toNat ≠ 0x71) rfl, (asked_askOnly ..).readOr_eq ..⟩

theorem faultWaits_asked (s : State) (y : Entry) (l : Layout) : faultWaits (asked s y) l = faultWaits s.dev l :=
  faultWaits_congr (by rw [asked_spec]) l

theorem free_asked (s : State) (y : Entry) : (asked s y).free = s.dev.free := by rw [asked_spec]

theorem mem_asked (s : State) (y : Entry) : (asked s y).mem = s.dev.mem := by rw [asked_spec]

theorem layout_asked (s : State) (y : Entry) : (asked s y).layout = s.dev.layout := by rw [asked_spec]

theorem plots_asked (s : State) (y : Entry) : (asked s y).plots = s.dev.plots := by rw [asked_spec]

theorem exec_loadLayout_applies {c : Fin 64} {x : Desc} {env : Env} {y : Entry} {s : State} (h : dispatches (.loadLayout c x env) y s)
    (hfence : faultWaits s.dev (parseLayout ((entered s y).readOr env (x.op 0x10 8) (x.op 0x18 4))) = false ∨
      Config.fenceFirst s.dev.free = false) :
    exec (.loadLayout c x env) s = .next (withDev s
      ((relaid (asked s y) ((entered s y).readOr env (x.op 0x10 8) (x.op 0x18 4))).finishJob s.dev.nextJob 0)) := by
  obtain ⟨hexec, himg⟩ := exec_loadLayout h
  have hopen : (faultWaits s.dev (parseLayout ((entered s y).readOr env (x.op 0x10 8) (x.op 0x18 4))) &&
      Config.fenceFirst s.dev.free) = false := by
    obtain h | h := hfence <;> simp [h]
  rw [hexec, startLoadLayout_eq, himg, faultWaits_asked, free_asked, hopen, jobAt_id]
  rfl

theorem exec_loadLayout_fenced {c : Fin 64} {x : Desc} {env : Env} {y : Entry} {s : State} (h : dispatches (.loadLayout c x env) y s)
    (hwait : faultWaits s.dev (parseLayout ((entered s y).readOr env (x.op 0x10 8) (x.op 0x18 4))) = true)
    (hfirst : Config.fenceFirst s.dev.free = true) :
    exec (.loadLayout c x env) s =
      .next (withDev s ({ asked s y with free := s.dev.free + 1 }.finishJob (jobAt s y).id stCoreFenced)) := by
  obtain ⟨hexec, himg⟩ := exec_loadLayout h
  rw [hexec, startLoadLayout_eq, himg, faultWaits_asked, free_asked, hwait, hfirst]
  rfl

/-- A layout in force (R135): its image, its DEVICE_ID, and its plots with no others. -/
theorem relaid_inForce (d : Dev) (img : Bytes) :
    (relaid d img).layout = some (parseLayout img) ∧ (relaid d img).layoutImage = img ∧
      (relaid d img).deviceId = (parseLayout img).deviceId ∧
      (∀ r ∈ (parseLayout img).plots, ((relaid d img).plot r.plotId).isSome = true) ∧
      ∀ pid p, (relaid d img).plot pid = some p → p.lay ∈ (parseLayout img).plots ∧ p.lay.plotId = pid := by
  obtain ⟨e, hplot⟩ := plot_relaid d img
  simp only [hplot]
  exact ⟨rfl, rfl, rfl, fun _ => isSome_get_placed, get_placed e _⟩

theorem mem_relaid (d : Dev) (img : Bytes) : (relaid d img).mem = d.mem := by rw [relaid_frame]

/-! ### Cores of a plot changed -/

section
variable {g : Core → Core} {P : Core → Prop} {ns : List Nat} {n : Nat}

theorem core_foldl_updCore_keeps (hg : ∀ c, P c → P (g c)) (h : P (d.core n)) :
    P ((ns.foldl (fun d n => d.updCore n g) d).core n) :=
  List.foldlRecOn (motive := fun e : Dev => P (e.core n)) _ _ h fun e he m _ => by
    by_cases hm : n = m
    · subst hm
      rw [Dev.core_updCore]
      exact hg _ he
    · rwa [Dev.core_updCore_other _ hm]

/-- A core named once or more has what every change gives it. -/
theorem core_foldl_updCore_of_mem (hg : ∀ c, P (g c)) (hn : n ∈ ns) : P ((ns.foldl (fun d n => d.updCore n g) d).core n) := by
  obtain ⟨xs, ys, rfl⟩ := List.append_of_mem hn
  rw [List.foldl_append, List.foldl_cons]
  refine core_foldl_updCore_keeps (fun c _ => hg c) ?_
  rw [Dev.core_updCore]
  exact hg _

end

theorem pair_setPair_self (c : Core) (i : Nat) (p : Option Pair) : (c.setPair i p).pair i = p := by
  unfold Core.setPair Core.pair
  split <;> simp [*]

theorem pair_setPair_none (c : Core) {i : Nat} (k : Nat) (h : c.pair i = none) : (c.setPair k none).pair i = none := by
  unfold Core.setPair Core.pair at *
  split <;> split <;> simp_all

theorem activePair_setPair_shadow (c : Core) (p : Option Pair) : (c.setPair (1 - c.active) p).activePair = c.activePair := by
  rw [Core.activePair, Core.activePair]
  unfold Core.setPair Core.pair
  by_cases h : c.active = 0
  · simp [h]
  · have hshadow : 1 - c.active = 0 := by omega
    simp [h, hshadow]

theorem active_setPair (c : Core) (i : Nat) (p : Option Pair) : (c.setPair i p).active = c.active := by rw [setPair_frame]

theorem shadowPair_clearShadow (c : Core) : c.clearShadow.shadowPair = none := by
  change (c.setPair (1 - c.active) none).pair (1 - (c.setPair (1 - c.active) none).active) = none
  rw [active_setPair, pair_setPair_self]

theorem activePair_clearActive (c : Core) : c.clearActive.activePair = none := by
  change (c.setPair c.active none).pair (c.setPair c.active none).active = none
  rw [active_setPair, pair_setPair_self]

theorem shadowPair_clearActive {c : Core} (h : c.shadowPair = none) : c.clearActive.shadowPair = none := by
  change (c.setPair c.active none).pair (1 - (c.setPair c.active none).active) = none
  rw [active_setPair]
  exact pair_setPair_none c _ h

theorem activePair_clearShadow {c : Core} (h : c.activePair = none) : c.clearShadow.activePair = none :=
  (activePair_setPair_shadow c none).trans h

/-! ### LOAD_GROVE (R139) -/

/-- Only the cores, the plots and the dispatched descriptors differ. -/
def GroveOnly (d e : Dev) : Prop := e = { d with jobs := e.jobs, cores := e.cores, plots := e.plots }

theorem GroveOnly.trans (h : GroveOnly d e) (k : GroveOnly e f) : GroveOnly d f := by
  unfold GroveOnly at *; rw [k, h]

theorem CoresOnly.groveOnly (h : CoresOnly d e) : GroveOnly d e := by
  unfold CoresOnly GroveOnly at *; rw [h]

theorem updPlot_groveOnly (d : Dev) (pid : Nat) (g : Plot → Plot) : GroveOnly d (d.updPlot pid g) := by
  unfold Dev.updPlot
  split <;> rfl

theorem updCores_coresOnly (d : Dev) (p : Plot) (g : Core → Core) : CoresOnly d (d.updCores p g) := foldl_updCore_coresOnly ..

/-- Writing the shadow pairs of a plot leaves every active pair (R125). -/
theorem writeShadow_spec (d : Dev) (p : Plot) (g : Grove) (sieve derived : Bool) :
    CoresOnly d (writeShadow d p g sieve derived) ∧ ∀ n, ((writeShadow d p g sieve derived).core n).activePair = (d.core n).activePair := by
  refine List.foldlRecOn (motive := fun e : Dev => CoresOnly d e ∧ ∀ n, (e.core n).activePair = (d.core n).activePair) _ _
    ⟨rfl, fun _ => rfl⟩ fun e he i _ => ?_
  obtain ⟨honly, hpair⟩ := he
  split
  · exact ⟨honly, hpair⟩
  next entry _ =>
    refine ⟨honly.trans rfl, fun n => ?_⟩
    by_cases hn : n = entry.core
    · subst hn
      rw [Dev.core_updCore, ← hpair]
      dsimp only
      split
      · exact activePair_setPair_shadow ..
      · exact activePair_setPair_shadow ..
    · rw [Dev.core_updCore_other _ hn, hpair]

theorem settle_groves (p : Plot) : p.settle = { p with state := p.settle.state } := by
  unfold Plot.settle
  split <;> rfl

theorem plot_stageGrove {p : Plot} (h : d.plot pid = some p) (g : Grove) (sieve : Bool) :
    (stageGrove d pid g sieve).plot pid = some { p with shadowGrove := some g } := by
  have hplot : (writeShadow d p g sieve false).plot pid = some p := ((writeShadow_spec d p g sieve false).1.plot_eq pid).trans h
  simp only [stageGrove, h, Dev.plot_updPlot, hplot, Option.map_some]

theorem stageGrove_groveOnly (d : Dev) (pid : Nat) (g : Grove) (sieve : Bool) : GroveOnly d (stageGrove d pid g sieve) := by
  unfold stageGrove
  split
  · rfl
  next p _ => exact (writeShadow_spec d p g sieve false).1.groveOnly.trans (updPlot_groveOnly ..)

theorem activePair_stageGrove (d : Dev) (pid : Nat) (g : Grove) (sieve : Bool) (n : Nat) :
    ((stageGrove d pid g sieve).core n).activePair = (d.core n).activePair := by
  unfold stageGrove
  split
  · rfl
  next p _ => rw [core_updPlot, (writeShadow_spec d p g sieve false).2]

theorem plot_activate {p : Plot} (h : d.plot pid = some p) :
    (activate d pid).plot pid = some { p with activeGrove := p.shadowGrove, shadowGrove := p.activeGrove }.settle := by
  have hplot : (d.updCores p Core.swapPairs).plot pid = some p := ((updCores_coresOnly d p Core.swapPairs).plot_eq pid).trans h
  simp only [activate, h, Dev.plot_updPlot, hplot, Option.map_some]

theorem activate_groveOnly (d : Dev) (pid : Nat) : GroveOnly d (activate d pid) := by
  unfold activate
  split
  · rfl
  · exact (updCores_coresOnly ..).groveOnly.trans (updPlot_groveOnly ..)

/-- The digital part with a grove loaded, staged or active (R139 steps 5 to 7). -/
def groveLoaded (d : Dev) (pid : Nat) (g : Grove) (act : Bool) : Dev :=
  if act then activate (stageGrove d pid g true) pid else (stageGrove d pid g true).updPlot pid Plot.settle

theorem groveLoaded_groveOnly (d : Dev) (pid : Nat) (g : Grove) (act : Bool) : GroveOnly d (groveLoaded d pid g act) := by
  unfold groveLoaded
  split
  · exact (stageGrove_groveOnly ..).trans (activate_groveOnly ..)
  · exact (stageGrove_groveOnly ..).trans (updPlot_groveOnly ..)

theorem plot_groveLoaded_active {p : Plot} (h : d.plot pid = some p) (g : Grove) : ∃ q, (groveLoaded d pid g true).plot pid = some q ∧
    q.replay = p.replay ∧ q.activeGrove = some g ∧ q.shadowGrove = p.activeGrove := by
  refine ⟨_, plot_activate (plot_stageGrove h g true), ?_⟩
  rw [settle_groves]
  exact ⟨rfl, rfl, rfl⟩

theorem plot_groveLoaded_staged {p : Plot} (h : d.plot pid = some p) (g : Grove) : ∃ q, (groveLoaded d pid g false).plot pid = some q ∧
    q.replay = p.replay ∧ q.shadowGrove = some g ∧ q.activeGrove = p.activeGrove := by
  refine ⟨{ p with shadowGrove := some g }.settle, ?_, ?_⟩
  · exact (Dev.plot_updPlot ..).trans (congrArg (Option.map Plot.settle) (plot_stageGrove h g true))
  · rw [settle_groves]
    exact ⟨rfl, rfl, rfl⟩

theorem activePair_groveLoaded_staged (d : Dev) (pid : Nat) (g : Grove) (n : Nat) :
    ((groveLoaded d pid g false).core n).activePair = (d.core n).activePair :=
  (congrArg Core.activePair (core_updPlot ..)).trans (activePair_stageGrove ..)

/-- A LOAD_GROVE's end: its descriptor names the plot and is done. -/
def loadDone (j : Job) (d : Dev) : Dev := (d.updJob j.id fun y => { y with plot := some (j.desc.op 0x1C 2) }).finishJob j.id 0

theorem startLoadGrove_eq (j : Job) (d : Dev) : startLoadGrove j d = loadDone j (if bit (j.desc.op 0x1E 2) 1 then d
    else groveLoaded d (j.desc.op 0x1C 2) (parseGrove (d.readOr j.env (j.desc.op 0x10 8) (j.desc.op 0x18 4))) (bit (j.desc.op 0x1E 2) 0)) :=
  rfl

theorem loadDone_frame (j : Job) (d : Dev) : loadDone j d = { d with jobs := (loadDone j d).jobs } := rfl

/-! ### EVICT_GROVE (R145) -/

theorem cores_of_lay {p q : Plot} (h : q.lay = p.lay) : q.cores = p.cores := by rw [Plot.cores, Plot.cores, h]

theorem coresAndPlot_spec {p q : Plot} (h : d.plot pid = some q) (hlay : q.lay = p.lay) (g : Core → Core) (k : Plot → Plot) :
    ((d.updCores q g).updPlot pid k).mem = d.mem ∧ ((d.updCores q g).updPlot pid k).plot pid = some (k q) ∧
      ∀ n, ((d.updCores q g).updPlot pid k).core n = (p.cores.foldl (fun d n => d.updCore n g) d).core n := by
  have honly := updCores_coresOnly d q g
  refine ⟨?_, ?_, fun n => ?_⟩
  · rw [honly.groveOnly.trans (updPlot_groveOnly ..)]
  · rw [Dev.plot_updPlot, honly.plot_eq, h, Option.map_some]
  · rw [core_updPlot, ← cores_of_lay hlay]
    rfl

/-- A plot's bank pairs cleared so far, of its shadow grove and of its active one, from `d` to `e`. -/
structure Emptied (pid : Nat) (p : Plot) (shadow active : Bool) (d e : Dev) : Prop where
  mem : e.mem = d.mem
  plot : ∃ q, e.plot pid = some q ∧ q.lay = p.lay ∧ q.shadowGrove = (if shadow then none else p.shadowGrove) ∧
    q.activeGrove = (if active then none else p.activeGrove)
  shadowPair : shadow = true → ∀ n ∈ p.cores, (e.core n).shadowPair = none
  activePair : active = true → ∀ n ∈ p.cores, (e.core n).activePair = none
  others : ∀ n, n ∉ p.cores → e.core n = d.core n

namespace Emptied
variable {p : Plot} {sh ac : Bool}

theorem start (h : d.plot pid = some p) : Emptied pid p false false d d :=
  ⟨rfl, ⟨p, h, rfl, rfl, rfl⟩, nofun, nofun, fun _ _ => rfl⟩

/-- What leaves memory, the plot's groves and the cores alone. -/
theorem same (h : Emptied pid p sh ac d e) (hmem : f.mem = e.mem) (hcore : ∀ n, f.core n = e.core n)
    (hplot : ∀ q, e.plot pid = some q → ∃ r, f.plot pid = some r ∧ r.lay = q.lay ∧ r.shadowGrove = q.shadowGrove ∧ r.activeGrove = q.activeGrove) :
    Emptied pid p sh ac d f := by
  obtain ⟨q, hq, hlay, hshadow, hactive⟩ := h.plot
  obtain ⟨r, hr, hrl, hrs, hra⟩ := hplot q hq
  refine ⟨hmem.trans h.mem, ⟨r, hr, hrl.trans hlay, hrs.trans hshadow, hra.trans hactive⟩, fun hs n hn => ?_, fun ha n hn => ?_,
    fun n hn => (hcore n).trans (h.others n hn)⟩
  · rw [hcore, h.shadowPair hs n hn]
  · rw [hcore, h.activePair ha n hn]

theorem disarm (h : Emptied pid p sh ac d e) (keep : Nat → Bool) : Emptied pid p sh ac d (disarmPlots e keep) := by
  have hframe := disarmPlots_frame e keep
  generalize disarmPlots e keep = f at hframe ⊢
  exact h.same (by rw [hframe]) (fun n => by rw [hframe]; rfl) fun q hq => ⟨q, by rw [hframe]; exact hq, rfl, rfl, rfl⟩

theorem updPlot (h : Emptied pid p sh ac d e) {g : Plot → Plot}
    (hg : ∀ q, (g q).lay = q.lay ∧ (g q).shadowGrove = q.shadowGrove ∧ (g q).activeGrove = q.activeGrove) :
    Emptied pid p sh ac d (e.updPlot pid g) := by
  refine h.same ?_ (fun _ => core_updPlot ..) fun q hq => ⟨g q, by rw [Dev.plot_updPlot, hq]; rfl, hg q⟩
  rw [updPlot_groveOnly e pid g]

theorem evictShadow (h : Emptied pid p false ac d e) : Emptied pid p true ac d (Machine.evictShadow e pid) := by
  obtain ⟨q, hq, hlay, -, hactive⟩ := h.plot
  have heq : Machine.evictShadow e pid = (e.updCores q Core.clearShadow).updPlot pid fun p => { p with shadowGrove := none } := by
    simp only [Machine.evictShadow, hq]
  obtain ⟨hmem, hplot, hcore⟩ := coresAndPlot_spec hq hlay Core.clearShadow fun p => { p with shadowGrove := none }
  rw [heq]
  refine ⟨hmem.trans h.mem, ⟨_, hplot, hlay, rfl, hactive⟩, fun _ n hn => ?_, fun ha n hn => ?_, fun n hn => ?_⟩
  · rw [hcore]
    exact core_foldl_updCore_of_mem (P := fun c => c.shadowPair = none) shadowPair_clearShadow hn
  · rw [hcore]
    exact core_foldl_updCore_keeps (P := fun c => c.activePair = none) (fun _ => activePair_clearShadow) (h.activePair ha n hn)
  · rw [hcore, core_foldl_updCore_other _ _ hn, h.others n hn]

theorem evictActive (h : Emptied pid p sh false d e) : Emptied pid p sh true d (Machine.evictActive e pid) := by
  obtain ⟨q, hq, hlay, hshadow, -⟩ := h.plot
  have heq : Machine.evictActive e pid =
      (e.updCores q Core.clearActive).updPlot pid fun p => { p with activeGrove := none, lastMark := none } := by
    simp only [Machine.evictActive, hq]
  obtain ⟨hmem, hplot, hcore⟩ := coresAndPlot_spec hq hlay Core.clearActive fun p => { p with activeGrove := none, lastMark := none }
  rw [heq]
  refine ⟨hmem.trans h.mem, ⟨_, hplot, hlay, hshadow, rfl⟩, fun hs n hn => ?_, fun _ n hn => ?_, fun n hn => ?_⟩
  · rw [hcore]
    exact core_foldl_updCore_keeps (P := fun c => c.shadowPair = none) (fun _ => shadowPair_clearActive) (h.shadowPair hs n hn)
  · rw [hcore]
    exact core_foldl_updCore_of_mem (P := fun c => c.activePair = none) activePair_clearActive hn
  · rw [hcore, core_foldl_updCore_other _ _ hn, h.others n hn]

/-- The end of an eviction: the plot's state follows its slots, or an emptied plot leaves its failed re-placement (R145, R282). -/
theorem settled (h : Emptied pid p sh ac d e) (b : Nat) : Emptied pid p sh ac d (e.updPlot pid fun p =>
    if p.state = .reforming then
      (if b = 3 && p.restart = .failed then { p with state := .empty, restart := .none, held := false } else p)
    else p.settle) := by
  refine h.updPlot fun q => ?_
  split
  · split <;> exact ⟨rfl, rfl, rfl⟩
  · rw [settle_groves]
    exact ⟨rfl, rfl, rfl⟩

theorem finishJob (h : Emptied pid p sh ac d e) (id : Nat) (st : Status) : Emptied pid p sh ac d (e.finishJob id st) :=
  h.same rfl (fun _ => rfl) fun q hq => ⟨q, hq, rfl, rfl, rfl⟩

end Emptied

theorem startEvict_emptied {p : Plot} (h : d.plot (j.desc.op 0x10 2) = some p) :
    Emptied (j.desc.op 0x10 2) p (bit (j.desc.op 0x12 1) 0) (bit (j.desc.op 0x12 1) 1) d (startEvict j d) := by
  have hshadow : Emptied (j.desc.op 0x10 2) p (bit (j.desc.op 0x12 1) 0) false d
      (if bit (j.desc.op 0x12 1) 0 then evictShadow d (j.desc.op 0x10 2) else d) := by
    cases bit (j.desc.op 0x12 1) 0
    · exact .start h
    · exact (Emptied.start h).evictShadow
  unfold startEvict
  dsimp only
  generalize (if bit (j.desc.op 0x12 1) 0 then evictShadow d (j.desc.op 0x10 2) else d) = e at hshadow ⊢
  refine ((?_ : Emptied _ _ _ _ _ _).settled _).finishJob _ _
  cases bit (j.desc.op 0x12 1) 1
  · exact hshadow
  · rw [if_pos rfl]
    split
    · exact hshadow.evictActive.disarm _
    · exact hshadow.evictActive


theorem exec_evictGrove {c : Fin 64} {x : Desc} {env : Env} {y : Entry} {s : State} (h : dispatches (.evictGrove c x env) y s) :
    exec (.evictGrove c x env) s = .next (withDev s (startEvict (jobAt s y) (asked s y))) ∧
      (jobAt s y).desc.op 0x10 2 = x.op 0x10 2 ∧ (jobAt s y).desc.op 0x12 1 = x.op 0x12 1 := by
  have hexec := exec_of_noBlocks h
  obtain ⟨hi, -⟩ := h
  obtain rfl := Option.some.inj hi
  exact ⟨hexec (by decide : (0x12 : BitVec 8).toNat ≠ 0x71) rfl, rfl, rfl⟩

theorem plot_asked (s : State) (y : Entry) (pid : Nat) : (asked s y).plot pid = s.dev.plot pid := by rw [Dev.plot, plots_asked]; rfl

theorem core_asked (s : State) (y : Entry) (n : Nat) : (asked s y).core n = s.dev.core n :=
  ((asked_askOnly s y).core_eq n).trans (core_entered s y n)

/-! ### TABLE_SYNC (R321) -/

/-- The rows of clusters 0 to 3 that satisfy the test go, and nothing else of a cache changes. -/
theorem cache_dropCached (d : Dev) (p : Nat → Bool) (k : Nat) : (dropCached d p).cache k =
    if k ∈ [0, 1, 2, 3] then { d.cache k with rows := (d.cache k).rows.filter fun x => !p x.1 } else d.cache k := by
  have hcaches : (dropCached d p).caches =
      [0, 1, 2, 3].foldl (fun t k => Tbl.upd {} k (fun r : RowCache => { r with rows := r.rows.filter fun x => !p x.1 }) t) d.caches :=
    (List.foldl_hom Dev.caches (fun _ _ => rfl)).symm
  rw [Dev.cache, hcaches]
  exact Tbl.get_foldl_each (g := fun _ r => { r with rows := r.rows.filter fun x => !p x.1 }) (fun _ _ => Tbl.get_upd_self ..)
    (fun _ _ _ hk => Tbl.get_upd_other _ hk ..) k
    (l := [0, 1, 2, 3]) (by decide) d.caches

theorem dropCached_frame (d : Dev) (p : Nat → Bool) : dropCached d p = { d with caches := (dropCached d p).caches } :=
  List.foldlRecOn (motive := fun e : Dev => e = { d with caches := e.caches }) _ _ rfl fun e he _ _ => by rw [he]; rfl

/-- The row addresses that a TABLE_SYNC names: every one, or those in the shards of one table. -/
def syncNames (j : Job) (d : Dev) (r : Nat) : Bool :=
  j.desc.op 0x10 8 == 0 || (tableNow d j (j.desc.op 0x10 8)).shards.any fun s => s.1 ≤ r && r < s.1 + s.2

theorem startTableSync_of_clean (h : codeMet j.env = none) (d : Dev) :
    startTableSync j d = (dropCached d (syncNames j d)).finishJob j.id 0 := by
  rw [startTableSync, tabRun, h]
  rfl

theorem exec_tableSync {c : Fin 64} {x : Desc} {env : Env} {y : Entry} {s : State} (h : dispatches (.tableSync c x env) y s)
    (hc : codeMet env = none) : exec (.tableSync c x env) s =
        .next (withDev s ((dropCached (asked s y) (syncNames (jobAt s y) (asked s y))).finishJob (jobAt s y).id 0)) ∧
      (jobAt s y).desc.op 0x10 8 = x.op 0x10 8 := by
  have hexec := exec_of_noBlocks h
  obtain ⟨hi, -⟩ := h
  obtain rfl := Option.some.inj hi
  refine ⟨?_, rfl⟩
  rw [hexec (by decide : (0x42 : BitVec 8).toNat ≠ 0x71) rfl, ← startTableSync_of_clean hc]
  rfl

theorem cache_asked (s : State) (y : Entry) (k : Nat) : (asked s y).cache k = s.dev.cache k := by
  rw [asked_spec]
  rfl

/-- What TABLE_SYNC leaves of a cache is what was there, and nothing of it where every row is named. -/
theorem cache_dropCached_spec (d : Dev) (p : Nat → Bool) (k : Nat) :
    ((∀ r, p r = true) → k < 4 → ((dropCached d p).cache k).rows = []) ∧
      (∀ r ∈ ((dropCached d p).cache k).rows, r ∈ (d.cache k).rows) ∧ ((dropCached d p).cache k).hits = (d.cache k).hits ∧
      ((dropCached d p).cache k).misses = (d.cache k).misses := by
  rw [cache_dropCached]
  split
  · exact ⟨fun hall _ => by simp [hall], fun r hr => (List.mem_filter.mp hr).1, rfl, rfl⟩
  next hk => exact ⟨fun _ hlt => absurd hlt (by simp at hk; omega), fun _ hr => hr, rfl, rfl⟩

theorem synced_frame (s : State) (y : Entry) (named : Nat → Bool) (id : Nat) :
    let t := (dropCached (asked s y) named).finishJob id 0
    t = { s.dev with
      host := { s.dev.host with atc := t.host.atc }, chans := t.chans, jobs := t.jobs, nextJob := s.dev.nextJob + 1, caches := t.caches,
      ports := t.ports, out := t.out, nextTag := t.nextTag, fecProgress := s.dev.fecProgress + 1 } := by
  have hdropped := dropCached_frame (asked s y) named
  have hasked := asked_spec s y
  generalize dropCached (asked s y) named = e at hdropped ⊢
  generalize asked s y = a at hdropped hasked
  rw [hasked] at hdropped
  rw [hdropped]
  rfl

theorem cache_synced_spec (s : State) (y : Entry) (named : Nat → Bool) (id : Nat) :
    let t := (dropCached (asked s y) named).finishJob id 0
    ((∀ r, named r = true) → ∀ k, k < 4 → (t.cache k).rows = []) ∧
      ∀ k, (∀ r ∈ (t.cache k).rows, r ∈ (s.dev.cache k).rows) ∧ (t.cache k).hits = (s.dev.cache k).hits ∧
        (t.cache k).misses = (s.dev.cache k).misses := by
  have hcache := cache_dropCached_spec (asked s y) named
  simp only [cache_asked] at hcache
  generalize dropCached (asked s y) named = e at hcache
  exact ⟨fun hall k => (hcache k).1 hall, fun k => (hcache k).2⟩

end Sys2Proof.Machine

namespace Sys2Proof.Proofs
open Sys2Proof.Machine Sys2Proof.Safety

/-- Settles O23: LOAD_LAYOUT puts the image's plots in force (`relaid_inForce`) unless a fence comes first, LOAD_GROVE stages and
activates (`groveLoaded`), EVICT_GROVE clears bank pairs one slot after the other (`Emptied`), TABLE_SYNC only drops rows
(`cache_dropCached_spec`), and the engines keep `EngineOnly`. -/
theorem grovesLayoutsAndEngines : Obligations.GrovesLayoutsAndEngines := by
  refine ⟨fun c x env y s h => ?loadLayout, fun c x env y s h => ?fencedLayout, fun j d p hp => ?loadGrove,
    fun c x env y p s h hp => ?evictGrove, fun c x env y s h hc => ?tableSync, fun i y s h hop => ?engines⟩
  case loadLayout =>
    intro img l hfence
    have hexec : exec (.loadLayout c x env) s = .next (withDev s ((relaid (asked s y) img).finishJob s.dev.nextJob 0)) :=
      exec_loadLayout_applies h hfence
    have hmem : (relaid (asked s y) img).mem = s.dev.mem := (mem_relaid ..).trans (mem_asked s y)
    have hforce := relaid_inForce (asked s y) img
    clear_value img
    generalize relaid (asked s y) img = d at hexec hmem hforce
    exact ⟨_, hexec, rfl, rfl, hmem, hforce⟩
  case fencedLayout =>
    intro l hwait
    by_cases hfirst : Config.fenceFirst s.dev.free = true
    · refine ⟨_, exec_loadLayout_fenced h hwait hfirst, ?_⟩
      rw [if_pos hfirst]
      exact ⟨layout_asked s y, plots_asked s y, _,
        mem_updJob (d := { asked s y with free := s.dev.free + 1 }) (jobAt_mem_asked s y) _, jobAt_id s y, rfl, rfl⟩
    · refine ⟨_, exec_loadLayout_applies h (.inr (Bool.not_eq_true _ ▸ hfirst)), ?_⟩
      rw [if_neg hfirst]
      exact ⟨rfl, rfl⟩
  case loadGrove =>
    intro g t
    have ht : t = loadDone j (if bit (j.desc.op 0x1E 2) 1 then d else groveLoaded d (j.desc.op 0x1C 2) g (bit (j.desc.op 0x1E 2) 0)) :=
      startLoadGrove_eq j d
    clear_value t g
    subst ht
    refine ⟨fun hcheck => by rw [if_pos hcheck]; exact loadDone_frame j d, fun hload => ?_⟩
    rw [if_neg (Bool.eq_false_iff.mp hload)]
    refine ⟨(groveLoaded_groveOnly d _ g _).trans (loadDone_frame j _), ?_⟩
    cases bit (j.desc.op 0x1E 2) 0 with
    | false =>
      obtain ⟨q, hq, hreplay, hshadow, hactive⟩ := plot_groveLoaded_staged hp g
      exact ⟨q, hq, hreplay, fun _ => ⟨hshadow, hactive, activePair_groveLoaded_staged d _ g⟩, nofun⟩
    | true =>
      obtain ⟨q, hq, hreplay, hactive, hshadow⟩ := plot_groveLoaded_active hp g
      exact ⟨q, hq, hreplay, nofun, fun _ => ⟨hactive, hshadow⟩⟩
  case evictGrove =>
    obtain ⟨hexec, hpid, hbanks⟩ := exec_evictGrove h
    have hdone := startEvict_emptied (j := jobAt s y) (p := p) (d := asked s y) (by rw [hpid, plot_asked, hp])
    rw [hpid, hbanks] at hdone
    obtain ⟨q, hq, -, hshadow, hactive⟩ := hdone.plot
    exact ⟨_, q, hexec, rfl, rfl, hdone.mem.trans (mem_asked s y), hq, hshadow, hactive,
      fun n hn => ⟨fun hb => hdone.shadowPair hb n hn, fun hb => hdone.activePair hb n hn⟩,
      fun n hn => (hdone.others n hn).trans (core_asked s y n)⟩
  case tableSync =>
    obtain ⟨hexec, hop⟩ := exec_tableSync h hc
    have hframe := synced_frame s y (syncNames (jobAt s y) (asked s y)) (jobAt s y).id
    have hcache := cache_synced_spec s y (syncNames (jobAt s y) (asked s y)) (jobAt s y).id
    have hall (h0 : x.op 0x10 8 = 0) (r : Nat) : syncNames (jobAt s y) (asked s y) r = true := by simp [syncNames, hop, h0]
    generalize (dropCached (asked s y) (syncNames (jobAt s y) (asked s y))).finishJob (jobAt s y).id 0 = t at hexec hframe hcache
    exact ⟨_, hexec, congrArg (withDev s) hframe, fun h0 => hcache.1 (hall h0), hcache.2⟩
  case engines =>
    obtain ⟨t, hexec, hwork, hj⟩ := exec_engineOps h (engineOps_of_opcode hop)
    obtain ⟨a, xs, js, hin⟩ := entered_frame s y
    rw [hin] at hwork
    exact ⟨_, hexec, rfl, rfl, hwork.plots, hwork.layout, hwork.deviceId, hwork.graphs, hwork.events, hj⟩

end Sys2Proof.Proofs
end
